-- ==== Sys2Proof/Word.lean ====
section
/-! DEFINITION. The words of the node: bytes, 64-bit registers, addresses, and the sparse tables that hold
memories and register files as plain data. -/

namespace Sys2Proof

/-- One byte (00_scope, Conventions). -/
abbrev Byte := BitVec 8

/-- A node register or an instruction word: 64 bits (00_scope, Register conventions). -/
abbrev Word := BitVec 64

/-- A sparse table keyed by number. Keys rise strictly and no entry equals the table's default value, so equal
tables are equal data. -/
abbrev Table (α : Type) := List (Nat × α)

namespace Table

/-- What the table holds at a key: the listed value, or the default. -/
def get {α : Type} (d : α) : Table α → Nat → α
  | [], _ => d
  | (k, v) :: m, n => if n = k then v else if n < k then d else get d m n

/-- The table with the entry at a key taken out. -/
def remove {α : Type} : Table α → Nat → Table α
  | [], _ => []
  | (k, v) :: m, n => if n = k then m else if n < k then (k, v) :: m else (k, v) :: remove m n

/-- The table with a key listed, in rising order of keys. -/
def insert {α : Type} : Table α → Nat → α → Table α
  | [], n, x => [(n, x)]
  | (k, v) :: m, n, x =>
    if n = k then (n, x) :: m else if n < k then (n, x) :: (k, v) :: m else (k, v) :: insert m n x

/-- The table after writing a value at a key. Writing the default takes the entry out, so the form stays canonical. -/
def set {α : Type} [DecidableEq α] (d : α) (m : Table α) (n : Nat) (x : α) : Table α :=
  if x = d then remove m n else insert m n x

/-- Changes the value at a key. -/
def modify {α : Type} [DecidableEq α] (d : α) (m : Table α) (n : Nat) (f : α → α) : Table α :=
  set d m n (f (get d m n))

/-- Every key of the table is at least `n`, and keys rise strictly. -/
def risesFrom {α : Type} : Nat → Table α → Bool
  | _, [] => true
  | n, (k, _) :: m => decide (n ≤ k) && risesFrom (k + 1) m

/-- The canonical form: keys rise strictly and no entry equals the default. -/
def wf {α : Type} [DecidableEq α] (d : α) (m : Table α) : Bool :=
  risesFrom 0 m && m.all (fun e => decide (e.2 ≠ d))

end Table

/-- Bits `lo` to `lo + n - 1` of a number. -/
def bitsOf (x lo n : Nat) : Nat := (x / 2 ^ lo) % 2 ^ n

/-- Bit `k` of a number. -/
def bitOf (x k : Nat) : Bool := (x / 2 ^ k) % 2 == 1

/-- The signed reading of the low `w` bits of a number. -/
def signedOf (w x : Nat) : Int :=
  let y := x % 2 ^ w
  if y < 2 ^ (w - 1) then (y : Int) else (y : Int) - (2 ^ w : Nat)

/-- The low `w` bits of an integer, as a number. -/
def wrapNat (w : Nat) (x : Int) : Nat := (x % ((2 ^ w : Nat) : Int)).toNat

end Sys2Proof
end

