-- ==== Sys2Proof/Syntax.lean ====
section
/-! DEFINITION. The commands of the node: one constructor for each row of spec/opcode_table.json, with the operands
that the row's rule names. Units that run by themselves (a sequencer, a queue's unit, a core, an engine) take only
their index: what they do next stands in the state. Events of the environment carry what the environment shows. -/

namespace Sys2Proof

/-- The five units of a tile, in the unit order of R105. -/
inductive TileUnit where
  | load | matrix | vector | store | sync
  deriving DecidableEq, Repr

/-- Who makes a request (the agents of 01_coupled_step, with the endpoint numbers of its subsystem table). A core's
request carries whether the core is in U mode (R14, R283). -/
inductive Requester where
  | tile (t : Nat)
  | core (c : Nat) (user : Bool)
  | engine (e : Nat)
  | hfi (p : Nat)
  | hec (port : Nat)
  | ckp
  | hub
  | akm
  | aks
  deriving DecidableEq, Repr

/-- What a link does to a flit of a packet that moves one stop (R197). -/
inductive FlitError where
  /-- the flits arrive as sent -/
  | none
  /-- a single-bit error, corrected and counted -/
  | corrected
  /-- a double-bit error in a payload quarter: sector `k` of the payload is poisoned -/
  | payload (k : Nat)
  /-- a double-bit error in the header quarter, or an HCRC mismatch -/
  | header
  deriving DecidableEq, Repr

/-- The three conditions of internal power-good (R432). -/
inductive PowerCondition where
  | pwrOk | vin48 | refclk
  deriving DecidableEq, Repr

/-- The commands of the node, in the order of the table. -/
inductive Instr where
  /-- DISPATCH (R72). The sequencer fetches the next instruction word of the program region and dispatches the instruction in program order to the queue that owns its opcode. -/
  | dispatch (t : Nat)
  /-- NOP (R106). A NOP takes one fetch tick and dispatches nothing. -/
  | nop (t : Nat)
  /-- LOOP (R111). LOOP opens a counted loop, or skips its body when COUNT is 0. -/
  | loop (t : Nat)
  /-- CALL (R112). CALL continues fetch at TARGET and records a return point. -/
  | call (t : Nat)
  /-- RET (R112). RET returns to the matching CALL's return point and applies any loop ends held by the CALL. -/
  | ret (t : Nat)
  /-- AGSET (R113). AGSET sets a generator's base and its global flag. -/
  | agset (t : Nat)
  /-- AGSTRIDE (R113). AGSTRIDE sets a generator's stride for one loop level. -/
  | agstride (t : Nat)
  /-- AGADD (R113). AGADD adds a signed delta to a generator's base. -/
  | agadd (t : Nat)
  /-- END (R114). END stops fetch, takes an entry in all five queues and abandons any open loops and calls. -/
  | endProg (t : Nat)
  /-- TILE_IDLE (R79). Once every queue has reached END and every request is acknowledged, the tile becomes IDLE. -/
  | tileIdle (t : Nat)
  /-- INSTRUCTION_COMPLETE (R77). A unit's instruction reaches its completion point and increments the local credit counters of its post set. -/
  | instructionComplete (t : Nat) (u : TileUnit) (n : Nat)
  /-- PREREAD (R81). The load unit sends prefetch-bit reads of a queued LOAD into its staging buffer once the run-ahead conditions hold. -/
  | preread (t : Nat) (n : Nat)
  /-- TWAIT (R115). A tile TWAIT waits until its own tally has advanced DIST past its mark. -/
  | twait (t : Nat)
  /-- TALLY_WAIT_COMPLETE (R226). A pending tally wait of a tile, core or engine completes once the count reaches the awaited distance, and the mark advances. -/
  | tallyWaitComplete (a : Nat)
  /-- HARR (R117). A tile HARR issues under the arrival fence, sends the arrival and sets the pending bit. -/
  | harr (t : Nat)
  /-- HWAIT (R117). A tile HWAIT waits until the hurdle's pending bit is clear. -/
  | hwait (t : Nat)
  /-- HARRW (R117). A tile HARRW performs HARR and then HWAIT from one queue entry. -/
  | harrw (t : Nat)
  /-- LOAD (R99). LOAD issues one read per piece, or drains staged pre-read data, into its tile's SRAM. -/
  | load (t : Nat)
  /-- XPOSE (R120). XPOSE transposes NB consecutive bricks from SRC to DST. -/
  | xpose (t : Nat)
  /-- STORE (R100). STORE sends its pieces as writes and, after all are acknowledged, sends its credit packet. -/
  | store (t : Nat)
  /-- ATOMI (R119). ATOMI sends a posted atomic whose operand comes from the extension word. -/
  | atomi (t : Nat)
  /-- ATOMS (R119). ATOMS sends a posted atomic whose operand is read from tile SRAM. -/
  | atoms (t : Nat)
  /-- MMUL (R121). MMUL feeds a matrix product into an accumulator bank for K_t ticks. -/
  | mmul (t : Nat)
  /-- BANK_FINAL (R95). The results of a compute instruction become final in its bank 256 ticks after its last operand read. -/
  | bankFinal (t : Nat) (b : Bool)
  /-- MDRAIN (R128). MDRAIN writes the bank's 128 x 128 outputs to SRAM as bricks of a format, or as records. -/
  | mdrain (t : Nat)
  /-- MLDB (R130). MLDB loads a whole bank from SRAM records or FP32 values. -/
  | mldb (t : Nat)
  /-- VADD (R149). VADD adds element-wise. -/
  | vadd (t : Nat)
  /-- VSUB (R149). VSUB subtracts element-wise. -/
  | vsub (t : Nat)
  /-- VMUL (R149). VMUL multiplies element-wise. -/
  | vmul (t : Nat)
  /-- VMULH (R145). VMULH writes the high half of each integer product. -/
  | vmulh (t : Nat)
  /-- VADDSAT (R145). VADDSAT adds with saturation. -/
  | vaddsat (t : Nat)
  /-- VSUBSAT (R145). VSUBSAT subtracts with saturation. -/
  | vsubsat (t : Nat)
  /-- VMULSAT (R145). VMULSAT multiplies with saturation. -/
  | vmulsat (t : Nat)
  /-- VMIN (R150). VMIN writes the element-wise minimum. -/
  | vmin (t : Nat)
  /-- VMAX (R150). VMAX writes the element-wise maximum. -/
  | vmax (t : Nat)
  /-- VABS (R150). VABS writes the absolute value of each element. -/
  | vabs (t : Nat)
  /-- VNEG (R150). VNEG negates each element. -/
  | vneg (t : Nat)
  /-- VFMA (R149). VFMA computes VA x VB + VC with one rounding. -/
  | vfma (t : Nat)
  /-- VSLL (R146). VSLL shifts left logically. -/
  | vsll (t : Nat)
  /-- VSRL (R146). VSRL shifts right logically. -/
  | vsrl (t : Nat)
  /-- VSRA (R146). VSRA shifts right arithmetically. -/
  | vsra (t : Nat)
  /-- VSLLSAT (R146). VSLLSAT shifts left with saturation. -/
  | vsllsat (t : Nat)
  /-- VAND (R145). VAND performs a bitwise and. -/
  | vand (t : Nat)
  /-- VOR (R145). VOR performs a bitwise or. -/
  | vor (t : Nat)
  /-- VXOR (R145). VXOR performs a bitwise xor. -/
  | vxor (t : Nat)
  /-- VNOT (R145). VNOT performs a bitwise not. -/
  | vnot (t : Nat)
  /-- VCMPEQ (R151). VCMPEQ writes an equality mask. -/
  | vcmpeq (t : Nat)
  /-- VCMPLT (R151). VCMPLT writes a less-than mask. -/
  | vcmplt (t : Nat)
  /-- VCMPLE (R151). VCMPLE writes a less-or-equal mask. -/
  | vcmple (t : Nat)
  /-- VSEL (R151). VSEL selects elements by the mask in VC. -/
  | vsel (t : Nat)
  /-- VEXP2 (R152). VEXP2 returns 2^x, correctly rounded to FP32. -/
  | vexp2 (t : Nat)
  /-- VLOG2 (R152). VLOG2 returns log2 x, correctly rounded to FP32. -/
  | vlog2 (t : Nat)
  /-- VRCP (R152). VRCP returns 1/x, correctly rounded to FP32. -/
  | vrcp (t : Nat)
  /-- VRSQRT (R152). VRSQRT returns 1/sqrt x, correctly rounded to FP32. -/
  | vrsqrt (t : Nat)
  /-- VSINPI (R152). VSINPI returns sin(pi x), correctly rounded to FP32. -/
  | vsinpi (t : Nat)
  /-- VCOSPI (R152). VCOSPI returns cos(pi x), correctly rounded to FP32. -/
  | vcospi (t : Nat)
  /-- VCVT (R153). VCVT converts a register group between element types and storage formats. -/
  | vcvt (t : Nat)
  /-- VQMUL (R148). VQMUL multiplies fixed-point elements, rounds by RM and saturates. -/
  | vqmul (t : Nat)
  /-- VACC (R156). VACC moves one register of bank values to or from an accumulator bank. -/
  | vacc (t : Nat)
  /-- VRSUM (R161). VRSUM reduces segments of 32 elements by sum. -/
  | vrsum (t : Nat)
  /-- VRMAX (R162). VRMAX reduces segments to their largest leaf. -/
  | vrmax (t : Nat)
  /-- VRMIN (R162). VRMIN reduces segments to their smallest leaf. -/
  | vrmin (t : Nat)
  /-- VDRELU (R164). VDRELU forms the ReLU derivative from the saved output. -/
  | vdrelu (t : Nat)
  /-- VDLRELU (R164). VDLRELU forms the leaky ReLU derivative. -/
  | vdlrelu (t : Nat)
  /-- VDSIGM (R164). VDSIGM forms the sigmoid derivative. -/
  | vdsigm (t : Nat)
  /-- VDTANH (R164). VDTANH forms the tanh derivative. -/
  | vdtanh (t : Nat)
  /-- VDELU (R164). VDELU forms the ELU derivative. -/
  | vdelu (t : Nat)
  /-- VDSOFTP (R164). VDSOFTP forms the softplus derivative. -/
  | vdsoftp (t : Nat)
  /-- VDEXP (R164). VDEXP forms the exp derivative. -/
  | vdexp (t : Nat)
  /-- VLD (R159). VLD loads registers from tile SRAM, optionally through the transposer. -/
  | vld (t : Nat)
  /-- VST (R159). VST stores registers to tile SRAM. -/
  | vst (t : Nat)
  /-- TIL_SEQ_COMMIT (R69). A GO write commits the tile's program region fields, or they are rejected. -/
  | tilSeqCommit (t : Nat) (src : Requester) (v : Word)
  /-- PACKET_ROUTE (R176). A packet advances through a stop of the package fabric along its fixed dimension-ordered route. -/
  | packetRoute (n : Nat) (err : FlitError)
  /-- D2D_FRAME (R199). A die-to-die link frame of five flit slots and frame control is received. -/
  | d2dFrame (n : Nat) (frame : List Byte)
  /-- PFB_PEN_REQ (R195). An AKM write pens a tile, so its router finishes in-flight packets and enters bypass. -/
  | pfbPenReq (src : Requester) (v : Word)
  /-- RD (R208). A read request arrives at its target and is answered with RDATA, ERR or DECLINE. -/
  | rd (n : Nat) (ce ue : List Nat)
  /-- WR (R206). A write request arrives at its target, is performed and is acknowledged. -/
  | wr (n : Nat)
  /-- ATOM (R207). A posted atomic is executed at its target as one indivisible read-modify-write. -/
  | atom (n : Nat) (ce ue : List Nat)
  /-- SNRD (R221). A checkpoint snapshot read arrives and is served without testing the bitmap. -/
  | snrd (n : Nat) (ce ue : List Nat)
  /-- SNWR (R221). A checkpoint snapshot write arrives and is served without testing the bitmap. -/
  | snwr (n : Nat)
  /-- CREDIT (R225). A credit packet arrives at the tally owner and adds to COUNT, setting ERR when TERR is 1. -/
  | credit (n : Nat)
  /-- ARRIVE (R233). The SYN hub accepts or refuses a hurdle arrival. -/
  | arrive (n : Nat)
  /-- NODE_ARRIVE (R234). A child's node arrival is received and checked by its parent. -/
  | nodeArrive (n : Nat)
  /-- NODE_RELEASE (R236). A release carrying T_release is received from the parent and forwarded to the children. -/
  | nodeRelease (n : Nat)
  /-- NODE_ARRIVE_RESEND (R235). A refused NODE_ARRIVE is resent every 4,096 ticks. -/
  | nodeArriveResend (h : Nat)
  /-- TIME_REQ (R245). The bellwether receives a time request and answers it with stamps at once. -/
  | timeReq (n : Nat)
  /-- TIME_RSP (R245). A time response is received, and the offset is computed and slewed against. -/
  | timeRsp (n : Nat)
  /-- RDATA (R99). Read data arrives at the requester and is written to its destination. -/
  | rdata (n : Nat)
  /-- ACK (R100). An acknowledgement arrives at the requester. -/
  | ack (n : Nat)
  /-- ERR (R274). An ERR response arrives at the requester and is handled by its kind. -/
  | err (n : Nat)
  /-- DECLINE (R83). A DECLINE arrives for a prefetch and is discarded, or counts as BAD_PACKET for a non-prefetch read. -/
  | decline (n : Nat)
  /-- REFRESH (R213). A pseudo-channel refreshes one bank at the interval its temperature requires. -/
  | refresh (pc bank : Nat)
  /-- STACK_CALIBRATION (R420). A stack calibration starts in a quiet window that has calibration enabled. -/
  | stackCalibration (k : Nat)
  /-- FORCED_CALIBRATION (R214). A stack takes its calibration window when 1,250,000 ticks have passed since its last one. -/
  | forcedCalibration (s : Nat)
  /-- PATROL_SCRUB (R215). Every INTERVAL x 256 ticks each pseudo-channel reads and corrects its next scrub granule. -/
  | patrolScrub (pc : Nat) (ce ue : List Nat)
  /-- PORT_SATURATION (R217). A memory port whose queue stays full for 4,096 ticks sets its saturation bit and raises LEVEL_SAT. -/
  | portSaturation (p : Nat)
  /-- MEM_MAP_COMMIT (R205). A GO write commits the region modes, or they are rejected. -/
  | memMapCommit (src : Requester) (v : Word)
  /-- MEM_PEN_REQ (R222). An AKM write pens a pseudo-channel, whose requests are then answered MEM_PENNED. -/
  | memPenReq (src : Requester) (v : Word)
  /-- HURDLE_RELEASE (R237). The timebase reaches T_release, so participants are released, tags clear and the round advances. -/
  | hurdleRelease (h : Nat)
  /-- SYN_TALLY_WRITE (R224). A write to SYN_TALLY_i sets COUNT and ERR while the JID is 0, and is denied otherwise. -/
  | synTallyWrite (i : Nat) (src : Requester) (v : Word)
  /-- SYN_HCOMMIT (R232). A GO write commits a hurdle's configuration, arming or disarming it, or it is rejected. -/
  | synHcommit (src : Requester) (v : Word)
  /-- SYN_TREE_COMMIT (R243). A GO write commits the hurdle tree and bellwether, or it is rejected. -/
  | synTreeCommit (src : Requester) (v : Word)
  /-- SYN_DESIG_COMMIT (R241). A GO write commits the launch, step and cut designations and SYN_STEP, or they are rejected. -/
  | synDesigCommit (src : Requester) (v : Word)
  /-- SYN_QWIN_COMMIT (R248). A GO write commits the quiet windows, to apply at the next step release. -/
  | synQwinCommit (src : Requester) (v : Word)
  /-- TSYNC_EDGE (R244). An accepted tsync rising edge sets the timebase at the first edge, or steers slewing later. -/
  | tsyncEdge
  /-- TSYNC_LOST (R244). No tsync edge for 2,500,000 ticks sets TSYNC_LOST, and the master runs freely. -/
  | tsyncLost
  /-- TIME_EXCHANGE (R245). Every INTERVAL x 65,536 ticks a non-bellwether node sends TIME_REQ to the bellwether. -/
  | timeExchange
  /-- QWIN_OPEN (R248). Step phase reaches a window's start, and the quiet window opens. -/
  | qwinOpen (k : Nat)
  /-- QWIN_CLOSE (R248). A quiet window closes at its end, or at the next step release. -/
  | qwinClose (k : Nat)
  /-- HOLTIM_FRAME (R251). A 1,280 B Holtim frame is received and its flits, credits and link control are taken. -/
  | holtimFrame (p : Nat) (frame : List Byte)
  /-- ASSIGN (R258). An ASSIGN from the switch sets the node ID, marks the port up, or flags MISWIRE or ID_MISMATCH. -/
  | assign (p node plane : Nat)
  /-- LINK_DOWN (R256). A Holtim link goes down, so unacknowledged packets are lost and the port leaves PLANE_EFF. -/
  | linkDown (p : Nat)
  /-- LINK_UP (R262). A trained and assigned port comes up and joins PLANE_EFF. -/
  | linkUp (p : Nat)
  /-- REQUEST_TIMEOUT (R270). A remote request has no response within LOAD_TMO, so it ends with REQ_TMO and REMOTE_TMO is raised. -/
  | requestTimeout (p tag : Nat)
  /-- HOLTIM_SATURATION (R276). A link VC ready without credit for 4,096 ticks sets its saturation bit and raises LEVEL_SAT. -/
  | holtimSaturation (p l : Nat)
  /-- HFI_PLANE_COMMIT (R262). A GO write commits the allowed plane map, to apply at the next step release. -/
  | hfiPlaneCommit (src : Requester) (v : Word)
  /-- HFI_WIN_COMMIT (R265). A GO write commits a window's base, size, JID and permissions, or they are rejected. -/
  | hfiWinCommit (src : Requester) (v : Word)
  /-- HFI_TMO (R270). A write of LOAD_TMO is clamped to 10-1,000 us and applies to later requests. -/
  | hfiTmo (src : Requester) (v : Word)
  /-- RV64_INSTRUCTION (R280). A core executes a standard RV64 scalar, CSR or fence instruction. -/
  | rv64Instruction (c : Nat)
  /-- SPECULATIVE_READ (R288). A core reads cacheable or prefetchable memory ahead of the instruction stream, with the prefetch bit; bit 63 of the operand: a double-bit error stands in the cached line it meets (R410). -/
  | speculativeRead (c : Nat) (a : Word)
  /-- INTERRUPT (R291). A core takes a pending and enabled interrupt, abandoning any wait in progress. -/
  | interrupt (c : Nat)
  /-- MTIP (R297). mtime reaches a core's mtimecmp, and the machine timer interrupt becomes pending. -/
  | mtip (c : Nat)
  /-- POSTED_ERROR (R294). A posted-write error is taken as an exception at the next instruction boundary. -/
  | postedError (c : Nat)
  /-- TCRED (R289). A core sends a posted tally credit after its earlier non-private writes are acknowledged. -/
  | tcred (c : Nat)
  /-- TCRED_C (R289). A core cleans its shared lines and then sends a tally credit. -/
  | tcredC (c : Nat)
  /-- CORE_TWAIT (R226). A core waits on one of its tallies. -/
  | coreTwait (c : Nat)
  /-- CORE_HARR (R290). A core arrives at a hurdle after cleaning its shared lines. -/
  | coreHarr (c : Nat)
  /-- CORE_HWAIT (R117). A core waits until the hurdle's pending bit clears. -/
  | coreHwait (c : Nat)
  /-- CORE_HARRW (R290). A core arrives at a hurdle and waits for its release. -/
  | coreHarrw (c : Nat)
  /-- PAMO (R32). A core sends a posted atomic that returns nothing. -/
  | pamo (c : Nat)
  /-- CLEAN (R285). A core writes back its dirty SHARED lines and completes when they are acknowledged. -/
  | clean (c : Nat)
  /-- LVCFG (R302). LVCFG sets vtype and vl. -/
  | lvcfg (c : Nat)
  /-- LVX_ADD (R303). LVX ADD adds element-wise. -/
  | lvxAdd (c : Nat)
  /-- LVX_SUB (R303). LVX SUB subtracts element-wise. -/
  | lvxSub (c : Nat)
  /-- LVX_MUL (R303). LVX MUL writes the low product bits. -/
  | lvxMul (c : Nat)
  /-- LVX_MULH (R303). LVX MULH writes the high signed product bits. -/
  | lvxMulh (c : Nat)
  /-- LVX_MIN (R303). LVX MIN writes the signed minimum. -/
  | lvxMin (c : Nat)
  /-- LVX_MAX (R303). LVX MAX writes the signed maximum. -/
  | lvxMax (c : Nat)
  /-- LVX_MINU (R303). LVX MINU writes the unsigned minimum. -/
  | lvxMinu (c : Nat)
  /-- LVX_MAXU (R303). LVX MAXU writes the unsigned maximum. -/
  | lvxMaxu (c : Nat)
  /-- LVX_AND (R303). LVX AND performs a bitwise and. -/
  | lvxAnd (c : Nat)
  /-- LVX_OR (R303). LVX OR performs a bitwise or. -/
  | lvxOr (c : Nat)
  /-- LVX_XOR (R303). LVX XOR performs a bitwise xor. -/
  | lvxXor (c : Nat)
  /-- LVX_SLL (R303). LVX SLL shifts left. -/
  | lvxSll (c : Nat)
  /-- LVX_SRL (R303). LVX SRL shifts right logically. -/
  | lvxSrl (c : Nat)
  /-- LVX_SRA (R303). LVX SRA shifts right arithmetically. -/
  | lvxSra (c : Nat)
  /-- LVX_CMPEQ (R303). LVX CMPEQ writes an equality predicate. -/
  | lvxCmpeq (c : Nat)
  /-- LVX_CMPLT (R303). LVX CMPLT writes a signed less-than predicate. -/
  | lvxCmplt (c : Nat)
  /-- LVX_CMPLTU (R303). LVX CMPLTU writes an unsigned less-than predicate. -/
  | lvxCmpltu (c : Nat)
  /-- LVX_MERGE (R303). LVX MERGE selects elements by a predicate. -/
  | lvxMerge (c : Nat)
  /-- LVX_MOVE (R303). LVX MOVE copies operand 2. -/
  | lvxMove (c : Nat)
  /-- LVX_FCVT (R303). LVX FCVT converts between signed integer and floating point. -/
  | lvxFcvt (c : Nat)
  /-- LVX_FADD (R305). LVX FADD adds floating-point elements. -/
  | lvxFadd (c : Nat)
  /-- LVX_FSUB (R305). LVX FSUB subtracts floating-point elements. -/
  | lvxFsub (c : Nat)
  /-- LVX_FMUL (R305). LVX FMUL multiplies floating-point elements. -/
  | lvxFmul (c : Nat)
  /-- LVX_FDIV (R305). LVX FDIV divides floating-point elements. -/
  | lvxFdiv (c : Nat)
  /-- LVX_FMACC (R305). LVX FMACC performs a fused multiply-accumulate. -/
  | lvxFmacc (c : Nat)
  /-- LVX_FNMSAC (R305). LVX FNMSAC performs a fused negated multiply-accumulate. -/
  | lvxFnmsac (c : Nat)
  /-- LVX_FMIN (R305). LVX FMIN writes the floating-point minimum. -/
  | lvxFmin (c : Nat)
  /-- LVX_FMAX (R305). LVX FMAX writes the floating-point maximum. -/
  | lvxFmax (c : Nat)
  /-- LVX_FSQRT (R305). LVX FSQRT writes the square root. -/
  | lvxFsqrt (c : Nat)
  /-- LVX_FCMPEQ (R305). LVX FCMPEQ writes a floating-point equality predicate. -/
  | lvxFcmpeq (c : Nat)
  /-- LVX_FCMPLT (R305). LVX FCMPLT writes a floating-point less-than predicate. -/
  | lvxFcmplt (c : Nat)
  /-- LVX_FCMPLE (R305). LVX FCMPLE writes a floating-point less-or-equal predicate. -/
  | lvxFcmple (c : Nat)
  /-- LVX_LOAD_UNIT (R307). A unit-stride vector load runs element by element and may be interrupted between elements. -/
  | lvxLoadUnit (c : Nat) (stop : Nat)
  /-- LVX_LOAD_STRIDED (R307). A strided vector load. -/
  | lvxLoadStrided (c : Nat) (stop : Nat)
  /-- LVX_LOAD_FIRST_FAULT (R308). A first-fault vector load shortens vl at the first faulting element above 0. -/
  | lvxLoadFirstFault (c : Nat) (stop : Nat)
  /-- LVX_LOAD_INDEXED (R307). An indexed vector load. -/
  | lvxLoadIndexed (c : Nat) (stop : Nat)
  /-- LVX_STORE_UNIT (R307). A unit-stride vector store. -/
  | lvxStoreUnit (c : Nat) (stop : Nat)
  /-- LVX_STORE_STRIDED (R307). A strided vector store. -/
  | lvxStoreStrided (c : Nat) (stop : Nat)
  /-- LVX_STORE_INDEXED (R307). An indexed vector store. -/
  | lvxStoreIndexed (c : Nat) (stop : Nat)
  /-- LVX_RSUM (R309). An integer sum reduction. -/
  | lvxRsum (c : Nat)
  /-- LVX_RMIN (R309). A signed minimum reduction. -/
  | lvxRmin (c : Nat)
  /-- LVX_RMAX (R309). A signed maximum reduction. -/
  | lvxRmax (c : Nat)
  /-- LVX_RMINU (R309). An unsigned minimum reduction. -/
  | lvxRminu (c : Nat)
  /-- LVX_RMAXU (R309). An unsigned maximum reduction. -/
  | lvxRmaxu (c : Nat)
  /-- FRSUM_ORD (R309). An ordered floating-point sum in ascending element index. -/
  | frsumOrd (c : Nat)
  /-- FRSUM_TREE (R309). A floating-point sum by the canonical tree T, with s added once. -/
  | frsumTree (c : Nat)
  /-- FRMIN (R309). A floating-point minimum reduction. -/
  | frmin (c : Nat)
  /-- FRMAX (R309). A floating-point maximum reduction. -/
  | frmax (c : Nat)
  /-- PAND (R299). A predicate and. -/
  | pand (c : Nat)
  /-- POR (R299). A predicate or. -/
  | por (c : Nat)
  /-- PXOR (R299). A predicate xor. -/
  | pxor (c : Nat)
  /-- PANDN (R299). A predicate and-not. -/
  | pandn (c : Nat)
  /-- PNOT (R299). A predicate not. -/
  | pnot (c : Nat)
  /-- PPOPC (R299). Counts the set predicate bits below vl. -/
  | ppopc (c : Nat)
  /-- PFIRST (R299). Finds the lowest set predicate bit below vl. -/
  | pfirst (c : Nat)
  /-- PTOV (R299). Copies a predicate into a vector register. -/
  | ptov (c : Nat)
  /-- VTOP (R299). Copies a vector register into a predicate. -/
  | vtop (c : Nat)
  /-- PRC_START_COMMIT (R295). A GO write commits the core start entries, or they are rejected. -/
  | prcStartCommit (src : Requester) (v : Word)
  /-- PRC_PMA_COMMIT (R283). A GO write captures the memory attribute codes, or they are rejected. -/
  | prcPmaCommit (src : Requester) (v : Word)
  /-- PMA_APPLY (R283). The attribute commit is applied after the affected lines are written back and dropped. -/
  | pmaApply
  /-- PRC_APER_COMMIT (R282). A GO write commits one aperture's node, window and valid bit. -/
  | prcAperCommit (src : Requester) (v : Word)
  /-- MSI_WRITE (R296). A write of an IMSIC seteipnum register raises an interrupt identity. -/
  | msiWrite (src : Requester) (c : Nat) (sup : Bool) (v : Word)
  /-- MAR_NOP (R330). An engine NOP command. -/
  | marNop (e : Nat)
  /-- SOLVE (R323). An engine starts a fixed-length solve of one system, checking its descriptor and applying its deltas. -/
  | solve (e : Nat)
  /-- SOLVE_FINISH (R324). The solve's FINISH writes the state block and output and sends the RESULT credit after the acknowledgements. -/
  | solveFinish (e : Nat)
  /-- MAR_LATE (R325). Step phase reaches DEADLINE during a solve, and the LATE record is taken. -/
  | marLate (e : Nat)
  /-- MAR_TWAIT (R327). An engine waits on one of its tallies. -/
  | marTwait (e : Nat)
  /-- MAR_HARR (R328). An engine arrives at a hurdle after its fence. -/
  | marHarr (e : Nat)
  /-- MAR_HWAIT (R327). An engine waits for a hurdle's pending bit to clear. -/
  | marHwait (e : Nat)
  /-- MAR_HARRW (R327). An engine arrives at a hurdle and waits for its release. -/
  | marHarrw (e : Nat)
  /-- MAR_CREDIT (R329). An engine sends a credit-only packet. -/
  | marCredit (e : Nat)
  /-- COPY (R329). An engine copies N sectors and credits a tally. -/
  | copy (e : Nat)
  /-- JUMP (R329). An engine continues at a target command word. -/
  | jump (e : Nat)
  /-- STOP (R329). An engine waits for its requests, sets DONE and becomes IDLE. -/
  | stop (e : Nat)
  /-- MAR_START_COMMIT (R331). A GO write commits an engine's start entry, or it is rejected. -/
  | marStartCommit (e : Nat) (src : Requester) (v : Word)
  /-- EAGER_COPY_COMPLETE (R337). The cut's eager copy ends, and held agents, HFI and HEC resume in one tick. -/
  | eagerCopyComplete
  /-- PAGE_COPY_OUT (R340). CKP copies a marked page to the reserve, clears its bit and releases the held writes. -/
  | pageCopyOut (page : Nat)
  /-- SHEAR_PAGE (R342). CKP shears the next page to every live destination within the share limit. -/
  | shearPage
  /-- CKP_CUT_COMMIT (R339). A GO write commits the cut policy, scope, reserve and destinations, or they are rejected. -/
  | ckpCutCommit (src : Requester) (v : Word)
  /-- RESTORE (R346). A GO write of CKP_RESTORE_CTL stops the agents and starts processing the restore list. -/
  | restoreJob (src : Requester) (v : Word)
  /-- RESTORE_COMPLETE (R350). The restore ends in success or a failure code, and on success the tags, rounds and step are set. -/
  | restoreComplete
  /-- CKP_LAUNCH_COMMIT (R353). A GO write commits the launch configuration and clears the held map and status. -/
  | ckpLaunchCommit (src : Requester) (v : Word)
  /-- CKP_LAUNCH_SEND (R355). A write sends a range of chunks to a child. -/
  | ckpLaunchSend (src : Requester) (v : Word)
  /-- LAUNCH_STALL (R355). No chunk becomes held for CHUNK_TMO x 100 us, so STALL is set and LAUNCH_STALL is raised. -/
  | launchStall
  /-- ETHERNET_FRAME (R358). An Ethernet frame is received and answered for ARP, neighbour discovery or echo, or discarded. -/
  | ethernetFrame (k : Nat) (frame : List Byte)
  /-- ETH_LINK_UP (R356). An Ethernet link trains and comes up. -/
  | ethLinkUp (k : Nat)
  /-- ETH_LINK_DOWN (R365). An Ethernet link goes down and ends its sessions. -/
  | ethLinkDown (k : Nat)
  /-- INIT (R401). A handshake INIT is received and answered with REPLY. -/
  | init (k : Nat) (dg : List Byte)
  /-- FINISH (R402). A handshake FINISH is verified, and the session opens with derived keys. -/
  | finishMsg (k : Nat) (dg : List Byte)
  /-- CLOSE (R403). A CLOSE with a valid tag ends the session. -/
  | close (k : Nat) (dg : List Byte)
  /-- HANDSHAKE_TIMEOUT (R401). A handshake not finished within 1 s is dropped. -/
  | handshakeTimeout (n : Nat)
  /-- DATA (R362). A DATA datagram is authenticated, acknowledged and its message delivered in SEQ order. -/
  | dataMsg (k : Nat) (dg : List Byte)
  /-- CROOK_ACK (R362). A Crook ACK frees acknowledged datagrams and event entries. -/
  | crookAck (k : Nat) (dg : List Byte)
  /-- RETRANSMIT (R363). An unacknowledged datagram is resent after RTO, and the session ends after 16 sendings. -/
  | retransmit (slot seq : Nat)
  /-- SESSION_IDLE_TIMEOUT (R365). A session with no valid datagram for IDLE_TMO seconds ends. -/
  | sessionIdleTimeout (slot : Nat)
  /-- READ (R367). A READ message reads job memory and returns READ_DATA and RESULT. -/
  | readMsg (slot q : Nat)
  /-- WRITE (R367). A WRITE message writes job memory and applies its credit. -/
  | writeMsg (slot q : Nat)
  /-- REGRD (R446). A REGRD message reads n registers. -/
  | regrd (slot q : Nat)
  /-- REGWR (R446). A REGWR message writes n registers. -/
  | regwr (slot q : Nat)
  /-- CROOK_CREDIT (R366). A Crook CREDIT message credits a tally after its queue's earlier messages complete. -/
  | crookCredit (slot q : Nat)
  /-- DOORBELL (R374). A DOORBELL places its value in the doorbell FIFO. -/
  | doorbell (slot q : Nat)
  /-- LAUNCH (R370). A LAUNCH message writes launch-area pieces as launch writes. -/
  | launchMsg (slot q : Nat)
  /-- DUMP_READ (R371). A DUMP_READ reads the dump area. -/
  | dumpRead (slot q : Nat)
  /-- FLASH_READ (R371). A FLASH_READ reads boot flash. -/
  | flashRead (slot q : Nat)
  /-- FLASH_ERASE (R371). A FLASH_ERASE erases a block of the slot not booted. -/
  | flashErase (slot q : Nat)
  /-- FLASH_PROGRAM (R371). A FLASH_PROGRAM programs pages of the slot not booted. -/
  | flashProgram (slot q : Nat)
  /-- FLASH_OP_DONE (R375). A flash program pulse or erase completes. -/
  | flashOpDone
  /-- RESET (R371). A Crook RESET message is answered OK, and a reset is scheduled. -/
  | crookResetMsg (slot q : Nat)
  /-- CROOK_RESET (R371). 100 us to 1 ms after the RESET result, the node resets with cause CROOK. -/
  | crookReset
  /-- SHEAR_ACK (R370). A SHEAR_ACK marks a range of host-destination shear data as acknowledged writes. -/
  | shearAck (slot q : Nat)
  /-- EVENT_SINK (R373). EVENT_SINK makes the session the recipient of events. -/
  | eventSink (slot q : Nat)
  /-- HEC_EVT_POST (R374). A write records a CORE_POST event. -/
  | hecEvtPost (src : Requester) (v : Word)
  /-- HEC_DB_POP (R374). A read returns and removes the oldest doorbell value. -/
  | hecDbPop (src : Requester)
  /-- VSTBY_RISING (R382). vstby rises and starts a COLD reset. -/
  | vstbyRising
  /-- RST_N (R383). rst_n held low for long enough is recognised as a PIN reset. -/
  | rstN (lowNs : Nat)
  /-- POWER_GOOD_FAIL (R432). Internal power-good is false for more than 10 us, causing a POWER reset. -/
  | powerGoodFail (cond : PowerCondition) (ns : Nat)
  /-- PWR_OK_RISE (R432). pwr_ok rises and power-good becomes true. -/
  | pwrOkRise
  /-- WATCHDOG_EXPIRY (R382). BRC_WDOG expires and resets the node. -/
  | watchdogExpiry
  /-- BRC_WDOG_KICK (R382). An AKM write of KICK restarts the watchdog period. -/
  | brcWdogKick (src : Requester) (v : Word)
  /-- THERMAL_TRIP (R382). A junction reaches 115 C, causing a THERMAL reset. -/
  | thermalTrip (sensor : Nat) (celsius : Int)
  /-- THERMAL_ALERT (R411). A junction reaches 105 C or the lid 85 C, raising the THERMAL event. -/
  | thermalAlert (sensor : Nat) (celsius : Int)
  /-- GLITCH_DETECT (R408). A clock, supply or integrity fault erases keys and raises the SECURITY reset. -/
  | glitchDetect (detail : Nat)
  /-- RESET_HOLD_END (R383). The reset hold ends after the sources end and the flash waits, and P0 begins. -/
  | resetHoldEnd (hot : Bool)
  /-- THERMAL_WAIT_END (R379). Every junction reads 105 C or less, and P0 leaves its thermal wait. -/
  | thermalWaitEnd
  /-- BOOT_P0_DONE (R379). P0 ends, and P1 checks the slots, starts AKM and loads the identity and configuration. -/
  | bootP0Done
  /-- BOOT_P1_DONE (R379). P1 ends, and P2 brings up dies and trains the die-to-die links. -/
  | bootP1Done (failed : List Nat)
  /-- BOOT_P2_DONE (R379). P2 ends, and P3 trains and zeroes stacked memory. -/
  | bootP2Done (failed : List Nat)
  /-- BOOT_P3_DONE (R379). P3 ends, and P4 self-tests units, takes enabled tiles out of bypass and zeroes SRAM. -/
  | bootP3Done (tiles cores engines : List Nat)
  /-- BOOT_P4_DONE (R447). P4 ends, and P5 trains the Holtim and Ethernet links. -/
  | bootP4Done
  /-- BOOT_P5_DONE (R381). P5 ends, and the node becomes READY. -/
  | bootP5Done
  /-- BOOT_PHASE_TIMEOUT (R380). A phase exceeds its limit, and the node enters BOOT_FAIL with code TIMEOUT. -/
  | bootPhaseTimeout
  /-- HOT_JOIN (R387). After P0 forms the ID, the node requests Hot-Join on I3C. -/
  | hotJoin
  /-- ENTDAA (R386). The I3C controller assigns a dynamic address. -/
  | entdaa (da : BitVec 7)
  /-- RSTDAA (R386). The I3C controller resets the dynamic address. -/
  | rstdaa
  /-- ENEC (R386). Enables I3C events. -/
  | enec (b : Byte)
  /-- DISEC (R386). Disables I3C events. -/
  | disec (b : Byte)
  /-- GETPID (R387). Returns the provisioned ID. -/
  | getpid
  /-- GETBCR (R386). Returns BCR. -/
  | getbcr
  /-- GETDCR (R386). Returns DCR. -/
  | getdcr
  /-- GETSTATUS (R386). Returns the target status. -/
  | getstatus
  /-- GETMWL (R386). Returns the maximum write length. -/
  | getmwl
  /-- GETMRL (R386). Returns the maximum read length. -/
  | getmrl
  /-- RSTACT (R388). Sets the action that the next target reset pattern takes. -/
  | rstact (b : Byte)
  /-- I3C_TARGET_RESET (R388). A target reset pattern resets the node with cause I3C, unless RSTACT 0x00 preceded it. -/
  | i3cTargetReset
  /-- I3C_REGRD (R388). An I3C private read of a BRC, AKM or PWR register. -/
  | i3cRegrd (a : Nat)
  /-- I3C_REGWR (R388). An I3C private write of a BRC, AKM or PWR register. -/
  | i3cRegwr (a : Nat) (v : Word)
  /-- I3C_FLASH_ERASE (R388). An I3C flash erase, allowed only in BOOT_FAIL. -/
  | i3cFlashErase (a : Nat)
  /-- I3C_FLASH_PROGRAM (R388). An I3C flash program, allowed only in BOOT_FAIL. -/
  | i3cFlashProgram (a : Nat) (bytes : List Byte)
  /-- JOB_CHANGE (R404). A GO write of AKS_JOB starts a job change, which stops agents and disarms hurdles and windows. -/
  | jobChange (src : Requester) (v : Word)
  /-- JOB_CHANGE_COMPLETE (R404). The old job's requests end, the node zeroises, extends M6 and sets the new JID. -/
  | jobChangeComplete
  /-- AKS_QUOTE (R398). A GO write captures the quote fields and starts signing. -/
  | aksQuote (src : Requester) (v : Word)
  /-- QUOTE_COMPLETE (R398). The signed quote is written to AKS_QUOTE_k. -/
  | quoteComplete
  /-- PEER_LOAD (R395). A GO write of AKS_PEER_CTL checks a peer certificate and stores its key in a slot. -/
  | peerLoad (src : Requester) (v : Word)
  /-- DEBUG_TOKEN (R406). A GO write of AKS_DEBUG_CTL checks a debug token and enables its scope, or counts the refusal. -/
  | debugToken (src : Requester) (v : Word)
  /-- AKM_PEN_CMD (R412). A GO write pens a tile, core, engine or pseudo-channel with reason 6. -/
  | akmPenCmd (src : Requester) (v : Word)
  /-- UNDERTAKEN_CREDIT (R415). Once the penned unit's earlier requests end, its undertaken credits are sent with TERR set. -/
  | undertakenCredit (n : Nat)
  /-- MARGIN_ALARM (R423). A tile's slack falls below 20 ps, and AKM raises the fold voltage or pens the tile. -/
  | marginAlarm (t slack : Nat)
  /-- AGEING_MEASUREMENT (R422). In a window with bit 1, AKM measures each fold's least slack. -/
  | ageingMeasurement (k : Nat) (slacks : List Nat)
  /-- MARGIN_ADJUSTMENT (R424). In a window with bit 2, AKM raises or lowers each fold's voltage, or pens a tile. -/
  | marginAdjustment (k : Nat)
  /-- DAILY_AGEING_RECORD (R425). Each fold gets an ageing-log record once every 24 hours of operation. -/
  | dailyAgeingRecord (f : Nat)
  /-- TELEMETRY_SAMPLE (R419). Every PERIOD x 256 ticks of step phase, AKM samples the sensors. -/
  | telemetrySample (temps : List Int) (vin : Nat)
  /-- FATAL_ERROR (R427). A fatal error starts the freeze of the node. -/
  | fatalError (code : Nat)
  /-- FREEZE_COMPLETE (R427). The node is frozen, enters FATAL_HOLD and begins writing the dump. -/
  | freezeComplete
  /-- DUMP_COMPLETE (R428). The dump is written, the FATAL event is raised and the hold timer starts. -/
  | dumpComplete
  /-- FREEZE_TIMEOUT (R429). The freeze does not complete within 10 ms, so the node escalates to a FATAL_ESC reset. -/
  | freezeTimeout
  /-- DUMP_TIMEOUT (R429). The dump does not complete within 2 s, so the node escalates to a FATAL_ESC reset. -/
  | dumpTimeout
  /-- HOLD_EXPIRY (R430). The FATAL_HOLD timer ends and resets the node. -/
  | holdExpiry
  /-- POWER_COMPARISON (R434). Every 10 us, the mean input power is compared with LIMIT and the skip level is adjusted. -/
  | powerComparison (mean : Nat)
  /-- PWR_CAP (R435). A write of LIMIT is clamped to the allowed range and used at the next comparison. -/
  | pwrCap (src : Requester) (v : Word)
  /-- TAP_RESET (R439). A TAP reset selects BYPASS. -/
  | tapReset
  /-- SAMPLE_PRELOAD (R439). SAMPLE/PRELOAD selects the boundary register. -/
  | samplePreload
  /-- EXTEST (R440). EXTEST drives the pins from the boundary register. -/
  | extest
  /-- EXTEST_PULSE (R440). EXTEST_PULSE drives the AC test on the lanes. -/
  | extestPulse
  /-- EXTEST_TRAIN (R440). EXTEST_TRAIN drives the AC train test on the lanes. -/
  | extestTrain
  /-- CLAMP (R440). CLAMP holds the pins and selects bypass. -/
  | tapClamp
  /-- HIGHZ (R440). HIGHZ floats the pins. -/
  | highz
  /-- BYPASS (R439). BYPASS selects the bypass register. -/
  | tapBypass
  /-- CORE_DEBUG (R439). Core debug opcodes work only when DEBUG bit 0 is enabled. -/
  | coreDebug (op : Byte)
  /-- INTERNAL_SCAN (R439). Internal scan opcodes work only when DEBUG bit 1 is enabled. -/
  | internalScan (op : Byte)
  /-- REGISTER_WRITE (R389). A write to a register with no row of its own changes its live or shadow value, or W1C bits. -/
  | registerWrite (src : Requester) (a : Nat) (v : Word)
  /-- AKM_MEMORY_UE (R429). AKM's own memory reports an uncorrectable error, and AKM escalates at once to a reset with cause FATAL_ESC without writing a dump. -/
  | akmMemoryUe
  /-- VSTBY_FALLING (R433). vstby falls, so the node enters OFF, and AKM, AKS, BRC_RESET_CAUSE and the I3C target lose power until the next vstby rise records COLD. -/
  | vstbyFalling
  /-- SIGNATURE_COMPLETE (R396). AKS finishes an identity-key signature, taken one at a time in arrival order and lasting up to 20 ms, and the waiting handshake REPLY is sent or the checkpoint seal record is written. -/
  | signatureComplete
  deriving DecidableEq, Repr

end Sys2Proof
end

