-- ==== Sys2Proof/Decode.lean ====
section
/-! DEFINITION. Words and commands. The table gives no row any bits: a command of this block is an event or an access
with its operands, so no word spells one. -/

namespace Sys2Proof

/-- The command that a word spells by the table's bits: none, since no row of the table has bits. -/
def decodeTableWord (_nbits _w : Nat) : Option Instr := none

end Sys2Proof
end

