-- ==== Sys2Proof/Machine/Packet.lean ====
section
/-! DEFINITION. Packets of the package fabric (R187 to R190), the stops they pass (R172 to R174), why a request was sent,
and the records of packets on their way, delivered and awaited. -/

namespace Sys2Proof.Machine

/-- A packet: the header fields of R187 and the payload, 32 bytes a sector. `poison` lists the payload sectors marked
poisoned (R197). Fields that an opcode does not use are zero. -/
structure Packet where
  opcode : Nat := 0
  cls : Nat := 2
  vc : Bool := false
  mcast : Nat := 0
  pf : Bool := false
  terr : Bool := false
  dstEp : Nat := 0
  srcEp : Nat := 0
  nsect : Nat := 0
  dstNode : Nat := 0
  srcNode : Nat := 0
  jid : Nat := 0
  offset : Nat := 0
  window : Nat := 0
  status : Nat := 0
  tally : Nat := 0
  credit : Nat := 0
  seq : Nat := 0
  mask : Nat := 0
  /-- bits [239:238], which a sender writes zero -/
  rsvd : Nat := 0
  data : List Byte := []
  poison : List Nat := []
  /-- of a write-back's sector, the bytes that no core has written, one bit each: the write leaves them (the model's own, log
  entry 56) -/
  keep : Nat := 0
  deriving DecidableEq, Repr

/-- Opcodes of R189 and R242. -/
def opRD : Nat := 0x01
def opWR : Nat := 0x02
def opATOM : Nat := 0x03
def opSNRD : Nat := 0x08
def opSNWR : Nat := 0x09
def opCREDIT : Nat := 0x10
def opARRIVE : Nat := 0x11
def opNODE_ARRIVE : Nat := 0x12
def opNODE_RELEASE : Nat := 0x13
def opTIME_REQ : Nat := 0x14
def opTIME_RSP : Nat := 0x15
def opRDATA : Nat := 0x20
def opACK : Nat := 0x21
def opERR : Nat := 0x22
def opDECLINE : Nat := 0x23

/-- Classes of R187. -/
def clsSYNC : Nat := 0
def clsRSP : Nat := 1
def clsREQ : Nat := 2
def clsSNAP : Nat := 3

/-- ERR codes of R190, R212, R233 and R269. -/
def errUNMAPPED : Nat := 0x01
def errJOB_DENIED : Nat := 0x02
def errATOM_DENIED : Nat := 0x03
def errPROG_LOCKED : Nat := 0x04
def errPENNED : Nat := 0x05
def errBAD_PACKET : Nat := 0x06
def errSYNC_REFUSED : Nat := 0x07
def errMEM_UE : Nat := 0x08
def errMEM_PENNED : Nat := 0x09
def errREQ_TMO : Nat := 0x10
def errNO_WINDOW : Nat := 0x11
def errJID_MISMATCH : Nat := 0x12
def errWIN_PERM : Nat := 0x13
def errWIN_BOUND : Nat := 0x14
def errNOT_JOINED : Nat := 0x15
def errDEST_DOWN : Nat := 0x16

/-- A stop of the package fabric: a tile router, a west or east side stop of a row, or memory stop `k` of the memory
port with endpoint `ep` (R172, R174). -/
inductive Stop where
  | tile (x y : Nat)
  | west (y : Nat)
  | east (y : Nat)
  | mem (ep k : Nat)
  deriving DecidableEq, Repr

/-- A ring of stops (R172). -/
inductive Ring where
  | row (y : Nat)
  | col (x : Nat)
  deriving DecidableEq, Repr

/-- What a packet that entered the fabric is doing: not yet taken by its source stop's route decoder; in its first or
second phase (R176); in the row or the column of a fold tree (R192); on a line round its ring, with the stops left
(R193). -/
inductive Leg where
  | source
  | first
  | second
  | foldRow
  | foldCol
  | line (left : Nat)
  deriving DecidableEq, Repr

/-- A buffer of the fabric that holds flits (R180, R181): the injection buffer of an endpoint at its stop, the input buffer
at the far end of a link of a ring, or the turn buffer of a stop at its entry to a ring; each for one VC number of R178. -/
inductive Buf where
  | inject (ep : Nat) (at_ : Stop) (vc : Nat)
  | link (r : Ring) (from_ to_ : Stop) (vc : Nat)
  | turn (at_ : Stop) (r : Ring) (vc : Nat)
  deriving DecidableEq, Repr

/-- An output of a stop (R183): a link of a ring, the entry to a ring's turn buffer, or the way into its endpoints. -/
inductive Output where
  | link (r : Ring) (from_ to_ : Stop)
  | turn (at_ : Stop) (r : Ring)
  | eject (at_ : Stop)
  deriving DecidableEq, Repr

/-- A packet on its way: the stop it is at, its source and destination stops, its leg, the fabric cycles its head has
taken so far (R186), whether its address was a Holtim global address (R263), and the Holtim port, with the port's link
count, through which a request entered the node, so that its response leaves there (R261); the
buffers its flits lie in, the head's first, with the flits in each (R180), and its place among the packets whose head is in
the same buffer; the port a request to another node was steered to, with that port's link count (R256, R262); and the
receive buffers of a port it still holds: port, link VC and flits (R254). -/
structure Flight where
  pkt : Packet
  src : Stop
  dst : Stop
  stop : Stop
  leg : Leg := .source
  cycles : Nat := 0
  glob : Bool := false
  via : Option (Nat × Nat) := none
  held : List (Buf × Nat) := []
  since : Nat := 0
  steer : Option (Nat × Nat) := none
  rx : Option (Nat × Nat × Nat) := none
  deriving DecidableEq, Repr

/-- A packet that has reached an endpoint and waits to be taken: the endpoint, the memory stop or 0, the
Holtim port it entered the node through, with that port's link count, and whether it had entered the port of a tile
before the tile's router was penned (R195). -/
structure Arrival where
  ep : Nat
  k : Nat := 0
  via : Option (Nat × Nat) := none
  inPort : Bool := false
  pkt : Packet
  deriving DecidableEq, Repr

/-- A flit in a slot of a link frame (R199, R251): HEAD, TAIL, VC number, POISON and its 128 bytes. -/
structure Slot where
  head : Bool
  tail : Bool
  vc : Nat
  poison : Bool
  bytes : List Byte
  deriving DecidableEq, Repr

/-- A frame that an end of a link sends (R199, R251): sequence number, number acknowledged, NAK, credits returned for each
VC, link control message (Holtim only), and its flits. -/
structure Frame where
  seq : Nat
  ack : Nat
  nak : Bool
  credits : List Nat
  msg : List Byte := []
  slots : List Slot
  deriving DecidableEq, Repr

/-- Which register of a core a load writes, and how the loaded value fills it. -/
structure LoadDest where
  fp : Bool
  reg : Nat
  width : Nat
  signed : Bool
  deriving DecidableEq, Repr

/-- Why a request was sent, so that its response finds its way (R271). -/
inductive Purpose where
  /-- a piece of a tile LOAD: dispatch number, SRAM offset of its first sector, sectors -/
  | tileLoad (t disp dst n : Nat)
  /-- a prefetch of a piece: dispatch number, SRAM offset, sectors -/
  | tilePre (t disp dst n : Nat)
  /-- a write piece of a tile STORE -/
  | tileStore (t disp : Nat)
  /-- a posted atomic of a tile: dispatch number, word index, address and whether it is a global one -/
  | tileAtom (t disp at_ addr : Nat) (glb : Bool)
  /-- the credit packet of a tile STORE -/
  | tileCredit (t disp : Nat)
  /-- a hurdle arrival of a tile: dispatch number, word index -/
  | tileArrive (t h disp at_ : Nat)
  /-- a scalar load of a core: address, destination register -/
  | coreLoad (c addr : Nat) (d : LoadDest)
  /-- element `i` of a vector load of a core: its address, destination register and SEW -/
  | coreVLoad (c addr vd sew i : Nat)
  /-- an instruction fetch or a read of a core whose value goes nowhere -/
  | coreRead (c addr : Nat)
  /-- a posted write of a core to an address -/
  | coreWrite (c addr : Nat)
  /-- a write-back of a sector of a line that a core wrote last -/
  | coreClean (c addr : Nat)
  /-- a posted atomic of a core -/
  | coreAtom (c addr : Nat)
  /-- a tally credit of a core -/
  | coreCredit (c : Nat)
  /-- a hurdle arrival of a core -/
  | coreArrive (c h : Nat)
  /-- a write of an engine's solve output: the solve's number -/
  | marWrite (e num : Nat)
  /-- a read of an engine's COPY: offset of the piece's data in the copy -/
  | marCopyRead (e off : Nat)
  /-- a write of an engine's COPY -/
  | marCopyWrite (e : Nat)
  /-- a tally credit of an engine: the status bit that a failure sets, the word index of its command, its system -/
  | marCredit (e bit cmd sys : Nat)
  /-- a hurdle arrival of an engine -/
  | marArrive (e h : Nat)
  /-- the hub's node arrival of a hurdle to its parent -/
  | nodeArrive (h : Nat)
  /-- the hub's node release of a hurdle to a child -/
  | nodeRelease (h child : Nat)
  /-- the hub's time request -/
  | timeReq
  /-- a write piece of the checkpoint engine: destination, page -/
  | ckpShear (dest page : Nat)
  /-- a piece of a restore read: slot offset -/
  | ckpRestore (off : Nat)
  /-- a launch relay write: child index, chunk -/
  | ckpRelay (child chunk : Nat)
  /-- a piece of a Crook READ or DUMP_READ: execution, offset in the message -/
  | hecRead (x off : Nat)
  /-- a piece of a Crook WRITE -/
  | hecWrite (x off : Nat)
  /-- a credit of a Crook WRITE or CREDIT -/
  | hecCredit (x : Nat)
  /-- a launch write of a Crook LAUNCH: execution, offset, LPA -/
  | hecLaunch (x off lpa : Nat)
  /-- a credit sent for a penned unit (R415) -/
  | undertaken
  deriving DecidableEq, Repr

/-- A request that awaits its response: requesting endpoint, sequence number, purpose, and the request. -/
structure Request where
  ep : Nat
  seq : Nat
  purpose : Purpose
  pkt : Packet
  /-- responses still expected: one, or the copies of a multicast (R194) -/
  left : Nat := 1
  deriving DecidableEq, Repr

end Sys2Proof.Machine
end

