-- ==== Sys2Proof/Machine/TileTypes.lean ====
section
/-! DEFINITION. The state of a compute tile (chapters 4 to 6): sequencer, generators, queues, credits, waits, instructions
in flight, accumulator banks, vector registers and sector tags. -/

namespace Sys2Proof.Machine

/-- What a unit of a tile is doing as a whole (R68, R71; PENNED is the router's bypass bit, R195). -/
inductive RunState where
  | idle | running | halted
  deriving DecidableEq, Repr, Inhabited

/-- An open counted loop (R111): its LOOP word, the word its body ends on, iterations left after this one, and the
current iteration index. -/
structure Loop where
  at_ : Nat
  last : Nat
  left : Nat
  iter : Nat
  deriving DecidableEq, Repr

/-- An open call (R112): the CALL's word index, and the loops open when it was taken. -/
structure Call where
  at_ : Nat
  depth : Nat
  deriving DecidableEq, Repr

/-- An address generator (R74): base, whether it is a global address, and the strides of the four levels as 40-bit
values. -/
structure Gen where
  base : Nat := 0
  glb : Bool := false
  s0 : Nat := 0
  s1 : Nat := 0
  s2 : Nat := 0
  s3 : Nat := 0
  deriving DecidableEq, Repr

/-- An address computed at dispatch (R108): the value and whether it is a global address. -/
structure Addr where
  val : Nat
  glb : Bool
  deriving DecidableEq, Repr

/-- A dispatched instruction (R72): dispatch number, word index, its words, and the addresses of the generators it
names, in the order its layout names them. -/
structure Entry where
  disp : Nat
  at_ : Nat
  word : Nat
  ext : Nat
  addrs : List Addr
  deriving DecidableEq, Repr

/-- The five queues (R72). -/
structure Queues where
  load : List Entry := []
  matrix : List Entry := []
  vector : List Entry := []
  store : List Entry := []
  sync : List Entry := []
  deriving DecidableEq, Repr, Inhabited

/-- An issued instruction that has not completed (R77): its unit, entry, pieces still to come, and the tick before which
it cannot complete. -/
structure InFlight where
  unit : TileUnit
  entry : Entry
  left : Nat
  due : Nat
  deriving DecidableEq, Repr

/-- A STORE whose acknowledgements are awaited (R100): dispatch number, word index, writes left, whether one failed, and the tally
word's credit: node (none: this node), tally and amount. -/
structure StoreWait where
  disp : Nat
  at_ : Nat
  left : Nat
  err : Bool
  node : Option Nat
  tally : Nat
  credit : Nat
  /-- the credit packet has been sent and is awaited -/
  sent : Bool
  /-- far-side range, for condition 4 of R81 -/
  addr : Addr
  bytes : Nat
  deriving DecidableEq, Repr

/-- A staged piece of a pre-read LOAD (R82): dispatch number, SRAM offset, sectors, and the data once it is there;
`declined` once the prefetch was declined (R83). -/
structure Staged where
  disp : Nat
  dst : Nat
  n : Nat
  data : Option (List Byte)
  declined : Bool
  deriving DecidableEq, Repr

/-- What the sync unit waits for (R115, R117). -/
inductive SyncWait where
  | tally (index dist : Nat) (e : Entry)
  | hurdle (h : Nat) (e : Entry)
  deriving DecidableEq, Repr

/-- The kind of an accumulator bank (R127). -/
inductive BankKind where
  | short | b32 | f64
  deriving DecidableEq, Repr, Inhabited

/-- One accumulator of a SHORT bank (R46, R48): the 96-bit integer and the three state bits. -/
structure Acc where
  val : Int := 0
  nan : Bool := false
  pinf : Bool := false
  ninf : Bool := false
  deriving DecidableEq, Repr

/-- The scale kind of a bank (R123). -/
inductive ScaleKind where
  | none | e8m0 | fp32
  deriving DecidableEq, Repr, Inhabited

/-- An open chain of MMULs (R125): the operand formats, PS, M and N, and the operands of the dot product so far, one list
for each row of A and each column of B. -/
structure Chain where
  fmtA : Nat
  fmtB : Nat
  ps : Nat
  m : Nat
  n : Nat
  rows : List (List Nat)
  cols : List (List Nat)
  deriving DecidableEq, Repr

/-- A compute on a bank that is not yet final (R95, R158): its dispatch number, the tick it becomes final, and whether it
is a VACC in MODE 3. -/
structure BankFinal where
  disp : Nat
  due : Nat
  vacc : Bool
  deriving DecidableEq, Repr

/-- An accumulator bank (R127): kind, fraction, scale kind and scales; the accumulators of a SHORT bank, keyed by
128 × row + column, where unlisted ones hold `dflt`; the tree results of the other kinds, their M and N, the bias of R54
where the seed was BIAS, and whether their total length was 0; an open chain; and the computes on it that are not yet
final (R95). -/
structure Bank where
  kind : BankKind := .short
  frac : Nat := 0
  scale : ScaleKind := .none
  scalesA : List Nat := []
  scalesB : List Nat := []
  dflt : Acc := {}
  acc : Table Acc := []
  res : Table Nat := []
  m : Nat := 0
  n : Nat := 0
  bias : Option (List Nat) := .none
  empty : Bool := false
  chain : Option Chain := .none
  finals : List BankFinal := []
  deriving DecidableEq, Repr, Inhabited

/-- A compute tile. -/
structure Tile where
  state : RunState := .idle
  fetch : Nat := 0
  ended : Bool := false
  disp : Nat := 0
  loops : List Loop := []
  calls : List Call := []
  gens : Table Gen := []
  queues : Queues := {}
  /-- local credit counters, keyed by 5 × from + to (R76) -/
  credits : Table Nat := []
  /-- wait marks of the 192 tallies (R115) -/
  marks : Table Nat := []
  /-- pending bits of the hurdles (R117) -/
  pendingH : Table Bool := []
  inflight : List InFlight := []
  wait : Option SyncWait := none
  stores : List StoreWait := []
  /-- dispatch numbers of atomics and arrivals awaiting an answer -/
  atoms : List Nat := []
  staged : List Staged := []
  bank0 : Bank := {}
  bank1 : Bank := {}
  /-- the tick in which the MXU can start feeding (R94) -/
  mxuFree : Nat := 0
  /-- the tick in which the VXU can issue again (R166) -/
  vxuFree : Nat := 0
  /-- VXU registers, 4,096 bits each (R140) -/
  vregs : Table Nat := []
  /-- sector tags: the writer identity of sectors whose written bit is set (R34) -/
  tags : Table (Option Nat) := []
  /-- one more than the tick of the last exception, TIL_EXC_STATUS before that tick, and the exceptions of that tick: bit,
  TIL_EXC_INFO, TIL_EXC_ADDR and whole dispatch number of each (R137, R138) -/
  excAt : Nat := 0
  excOld : Nat := 0
  excSeen : List (Nat × Nat × Nat × Nat) := []
  /-- copies with a conflicting write whose credit is still to come (R35): the writer, and the number of the copy -/
  conflicts : List (Nat × Nat) := []
  /-- hurdles whose release of this tick the tile has followed ahead of the release itself (R92, R117) -/
  early : List Nat := []
  /-- the tick in which the tile starts RUNNING after a launch release (R68) -/
  startAt : Option Nat := none
  /-- the tile is held by the checkpoint engine (R336) -/
  held : Bool := false
  deriving DecidableEq, Repr, Inhabited

end Sys2Proof.Machine
end

