-- ==== Sys2Proof/Machine/AgentTypes.lean ====
section
/-! DEFINITION. The state of the processor cores and their caches (chapter 12), of the Marionette engines (chapter 13), of
the checkpoint engine (chapter 14), of the Crook engine (chapter 15), and of reset, boot, I3C, TAP, AKS, AKM and power
(chapters 16 to 19). -/

namespace Sys2Proof.Machine

/-- Whether a core is held, runs, or waits in an instruction (R295, R291). -/
inductive CoreWait where
  /-- TWAIT: index, distance -/
  | tally (i d : Nat)
  /-- HWAIT, or HARRW after its arrival -/
  | hurdle (h : Nat)
  /-- HARR or HARRW whose arrival awaits the fence or the hub's answer -/
  | arrive (h : Nat) (thenWait sent : Bool)
  /-- TCRED awaiting its fence: node, tally, credit -/
  | credit (node : Option Nat) (tally amount : Nat)
  /-- a load awaiting its responses -/
  | load
  /-- CLEAN awaiting the acknowledgement of its write-backs -/
  | clean
  deriving DecidableEq, Repr

/-- One IMSIC interrupt file of 255 identities (R296): pending and enable bits, eidelivery and eithreshold. -/
structure Imsic where
  pend : Nat := 0
  enab : Nat := 0
  delivery : Nat := 0
  thresh : Nat := 0
  deriving DecidableEq, Repr, Inhabited

/-- The control and status registers of a core (RISC-V M and S modes, AIA, and mlerr of R294). -/
structure Csrs where
  mstatus : Nat := 0xA00000000
  mtvec : Nat := 0
  medeleg : Nat := 0
  mideleg : Nat := 0
  mie : Nat := 0
  /-- the software-writable bits of mip: SSIP, STIP, SEIP -/
  mip : Nat := 0
  mscratch : Nat := 0
  mepc : Nat := 0
  mcause : Nat := 0
  mtval : Nat := 0
  mcounteren : Nat := 0
  mcountinhibit : Nat := 0
  menvcfg : Nat := 0
  stvec : Nat := 0
  sscratch : Nat := 0
  sepc : Nat := 0
  scause : Nat := 0
  stval : Nat := 0
  scounteren : Nat := 0
  senvcfg : Nat := 0
  satp : Nat := 0
  pmpcfg : Table Nat := []
  pmpaddr : Table Nat := []
  mcycle : Nat := 0
  minstret : Nat := 0
  fcsr : Nat := 0
  mlerr : Nat := 0
  miselect : Nat := 0
  siselect : Nat := 0
  deriving DecidableEq, Repr, Inhabited

/-- A processor core (R280, R295, R298 to R301). -/
structure Core where
  held : Bool := true
  /-- held by the checkpoint engine, a restore or a freeze (R336, R346) -/
  paused : Bool := false
  /-- started at the launch release of this job (R335) -/
  started : Bool := false
  pc : Word := 0
  /-- x1 to x31; x0 reads zero -/
  x : Table Word := []
  /-- v0 to v31, 1,024 bits each; f0 to f31 are their low 64 bits (R298) -/
  v : Table Nat := []
  /-- p1 to p7, 1,024 bits each; p0 reads all ones (R299) -/
  p : Table Nat := []
  vl : Nat := 0
  sew : Nat := 0
  group : Nat := 0
  lvstart : Nat := 0
  /-- 0 user, 1 supervisor, 3 machine -/
  priv : Nat := 3
  csr : Csrs := {}
  marks : Table Nat := []
  pendingH : Table Bool := []
  wait : Option CoreWait := none
  /-- the pending POSTED_ERROR: its mtval (R294) -/
  posted : Option Nat := none
  /-- the lowest erroneous element of a vector load in hand: element, address, ERR code (R292, R293) -/
  loadErr : Option (Nat × Nat × Nat) := none
  /-- fetched 64 B lines, kept until FENCE.I (R287) -/
  icache : Table (List Byte) := []
  imsicM : Imsic := {}
  imsicS : Imsic := {}
  /-- WFI entered -/
  wfi : Bool := false
  deriving DecidableEq, Repr, Inhabited

/-- An instruction of `n` bytes completes: the pc moves past it and minstret counts it, unless inhibited. -/
def Core.retire (x : Core) (n : Nat) : Core :=
  { x with
    pc := x.pc + BitVec.ofNat 64 n,
    csr := { x.csr with minstret := if bitOf x.csr.mcountinhibit 2 then x.csr.minstret else (x.csr.minstret + 1) % 2 ^ 64 } }

/-- A data-cache line of 64 B (R284): SHARED or PRIVATE, its bytes, those of them that cores have written since it last went
back to memory, one bit each, which core wrote it last, the cores whose L1 or L2 hold it, whether the L3 holds it, and whether a
double-bit error lies in it that nothing has read yet (R410). -/
structure Line where
  shared : Bool
  data : List Byte
  mask : Nat
  writer : Nat
  holders : List Nat
  l3 : Bool
  bad : Bool := false
  deriving DecidableEq, Repr

/-- Whether a line is dirty. -/
def Line.dirty (l : Line) : Bool := decide (l.mask ≠ 0)

/-- The written bytes of sector 0 or 1 of a line, one bit each. -/
def Line.wrote (l : Line) (i : Nat) : Nat := l.mask / 2 ^ (32 * i) % 2 ^ 32

/-- One APLIC domain (R296): source configuration, pending, enable, target registers, domaincfg and the last genmsi. -/
structure Aplic where
  domaincfg : Nat := 0
  sourcecfg : Table Nat := []
  pend : Nat := 0
  enab : Nat := 0
  target : Table Nat := []
  mmsiaddr : Nat := 0
  mmsiaddrh : Nat := 0
  smsiaddr : Nat := 0
  smsiaddrh : Nat := 0
  genmsi : Nat := 0
  deriving DecidableEq, Repr

/-- A solve in progress (R323): system, first tick, length, deadline, phase boundaries (offset of each phase's first tick,
its code, ticks of its unit steps), the LATE record once taken, its flags and location word, the writes FINISH makes,
and the RESULT credit. -/
structure SolveRun where
  sys : Nat
  start : Nat
  len : Nat
  deadline : Nat
  desc : List Nat
  phases : List (Nat × Nat)
  bad : Bool
  late : Option (Nat × Nat × Nat)
  flags : Nat
  loc : Nat
  /-- bytes written into the engine's own memories at FINISH -/
  stateWrites : List (Nat × List Byte)
  /-- the output block: address, global or not, bytes -/
  output : Option (Nat × Bool × List Byte)
  tally : Nat
  /-- address of the status word -/
  statusAt : Nat
  /-- ticks that its first FINISH tick waited for room in the output buffer (R324) -/
  stall : Nat := 0
  deriving DecidableEq, Repr

/-- A RESULT credit that waits for the acknowledgement of a solve's output (R324): the solve's number, word index of its SOLVE, system, tally word,
writes awaited, bytes in the output buffer, and whether a write failed. -/
structure ResultWait where
  num : Nat
  cmd : Nat
  sys : Nat
  tally : Nat
  left : Nat
  bytes : Nat
  err : Bool
  deriving DecidableEq, Repr

/-- A COPY in progress (R329): sectors, source, destination and their flags, tally word, pieces read and written that are
still awaited, and whether one failed. -/
structure CopyRun where
  n : Nat
  src : Nat
  sglb : Bool
  dst : Nat
  dglb : Bool
  tally : Nat
  reads : Nat
  writes : Nat
  err : Bool
  sent : Bool
  deriving DecidableEq, Repr

/-- What an engine waits for (R327, R328). -/
inductive MarWait where
  | tally (i d : Nat)
  | hurdle (h : Nat)
  | arrive (h : Nat) (thenWait : Bool)
  deriving DecidableEq, Repr

/-- Engine states (R326, R331). -/
inductive MarState where
  | idle | running | stopped
  deriving DecidableEq, Repr, Inhabited

/-- A Marionette engine. -/
structure Engine where
  state : MarState := .idle
  /-- started at the launch release of this job (R335) -/
  started : Bool := false
  /-- hurdles whose release of this tick the engine has followed ahead of the release itself (R117, R327) -/
  early : List Nat := []
  cmd : Nat := 0
  sys : Nat := 0
  marks : Table Nat := []
  pendingH : Table Bool := []
  /-- the first tick in which the current command may begin (R330) -/
  next : Nat := 0
  wait : Option MarWait := none
  solve : Option SolveRun := none
  results : List ResultWait := []
  copy : Option CopyRun := none
  paused : Bool := false
  deriving DecidableEq, Repr, Inhabited

/-- A tally (R224). -/
structure Tally where
  count : Nat := 0
  err : Bool := false
  deriving DecidableEq, Repr, Inhabited

/-- A hurdle's round (R232 to R238): round number, agents arrived, children arrived, whether the node arrival was sent
and accepted, tick the round began, T_local, T_release with the local release tick, whether the arrival is to be resent
and when, the SEQ of the node arrival sent, and the last release value. -/
structure Hurdle where
  round : Nat := 0
  arrived : List Nat := []
  children : List Nat := []
  sent : Bool := false
  began : Nat := 0
  tlocal : Option Nat := none
  trel : Option Nat := none
  relAt : Nat := 0
  resend : Option Nat := none
  arriveSeq : Option Nat := none
  late : Bool := false
  last : Nat := 0
  deriving DecidableEq, Repr

/-- One end of a die-to-die link (R198 to R200): the frame number it expects and the next one it sends, the last of its own
acknowledged, whether a NAK is owed, how often the frame that failed last was replayed and its number, the last 64 frames sent,
what has been sent, the flits received of packets not yet whole, the credits it holds for each VC number (32 where none is
listed, R180), and the buffers freed that it has not returned yet. -/
structure D2d where
  expect : Nat := 0
  sent : Nat := 0
  acked : Nat := 0
  nak : Bool := false
  retries : Nat := 0
  failing : Option Nat := none
  store : List Frame := []
  wire : List Frame := []
  rx : Table (List (List Byte × Bool)) := []
  credits : List Nat := []
  freed : List Nat := []
  deriving DecidableEq, Repr

/-- A request outstanding at a Holtim port (R270 to R272): tag, the endpoint and SEQ it came with, destination node, the
tick its head was sent once it was, the timeout in ticks from then (0: none), and the request. -/
structure PortReq where
  tag : Nat
  ep : Nat
  seq : Nat
  node : Nat
  sentAt : Option Nat := none
  limit : Nat
  pkt : Packet
  deriving DecidableEq, Repr

/-- A Holtim port (R249 to R272). -/
structure Port where
  trained : Bool := false
  /-- an ASSIGN has been accepted since the link last trained -/
  assigned : Bool := false
  /-- how often the link has gone down (R256) -/
  downs : Nat := 0
  hello : Bool := true
  expect : Nat := 0
  sent : Nat := 0
  nak : Bool := false
  /-- successive replays of the frame that failed last, and its number (R255) -/
  retries : Nat := 0
  failing : Option Nat := none
  /-- flit credits granted by the peer, per link VC -/
  credits : List Nat := []
  /-- of the 1,536 receive buffers granted for each link VC, those that hold flits (R254) -/
  rxUsed : List Nat := []
  /-- receive buffers freed and not yet returned to the peer, per link VC -/
  freed : List Nat := []
  /-- flits of a packet received so far, with their poison marks -/
  partialRx : List (List Byte × Bool) := []
  /-- when the frame that held its head flit came, in eighths of a tick (R279) -/
  headAt : Nat := 0
  /-- packets that have not begun on the link, oldest first -/
  out : List Packet := []
  /-- flits of the packet in hand that have not left yet (R253) -/
  sending : List Slot := []
  /-- for each class, one more than the key of the source and link VC served last; 0 before any (R253) -/
  turn : Table Nat := []
  /-- for each link VC, the tick since which a packet has waited without the credits it needs (R276) -/
  stall : Table (Option Nat) := []
  /-- packets sent and not yet acknowledged by the link layer: frame number and packet -/
  tx : List (Nat × Packet) := []
  /-- the last 512 frames, those still to be sent again, and what has been sent since the link trained (R255) -/
  store : List Frame := []
  resend : List Frame := []
  wire : List Frame := []
  tag : Nat := 0
  reqs : List PortReq := []
  /-- tags of prefetches that have timed out: a late answer to one leaves no record (R84, R85) -/
  lateReads : List Nat := []
  deriving DecidableEq, Repr

/-- A held write at a memory port (R220). -/
structure HeldWrite where
  port : Nat
  arr : Arrival
  deriving DecidableEq, Repr

/-- A time exchange in progress and its history (R245). -/
structure TimeState where
  /-- t1 of the TIME_REQ that awaits its answer -/
  t1 : Option Nat := none
  /-- next exchange is due at this tick count -/
  nextAt : Nat := 0
  /-- exchanges in a row within 1 tick -/
  good : Nat := 0
  /-- exchanges in a row without an answer -/
  missed : Nat := 0
  /-- ticks still to be added (positive) or dropped (negative) by slewing -/
  slew : Int := 0
  /-- tick count of the last slewed tick -/
  slewAt : Nat := 0
  /-- the rate correction: ticks to add (positive) or drop (negative) in each exchange interval (R245) -/
  rate : Int := 0
  /-- a tree commit was accepted since reset: the node is joined to a job's tree unless it is the bellwether (R244) -/
  joined : Bool := false
  /-- tick count of the last accepted tsync edge -/
  edgeAt : Option Nat := none
  /-- tick count of the last rising edge of tsync, accepted or not (R438) -/
  rose : Option Nat := none
  /-- a tree commit was accepted and the joining set of R243 is still to come -/
  joining : Bool := false
  deriving DecidableEq, Repr

/-- One destination of a fleece (R341 to R345): its kind, node, window and slot size, whether its writes
failed, the slot in use, and its stage: 0 before the old
seal is zeroed, 1 zeroes sent, 2 pages, 3 page list sent, 4 signature awaited, 5 seal sent, 6 sealed. -/
structure DestRun where
  d : Nat
  kind : Nat
  node : Nat
  window : Nat
  size : Nat
  failed : Bool := false
  slot : Nat := 0
  stage : Nat := 0
  deriving DecidableEq, Repr

/-- The fleece of a cut (R338 to R345): the cut step, epoch, scope pages in ascending order, state pages, scope pages copied
out with their reserve page, pages on their way straight to the destinations because the reserve was full, with their
contents, requested pages that go to the destinations ahead of the others for the same reason, reserve pages in use, next page to shear, page CRCs, the writes awaited by page and destination
(the zeroes, the page list and the seal count as the pages after the last), and the destinations. -/
structure Fleece where
  step : Nat
  epoch : Nat
  jid : Nat
  scopePages : List Nat
  statePages : Nat
  copied : Table (Option Nat) := []
  direct : Table (List Byte) := []
  urgent : List Nat := []
  reserveUsed : Nat
  nextPage : Nat := 0
  crcs : Table (Option Nat) := []
  awaited : List (Nat × Nat × Nat) := []
  dests : List DestRun
  deriving DecidableEq, Repr

/-- Where a page of a restore goes: to an LPA, to a tile's banks and registers (old and new tile, page 0 to 8), a core, an
engine's registers, the SYN tallies, or nowhere but the check. -/
inductive RestoreTo where
  | memory (lpa : Nat)
  | tile (old new page : Nat)
  | core (c : Nat)
  | engine (e : Nat)
  | syn
  deriving DecidableEq, Repr

/-- A restore in progress (R346, R347): the list's bytes, the seals, page lists and directory pages read so far, page copies
made, the read in progress (source, slot offset, bytes), its pieces, those still awaited, bank pages of the tile in hand,
and the failure met. -/
structure RestoreRun where
  bytes : List Byte
  seals : List (List Byte) := []
  lists : List (List Byte) := []
  dirs : List (List Byte) := []
  checked : Bool := false
  copies : List (Nat × Nat × Nat × RestoreTo) := []
  reading : Option (Nat × Nat × Nat) := none
  got : List (Nat × List Byte) := []
  left : Nat := 0
  held : List Byte := []
  fail : Option (Nat × Nat) := none
  finished : Bool := false
  deriving DecidableEq, Repr

/-- A launch range still to be sent (R355): child index, first chunk, chunks. -/
structure SendRange where
  child : Nat
  first : Nat
  count : Nat
  deriving DecidableEq, Repr

/-- The checkpoint engine (chapter 14). -/
structure Ckp where
  /-- quiesce in progress: the cut step (R336) -/
  quiesce : Option Nat := none
  /-- agents stay held after the eager copy (R352) -/
  holdAfter : Bool := false
  fleece : Option Fleece := none
  restore : Option RestoreRun := none
  /-- the last restore failed with code 8 or 9 (R348) -/
  blocked : Bool := false
  /-- the last restore succeeded (R354) -/
  restored : Bool := false
  /-- agents that resume from restored state at the next launch (R350), by agent index -/
  resume : List Nat := []
  /-- pieces written of each chunk, a 64-bit mask (R353) -/
  pieces : Table Nat := []
  /-- tick the last chunk became held, or of the commit, or of the last stall (R355) -/
  progressAt : Nat := 0
  /-- launch configuration committed and the image not complete -/
  launching : Bool := false
  sends : List SendRange := []
  /-- page copy requests of the ports (R220) -/
  copyRequests : List Nat := []
  /-- the first tick in which the share limit lets the next page be sheared (R342) -/
  shearAt : Nat := 0
  /-- chunks that are to go to children: child and chunk, in order (R353, R355) -/
  relays : List (Nat × Nat) := []
  /-- timebase when READY became 1 or a restore succeeded (R354), and when the last fleece ended (R334) -/
  readyAt : Nat := 0
  endedAt : Nat := 0
  deriving DecidableEq, Repr

/-- A Crook message from the host (chapter 15). A gated one is `opened` by the step release that sets SYN_STEP to its STEP (R369). -/
structure Message where
  op : Nat
  queue : Nat
  fence : Bool
  tag : Nat
  addr : Nat
  arg : Nat
  step : Nat
  data : List Byte
  opened : Bool := false
  deriving DecidableEq, Repr

/-- A message in execution: the session's number and slot, pieces still awaited, the lowest failing piece's offset and code,
data read so far by offset, and whether its credit is awaited. -/
structure Exec where
  num : Nat
  slot : Nat
  msg : Message
  left : Nat
  fail : Option (Nat × Nat) := none
  got : List (Nat × List Byte) := []
  crediting : Bool := false
  deriving DecidableEq, Repr

/-- What a payload carries to the host besides its message: an entry of the event ring (R373), or the RESULT of a RESET (R371). -/
inductive Rider where
  | event (num : Nat)
  | reset
  deriving DecidableEq, Repr

/-- A datagram sent and not acknowledged (R363): SEQ, the datagram, tick of the last sending, times sent. -/
structure Unacked where
  seq : Nat
  datagram : List Byte
  sentAt : Nat
  times : Nat
  rider : Option Rider
  deriving DecidableEq, Repr

/-- A Crook session (R360 to R369). `early` holds payloads received ahead of ACKN, `outbox` payloads that wait for room among
the 256 unacknowledged datagrams, `secret` is S_h then S_n, and `closing` the fragments of a CLOSE under its handshake ID. -/
structure Session where
  num : Nat
  link : Nat
  hostKey : List Byte
  nodeKey : List Byte
  secret : List Byte
  ackn : Nat := 0
  early : List (Nat × List Byte) := []
  seq : Nat := 0
  unacked : List Unacked := []
  outbox : List (List Byte × Option Rider) := []
  queues : Table (List Message) := []
  heardAt : Nat := 0
  closing : Nat × List (Nat × List Byte) := (0, [])
  deriving DecidableEq, Repr

/-- A handshake in progress (R401): link, host's handshake ID, start tick, INIT and FINISH fragments received, the INIT
body, the session number given, the host's key, S_n, the REPLY body up to its signature, and the whole of it once signed. -/
structure Handshake where
  link : Nat
  hid : Nat
  startAt : Nat
  initFrags : List (Nat × List Byte) := []
  finFrags : List (Nat × List Byte) := []
  init : List Byte := []
  num : Nat := 0
  hostKey : List Byte := []
  sn : List Byte := []
  draft : List Byte := []
  reply : Option (List Byte) := none
  deriving DecidableEq, Repr

/-- An event of the ring (R373). -/
structure Event where
  num : Nat
  time : Nat
  code : Nat
  ep : Nat
  data : List Byte
  sent : Bool := false
  deriving DecidableEq, Repr

/-- What the image sets for a link and the node lays around a datagram (R356, R358): the VLAN tag (none: no bytes), the link's
addresses, its gateways and the UDP port. -/
structure LinkSettings where
  tag : List Byte
  addrs : List (List Byte)
  gateways : List (List Byte)
  port : Nat
  deriving DecidableEq, Repr

/-- What leaves on an Ethernet link: a Crook datagram with the settings of its link, or a whole frame. -/
inductive EthOut where
  | datagram (link : Nat) (set : LinkSettings) (b : List Byte)
  | frame (link : Nat) (b : List Byte)
  deriving DecidableEq, Repr

/-- The Crook engine (chapter 15). `out` holds what has left on the links. -/
structure Hec where
  sessions : Table (Option Session) := []
  handshakes : List Handshake := []
  lastNum : Nat := 0
  execs : Table (Option Exec) := []
  nextExec : Nat := 0
  ring : List Event := []
  nextEvent : Nat := 0
  doorbells : List Word := []
  out : List EthOut := []
  /-- datagrams that each link has received and the engine has not taken yet, oldest first (R359) -/
  rx : Table (List (List Byte)) := []
  /-- a RESET has begun whose RESULT is not sent yet (R371) -/
  resetAsked : Bool := false
  /-- tick at which a Crook RESET takes effect at the earliest (R371) -/
  resetAt : Option Nat := none
  /-- held by a cut (R368) -/
  held : Bool := false
  /-- SHEAR data not yet acknowledged by the host: destination, first slot byte, bytes, page -/
  shears : List (Nat × Nat × Nat × Nat) := []
  deriving DecidableEq, Repr

/-- A flash operation in progress (R375, R383). -/
inductive FlashOp where
  | program (addr : Nat) (data : List Byte)
  | erase (addr : Nat)
  deriving DecidableEq, Repr

/-- Reset, boot, pins, I3C and TAP (chapters 16 and 19). -/
structure Brc where
  /-- reset hold in progress: sources still asserted (R383) -/
  hold : Option (List Nat) := none
  /-- the tick from which the 100 µs of the hold count: the end of the last source or flash wait (R383) -/
  holdFrom : Nat := 0
  /-- whether DUMP_READ messages covered the dump that stood at the last reset (R430) -/
  dumpCovered : Bool := false
  phaseStart : Nat := 0
  flashOp : Option FlashOp := none
  eraseSuspended : Bool := false
  /-- the Crook message that asked for the flash operation; none for I3C or AKM -/
  flashFor : Option Nat := none
  /-- whether an I3C write of this start asked for the flash operation, and those that wait behind it (R388) -/
  flashI3c : Bool := false
  flashWait : List FlashOp := []
  off : Bool := false
  vstby : Bool := true
  pwrOk : Bool := true
  rstN : Bool := true
  /-- the ticks until which rst_n is low, and vin48 or refclk is out of its range -/
  pinUntil : Nat := 0
  pgUntil : Nat := 0
  /-- the junction sensors that stand at 115 °C or above -/
  hot : List Nat := []
  /-- ticks of operation before the last reset (R425) -/
  operated : Nat := 0
  alertN : Bool := true
  wdogAt : Nat := 0
  /-- the first rejection of this tick, as BRC_COMMIT_REJECT records it (R390) -/
  rejection : Word := 0
  da : Option (BitVec 7) := none
  /-- event enables of ENEC and DISEC: bit 0 interrupts, bit 3 hot-join -/
  i3cEvents : Nat := 0x9
  rstact : Option Byte := none
  hotJoinReq : Bool := false
  ibi : List Nat := []
  /-- answer of the last private read or CCC read -/
  i3cAnswer : List Byte := []
  /-- the current TAP instruction; BYPASS after a TAP reset (R439) -/
  tapInstr : Nat := 0xFF
  tapDrive : Bool := false
  tapFloat : Bool := false
  /-- what the instruction register captured at the last instruction scan (R439) -/
  tapCapture : Nat := 0
  /-- the bypass register -/
  bypass : Bool := false
  /-- the boundary register, a cell for each signal pin: what it captured, and what PRELOAD left for the pins -/
  boundary : List Bool := []
  preload : List Bool := []
  deriving DecidableEq, Repr

/-- Who waits for a signature of the identity key (R396). -/
inductive SignFor where
  | reply (link hid : Nat)
  | seal (dest : Nat)
  | quote
  deriving DecidableEq, Repr

/-- Akenavis security (chapter 17). -/
structure Aks where
  serial : Nat := 0
  jobChange : Option Nat := none
  /-- signatures asked for: tick, endpoint, for whom, message; the first is being made (R396) -/
  signing : List (Nat × Nat × SignFor × List Byte) := []
  peers : Table (Option (List Byte)) := []
  /-- the identity: private key, public key, identity certificate, CA certificate (R394) -/
  identity : Option (List Byte × List Byte × List Byte × List Byte) := none
  /-- K_log (R394); empty before P1 and after an erasure -/
  kLog : List Byte := []
  /-- the scope that an accepted debug token enables once its job change ends (R407) -/
  debugScope : Option Nat := none
  quote : Option (List Byte) := none
  deriving DecidableEq, Repr

/-- Akenavis management (chapter 18): last tick of each event code and source (R411), undertaken credits of penned units
(R415), uncorrectable rows and corrected counts of each pseudo-channel (R412), the last slacks of each fold's tiles, its
measurements in a row above 80 ps, the tiles ever margin-penned and the tick of its last daily record, the ageing log's next
number, ticks of its last records and records held back (R425), freeze, dump and hold, DUMP_READ coverage, the last telemetry
and power comparison, and input energy in 0.01 mJ. -/
structure Akm where
  lastEvent : List ((Nat × Nat) × Nat) := []
  undertaken : List (Nat × Nat × Option Nat × Nat × Nat) := []
  ueRows : Table (List Nat) := []
  ceTimes : Table (List Nat) := []
  highRuns : Table Nat := []
  slacks : Table (List Nat) := []
  marginPens : List Nat := []
  logSeq : Nat := 0
  logHour : List Nat := []
  logHeld : Table (List Byte) := []
  freezeAt : Option Nat := none
  /-- the node timebase at the freeze (R428) -/
  freezeTime : Nat := 0
  dumpAt : Option Nat := none
  holdUntil : Option Nat := none
  dumpRead : Table Bool := []
  calDone : List (Nat × Nat) := []
  dayAt : Table Nat := []
  telemAt : Nat := 0
  cmpAt : Nat := 0
  /-- of the last comparison: the skip level and CAPPED before it, and the mean (R435) -/
  cmpSkip : Nat := 0
  cmpCapped : Bool := false
  cmpMean : Nat := 0
  energy : Nat := 0
  frozen : Bool := false
  deriving DecidableEq, Repr

end Sys2Proof.Machine
end

