-- ==== Sys2Proof/Machine/Regs.lean ====
section
/-! DEFINITION. The registers of the node: one row for each register description of the chapters and for each data array
of chapter 17, with its address, its arrays, the masks of its RW, ST and W1C fields and its after-reset value. WO fields
are in no mask, so they read 0 (R9). Addresses follow the block bases of R15. -/

namespace Sys2Proof.Machine

/-- The name of a register or of an array of registers. -/
inductive RegName where
  | brcPartId | tilSeqProg | tilRunahead | tilState | tilExcStatus
  | tilExcInfo | tilExcAddr | tilExcEvent | tilConflictSector | tilConflictWriters
  | tilConflictCount | tilFlags | tilSeqCommit | tilSeqShadow | pfbPenMap
  | pfbPenReq | pfbErrStatus | pfbD2dStatus | memMode | memModeShadow
  | memMapCommit | memScrub | memPenMap | memPenReq | memErrStatus
  | memErrAddr | memSatStatus | memSnapStatus | synTally | synTime
  | synTimeStatus | synTimeCfg | synTree | synChild | synStep
  | synDesig | synStepBase | synPhase | synQwin | synTreeCommit
  | synDesigCommit | synQwinCommit | synHcommit | synHcfg | synHmap
  | synHstat | synHrel | hfiNodeId | hfiPortStatus | hfiPlane
  | hfiPlaneEff | hfiPlaneCommit | hfiWinCommit | hfiTmo | hfiPfmap
  | hfiErrStatus | hfiSatStatus | hfiWinBase | hfiWinAttr | prcCoreStatus
  | prcSyncStatus | prcStart | prcPma | prcAper | prcStartCommit
  | prcPmaCommit | prcAperCommit | prcMtime | prcMtimecmp | marState
  | marStart | marStartCommit | marStatus | marEventEn | marErrInfo
  | marSolves | ckpCutCfg | ckpEpoch | ckpScope | ckpDest
  | ckpCutCommit | ckpLaunchCommit | ckpStatus | ckpSealed | ckpRestore
  | ckpRestoreCtl | ckpLaunchCfg | ckpLaunchArea | ckpLaunchDigest | ckpLaunchChild
  | ckpLaunchSend | ckpLaunchStatus | ckpLaunchHeld | hecLinkStatus | hecCfg
  | hecSessStatus | hecEvtPost | hecEvtStatus | hecDbStatus | hecDbPop
  | hecErrStatus | brcBootStatus | brcResetCause | brcImageVer | brcTileEn
  | brcWdog | brcCommitReject | brcI3c | aksStatus | aksJob
  | aksQuoteCtl | aksPeerCtl | aksDebugCtl | akmPenTile | akmPenUnits
  | akmPenCmd | akmFatal | akmTelem | akmFold | pwrStatus
  | pwrCap | pwrEnergy | pwrTemp | aksSerial | aksMeas
  | aksNonce | aksDebugNonce | aksPeerSerial | aksQuote | aksCert
  | aksPeerBuf | aksToken
  deriving DecidableEq, Repr

/-- A register row: base address, outer stride and count, inner stride and count, the masks of fields written RW, ST and
W1C, and the after-reset value (R8). -/
structure RegRow where
  name : RegName
  base : Nat
  stride : Nat
  count : Nat
  stride2 : Nat
  count2 : Nat
  rw : Nat
  st : Nat
  w1c : Nat
  reset : Nat
  deriving DecidableEq, Repr

/-- The registers of block BRC (base 0xF9000000000). -/
def regRowsBrc : List RegRow := [
  ⟨.brcPartId, 0xF9000000010, 0, 1, 0, 1, 0, 0, 0, 0xD01000000A1⟩,
  ⟨.brcBootStatus, 0xF9000000000, 0, 1, 0, 1, 0, 0, 0, 0⟩,
  ⟨.brcResetCause, 0xF9000000008, 0, 1, 0, 1, 0, 0, 0, 0⟩,
  ⟨.brcImageVer, 0xF9000000018, 8, 2, 0, 1, 0, 0, 0, 0⟩,
  ⟨.brcTileEn, 0xF9000000100, 8, 9, 0, 1, 0, 0, 0, 0⟩,
  ⟨.brcWdog, 0xF9000000200, 0, 1, 0, 1, 0, 0, 0, 0⟩,
  ⟨.brcCommitReject, 0xF9000000300, 0, 1, 0, 1, 0, 0, 0x8000000000000000, 0⟩,
  ⟨.brcI3c, 0xF9000000400, 0, 1, 0, 1, 0, 0, 0, 0x600000000000000⟩]

/-- The registers of block TIL (base 0xF0000000000). -/
def regRowsTil : List RegRow := [
  ⟨.tilSeqProg, 0xF0000000100, 0x10000, 576, 0, 1, 0, 0xFFFFFFFFFFFFFF, 0, 0⟩,
  ⟨.tilRunahead, 0xF0000000108, 0x10000, 576, 0, 1, 1, 0, 0, 1⟩,
  ⟨.tilState, 0xF0000000000, 0x10000, 576, 0, 1, 0, 0, 0, 0⟩,
  ⟨.tilExcStatus, 0xF0000000010, 0x10000, 576, 0, 1, 0, 0, 0x3FF0F, 0⟩,
  ⟨.tilExcInfo, 0xF0000000018, 0x10000, 576, 0, 1, 0, 0, 0, 0⟩,
  ⟨.tilExcAddr, 0xF0000000020, 0x10000, 576, 0, 1, 0, 0, 0, 0⟩,
  ⟨.tilExcEvent, 0xF0000000028, 0x10000, 576, 0, 1, 0x3FF00, 0, 0, 0xF⟩,
  ⟨.tilConflictSector, 0xF0000000030, 0x10000, 576, 0, 1, 0, 0, 0, 0⟩,
  ⟨.tilConflictWriters, 0xF0000000038, 0x10000, 576, 0, 1, 0, 0, 0, 0⟩,
  ⟨.tilConflictCount, 0xF0000000040, 0x10000, 576, 0, 1, 0, 0, 0, 0⟩,
  ⟨.tilFlags, 0xF0000000048, 0x10000, 576, 0, 1, 0, 0, 0x1F, 0⟩,
  ⟨.tilSeqCommit, 0xF0000000110, 0x10000, 576, 0, 1, 0, 0, 0, 0⟩,
  ⟨.tilSeqShadow, 0xF0000000118, 0x10000, 576, 0, 1, 0, 0, 0, 0⟩]

/-- The registers of block PFB (base 0xF1000000000). -/
def regRowsPfb : List RegRow := [
  ⟨.pfbPenMap, 0xF1000000100, 8, 9, 0, 1, 0, 0, 0, 0xFFFFFFFFFFFFFFFF⟩,
  ⟨.pfbPenReq, 0xF1000000148, 0, 1, 0, 1, 0, 0, 0, 0⟩,
  ⟨.pfbErrStatus, 0xF1000000200, 0, 1, 0, 1, 0, 0, 0xF, 0⟩,
  ⟨.pfbD2dStatus, 0xF1000001000, 8, 134, 0, 1, 0, 0, 0, 0⟩]

/-- The registers of block MEM (base 0xF2000000000). -/
def regRowsMem : List RegRow := [
  ⟨.memMode, 0xF2000000100, 8, 8, 0, 1, 0, 0xFFFFFFFFFFFFFFFF, 0, 0⟩,
  ⟨.memModeShadow, 0xF2000000140, 8, 8, 0, 1, 0, 0, 0, 0⟩,
  ⟨.memMapCommit, 0xF2000000180, 0, 1, 0, 1, 0, 0, 0, 0⟩,
  ⟨.memScrub, 0xF2000000200, 0, 1, 0, 1, 0xFFFF, 0, 0, 0x32⟩,
  ⟨.memPenMap, 0xF2000000300, 8, 8, 0, 1, 0, 0, 0, 0⟩,
  ⟨.memPenReq, 0xF2000000340, 0, 1, 0, 1, 0, 0, 0, 0⟩,
  ⟨.memErrStatus, 0xF2000000400, 0, 1, 0, 1, 0, 0, 0xF, 0⟩,
  ⟨.memErrAddr, 0xF2000000408, 0, 1, 0, 1, 0, 0, 0, 0⟩,
  ⟨.memSatStatus, 0xF2000000500, 0, 1, 0, 1, 0, 0, 0xFFFFFFFF, 0⟩,
  ⟨.memSnapStatus, 0xF2000000600, 0, 1, 0, 1, 0, 0, 0, 0⟩]

/-- The registers of block SYN (base 0xF5000000000). -/
def regRowsSyn : List RegRow := [
  ⟨.synTally, 0xF5000100000, 8, 131072, 0, 1, 0x1FFFFFFFF, 0, 0, 0⟩,
  ⟨.synTime, 0xF5000000000, 0, 1, 0, 1, 0, 0, 0, 0⟩,
  ⟨.synTimeStatus, 0xF5000000008, 0, 1, 0, 1, 0, 0, 0xC, 0⟩,
  ⟨.synTimeCfg, 0xF5000000010, 0, 1, 0, 1, 0xFFFFFFFF000000FF, 0, 0, 0x10⟩,
  ⟨.synTree, 0xF5000000018, 0, 1, 0, 1, 0, 0x3FFFFFFFFF, 0, 0⟩,
  ⟨.synChild, 0xF5000000020, 8, 4, 0, 1, 0, 0xFFFFFFFFFFFFFFFF, 0, 0⟩,
  ⟨.synStep, 0xF5000000048, 0, 1, 0, 1, 0, 0xFFFFFFFFFFFFFFFF, 0, 0⟩,
  ⟨.synDesig, 0xF5000000050, 0, 1, 0, 1, 0, 0x3FFFFFFF, 0, 0x100400⟩,
  ⟨.synStepBase, 0xF5000000060, 0, 1, 0, 1, 0, 0, 0, 0⟩,
  ⟨.synPhase, 0xF5000000068, 0, 1, 0, 1, 0, 0, 0, 0⟩,
  ⟨.synQwin, 0xF5000000100, 8, 8, 0, 1, 0, 0xFFFFFFFFFFFFFF01, 0, 0⟩,
  ⟨.synTreeCommit, 0xF5000000040, 0, 1, 0, 1, 0, 0, 0, 0⟩,
  ⟨.synDesigCommit, 0xF5000000058, 0, 1, 0, 1, 0, 0, 0, 0⟩,
  ⟨.synQwinCommit, 0xF5000000140, 0, 1, 0, 1, 0, 0, 0, 0⟩,
  ⟨.synHcommit, 0xF5000000200, 0, 1, 0, 1, 0, 0, 0, 0⟩,
  ⟨.synHcfg, 0xF5000010000, 8, 1024, 0, 1, 0, 0xFFFF03, 0, 0⟩,
  ⟨.synHmap, 0xF5000020000, 0x80, 1024, 8, 11, 0, 0xFFFFFFFFFFFFFFFF, 0, 0⟩,
  ⟨.synHstat, 0xF5000012000, 8, 1024, 0, 1, 0, 0, 0x100000000000, 0⟩,
  ⟨.synHrel, 0xF5000014000, 8, 1024, 0, 1, 0, 0, 0, 0⟩]

/-- The registers of block HFI (base 0xF6000000000). -/
def regRowsHfi : List RegRow := [
  ⟨.hfiNodeId, 0xF6000000000, 0, 1, 0, 1, 0, 0, 0, 0⟩,
  ⟨.hfiPortStatus, 0xF6000000100, 8, 16, 0, 1, 0, 0, 0, 0⟩,
  ⟨.hfiPlane, 0xF6000000200, 0, 1, 0, 1, 0, 0xFFFF, 0, 0xFFFF⟩,
  ⟨.hfiPlaneEff, 0xF6000000208, 0, 1, 0, 1, 0, 0, 0, 0⟩,
  ⟨.hfiPlaneCommit, 0xF6000000210, 0, 1, 0, 1, 0, 0, 0, 0⟩,
  ⟨.hfiWinCommit, 0xF6000020000, 0, 1, 0, 1, 0, 0, 0, 0⟩,
  ⟨.hfiTmo, 0xF6000000218, 0, 1, 0, 1, 0x3FF, 0, 0, 0x64⟩,
  ⟨.hfiPfmap, 0xF6000000300, 8, 4, 0, 1, 0xFFFFFFFFFFFFFFFF, 0, 0, 0⟩,
  ⟨.hfiErrStatus, 0xF6000000400, 0, 1, 0, 1, 0, 0, 0x3F, 0⟩,
  ⟨.hfiSatStatus, 0xF6000000500, 0, 1, 0, 1, 0, 0, 0xFFFFFFFF, 0⟩,
  ⟨.hfiWinBase, 0xF6000010000, 0x10, 256, 0, 1, 0, 0xFFFFFFFFFFFFFFFF, 0, 0⟩,
  ⟨.hfiWinAttr, 0xF6000010008, 0x10, 256, 0, 1, 0, 0x1FFFFFFFF, 0, 0⟩]

/-- The registers of block PRC (base 0xF3000000000). -/
def regRowsPrc : List RegRow := [
  ⟨.prcCoreStatus, 0xF3000000000, 0, 1, 0, 1, 0, 0, 0, 0⟩,
  ⟨.prcSyncStatus, 0xF3000000008, 0, 1, 0, 1, 0, 0, 0xFFFFFFFFFFFFFFFF, 0⟩,
  ⟨.prcStart, 0xF3000000100, 8, 64, 0, 1, 0, 0xFFFFFFFFFFFFFF, 0, 0⟩,
  ⟨.prcPma, 0xF3000000400, 8, 16, 0, 1, 0, 0xFFFFFFFFFFFFFFFF, 0, 0⟩,
  ⟨.prcAper, 0xF3000000500, 8, 16, 0, 1, 0, 0x1FFFFFF, 0, 0⟩,
  ⟨.prcStartCommit, 0xF3000000300, 0, 1, 0, 1, 0, 0, 0, 0⟩,
  ⟨.prcPmaCommit, 0xF3000000480, 0, 1, 0, 1, 0, 0, 0, 0⟩,
  ⟨.prcAperCommit, 0xF3000000580, 0, 1, 0, 1, 0, 0, 0, 0⟩,
  ⟨.prcMtime, 0xF3000001000, 0, 1, 0, 1, 0, 0, 0, 0⟩,
  ⟨.prcMtimecmp, 0xF3000001100, 8, 64, 0, 1, 0xFFFFFFFFFFFFFFFF, 0, 0, 0xFFFFFFFFFFFFFFFF⟩]

/-- The registers of block MAR (base 0xF4000000000). -/
def regRowsMar : List RegRow := [
  ⟨.marState, 0xF4000000000, 0x1000, 16, 0, 1, 0, 0, 0, 0⟩,
  ⟨.marStart, 0xF4000000100, 0x1000, 16, 0, 1, 0, 0x3FF, 0, 0⟩,
  ⟨.marStartCommit, 0xF4000000108, 0x1000, 16, 0, 1, 0, 0, 0, 0⟩,
  ⟨.marStatus, 0xF4000000200, 0x1000, 16, 0, 1, 0, 0, 0x1FFF, 0⟩,
  ⟨.marEventEn, 0xF4000000208, 0x1000, 16, 0, 1, 0x17FF, 0, 0, 0x800⟩,
  ⟨.marErrInfo, 0xF4000000210, 0x1000, 16, 0, 1, 0, 0, 0, 0⟩,
  ⟨.marSolves, 0xF4000000218, 0x1000, 16, 0, 1, 0, 0, 0, 0⟩]

/-- The registers of block CKP (base 0xF8000000000). -/
def regRowsCkp : List RegRow := [
  ⟨.ckpCutCfg, 0xF8000000000, 0, 1, 0, 1, 0, 0x3FFFFFFFFFF, 0, 0x80000⟩,
  ⟨.ckpEpoch, 0xF8000000008, 0, 1, 0, 1, 0, 0xFFFFFFFF, 0, 0⟩,
  ⟨.ckpScope, 0xF8000000040, 8, 8, 0, 1, 0, 0xFFFFFFFFFFFFFFFF, 0, 0⟩,
  ⟨.ckpDest, 0xF8000000080, 8, 2, 0, 1, 0, 0x3FFFFFFFFFFFFFF, 0, 0⟩,
  ⟨.ckpCutCommit, 0xF8000000100, 0, 1, 0, 1, 0, 0, 0, 0⟩,
  ⟨.ckpLaunchCommit, 0xF8000000460, 0, 1, 0, 1, 0, 0, 0, 0⟩,
  ⟨.ckpStatus, 0xF8000000200, 0, 1, 0, 1, 0, 0, 0xF, 0⟩,
  ⟨.ckpSealed, 0xF8000000210, 8, 2, 0, 1, 0, 0, 0, 0⟩,
  ⟨.ckpRestore, 0xF8000000300, 0, 1, 0, 1, 0xFFFFFFFFFFFF, 0, 0, 0⟩,
  ⟨.ckpRestoreCtl, 0xF8000000308, 0, 1, 0, 1, 0, 0, 0, 0⟩,
  ⟨.ckpLaunchCfg, 0xF8000000400, 0, 1, 0, 1, 0, 0x7FFFFFFFF, 0, 0x14000000⟩,
  ⟨.ckpLaunchArea, 0xF8000000408, 0, 1, 0, 1, 0, 0xFFFFFFFFFFFFFFFF, 0, 0⟩,
  ⟨.ckpLaunchDigest, 0xF8000000410, 8, 8, 0, 1, 0, 0xFFFFFFFFFFFFFFFF, 0, 0⟩,
  ⟨.ckpLaunchChild, 0xF8000000450, 8, 2, 0, 1, 0, 0xFFFFFFFFFFFFFFFF, 0, 0⟩,
  ⟨.ckpLaunchSend, 0xF8000000468, 0, 1, 0, 1, 0, 0, 0, 0⟩,
  ⟨.ckpLaunchStatus, 0xF8000000470, 0, 1, 0, 1, 0, 0, 0x100004, 0⟩,
  ⟨.ckpLaunchHeld, 0xF8000001000, 8, 1024, 0, 1, 0, 0, 0, 0⟩]

/-- The registers of block HEC (base 0xF7000000000). -/
def regRowsHec : List RegRow := [
  ⟨.hecLinkStatus, 0xF7000000000, 8, 4, 0, 1, 0, 0, 0, 0⟩,
  ⟨.hecCfg, 0xF7000000040, 0, 1, 0, 1, 0, 0, 0, 0x3C0320F17C⟩,
  ⟨.hecSessStatus, 0xF7000000048, 0, 1, 0, 1, 0, 0, 0, 0⟩,
  ⟨.hecEvtPost, 0xF7000000050, 0, 1, 0, 1, 0, 0, 0, 0⟩,
  ⟨.hecEvtStatus, 0xF7000000058, 0, 1, 0, 1, 0, 0, 0, 0⟩,
  ⟨.hecDbStatus, 0xF7000000060, 0, 1, 0, 1, 0, 0, 0, 0⟩,
  ⟨.hecDbPop, 0xF7000000068, 0, 1, 0, 1, 0, 0, 0, 0⟩,
  ⟨.hecErrStatus, 0xF7000000070, 0, 1, 0, 1, 0, 0, 3, 0⟩]

/-- The registers of block AKS (base 0xFA000000000). -/
def regRowsAks : List RegRow := [
  ⟨.aksStatus, 0xFA000000000, 0, 1, 0, 1, 0, 0, 0, 0⟩,
  ⟨.aksJob, 0xFA000000010, 0, 1, 0, 1, 0xFFFF0000, 0, 0, 0⟩,
  ⟨.aksQuoteCtl, 0xFA000000020, 0, 1, 0, 1, 0, 0, 0, 0⟩,
  ⟨.aksPeerCtl, 0xFA000000028, 0, 1, 0, 1, 0, 0, 0, 0⟩,
  ⟨.aksDebugCtl, 0xFA000000030, 0, 1, 0, 1, 0, 0, 0, 0⟩,
  ⟨.aksSerial, 0xFA000000008, 0, 1, 0, 1, 0, 0, 0, 0⟩,
  ⟨.aksMeas, 0xFA000000100, 0x40, 8, 8, 8, 0, 0, 0, 0⟩,
  ⟨.aksNonce, 0xFA000000300, 8, 8, 0, 1, 0xFFFFFFFFFFFFFFFF, 0, 0, 0⟩,
  ⟨.aksDebugNonce, 0xFA000000340, 8, 4, 0, 1, 0, 0, 0, 0⟩,
  ⟨.aksPeerSerial, 0xFA000000360, 8, 4, 0, 1, 0, 0, 0, 0⟩,
  ⟨.aksQuote, 0xFA000001000, 8, 256, 0, 1, 0, 0, 0, 0⟩,
  ⟨.aksCert, 0xFA000002000, 8, 512, 0, 1, 0, 0, 0, 0⟩,
  ⟨.aksPeerBuf, 0xFA000003000, 8, 512, 0, 1, 0xFFFFFFFFFFFFFFFF, 0, 0, 0⟩,
  ⟨.aksToken, 0xFA000004000, 8, 256, 0, 1, 0xFFFFFFFFFFFFFFFF, 0, 0, 0⟩]

/-- The registers of block AKM (base 0xFB000000000). -/
def regRowsAkm : List RegRow := [
  ⟨.akmPenTile, 0xFB000000000, 8, 9, 0, 1, 0, 0, 0, 0⟩,
  ⟨.akmPenUnits, 0xFB000000048, 0, 1, 0, 1, 0, 0, 0, 0⟩,
  ⟨.akmPenCmd, 0xFB000000050, 0, 1, 0, 1, 0, 0, 0, 0⟩,
  ⟨.akmFatal, 0xFB000000100, 0, 1, 0, 1, 0, 0, 0, 0⟩,
  ⟨.akmTelem, 0xFB000000200, 0, 1, 0, 1, 0xFFFF, 0, 0, 0x1000⟩,
  ⟨.akmFold, 0xFB000000300, 8, 16, 0, 1, 0, 0, 0, 0⟩]

/-- The registers of block PWR (base 0xFC000000000). -/
def regRowsPwr : List RegRow := [
  ⟨.pwrStatus, 0xFC000000000, 0, 1, 0, 1, 0, 0, 0x4000000000, 0⟩,
  ⟨.pwrCap, 0xFC000000008, 0, 1, 0, 1, 0xFFFF, 0, 0, 0x640⟩,
  ⟨.pwrEnergy, 0xFC000000010, 0, 1, 0, 1, 0, 0, 0, 0⟩,
  ⟨.pwrTemp, 0xFC000000100, 8, 31, 0, 1, 0, 0, 0, 0⟩]

/-- Every register row. -/
def regRows : List RegRow :=
  regRowsBrc ++ regRowsTil ++ regRowsPfb ++ regRowsMem ++ regRowsSyn ++ regRowsHfi ++ regRowsPrc ++ regRowsMar ++ regRowsCkp ++ regRowsHec ++ regRowsAks ++ regRowsAkm ++ regRowsPwr

/-- The address of element `i`, `j` of a row. -/
def RegRow.addr (r : RegRow) (i j : Nat) : Nat := r.base + i * r.stride + j * r.stride2

/-- The element of a row that an address names, if any: its outer and inner index. -/
def RegRow.index? (r : RegRow) (a : Nat) : Option (Nat × Nat) :=
  if a < r.base then none else
  let d := a - r.base
  let i := if r.stride = 0 then 0 else d / r.stride
  let i := if i < r.count then i else 0
  let e := d - i * r.stride
  let j := if r.stride2 = 0 then 0 else e / r.stride2
  if j < r.count2 ∧ r.addr i j = a then some (i, j) else none

/-- The first row of a list that names an address. -/
def findRow (a : Nat) : List RegRow → Option (RegRow × Nat × Nat)
  | [] => none
  | r :: rs =>
    match r.index? a with
    | some (i, j) => some (r, i, j)
    | none => findRow a rs

/-- The block a register address lies in, 0 (TIL) to 12 (PWR) (R15). -/
def blockOf (a : Nat) : Nat := bitsOf a 36 4

/-- The rows of a block. -/
def rowsOfBlock : Nat → List RegRow
  | 0 => regRowsTil
  | 1 => regRowsPfb
  | 2 => regRowsMem
  | 3 => regRowsPrc
  | 4 => regRowsMar
  | 5 => regRowsSyn
  | 6 => regRowsHfi
  | 7 => regRowsHec
  | 8 => regRowsCkp
  | 9 => regRowsBrc
  | 10 => regRowsAks
  | 11 => regRowsAkm
  | 12 => regRowsPwr
  | _ => []

/-- The register an address names: its row and indices (R15). -/
def lookupReg (a : Nat) : Option (RegRow × Nat × Nat) :=
  if 0x0F0000000000 ≤ a ∧ a < 0x0FD000000000 then findRow a (rowsOfBlock (blockOf a)) else none

/-- The row of a name. -/
def rowOf (n : RegName) : RegRow :=
  (regRows.find? (fun r => decide (r.name = n))).getD ⟨n, 0, 0, 0, 0, 0, 0, 0, 0, 0⟩

/-- The after-reset value at a register address (R8). -/
def regReset (a : Nat) : Word :=
  match lookupReg a with
  | some (r, _, _) => BitVec.ofNat 64 r.reset
  | none => 0

/-- The offset at which a block shows the staged value of an ST register (chapters 10 to 14). -/
def shadowOffset : Nat := 0x80000

/-- Whether a block shows its staged values at `shadowOffset`: PRC, MAR, SYN, HFI and CKP. -/
def hasShadowView (block : Nat) : Bool := [3, 4, 5, 6, 8].elem block

/-- The ST register whose staged value an address shows, if any. -/
def shadowTarget (a : Nat) : Option Nat :=
  if hasShadowView (blockOf a) = false ∨ a < shadowOffset then none else
  match lookupReg (a - shadowOffset) with
  | some (r, _, _) => if r.st = 0 then none else some (a - shadowOffset)
  | none => none

/-- The address of a register by name and indices. -/
def regAddr (n : RegName) (i j : Nat := 0) : Nat := (rowOf n).addr i j

end Sys2Proof.Machine
end

