-- ==== Sys2Proof/Machine/State.lean ====
section
/-! DEFINITION. The state of the node, the reasons a step can stop, and the state right after reset: the reset hold has
ended and boot phase P0 begins (R8, R383). -/

namespace Sys2Proof.Machine

/-- The machine never stops with a fault: every error the spec names is an answer, an exception, an event or a reset,
and so a next state. The type has no constructor. -/
inductive Fault where
  deriving DecidableEq, Repr

/-- Why a command has no meaning in the model. -/
inductive Refusal where
  /-- A command the model does not give a meaning to: raised by the dispatch alone. Safe. -/
  | notModelled (mnemonic : String)
  /-- A TAP debug or internal-scan opcode whose scope is unlocked: R439 leaves its effect to the debug key holder's
  documentation. Raised by CORE_DEBUG and INTERNAL_SCAN. Safe: nothing can be proved of what follows. -/
  | debugUndocumented (op : Nat)
  deriving DecidableEq, Repr

/-- The node. -/
structure State where
  /-- the commands that wait, first in first out (the model's own) -/
  pending : List Instr := []
  /-- names the next free value (the model's own; DESIGN CHOICE, log entry 2) -/
  freeCtr : Nat := 0
  /-- the answer of the last direct register access: ERR code or 0, and the value read (the model's own) -/
  answer : Nat × Word := (0, 0)
  /-- ticks of the arithmetic clock since P0 began (the model's own clock; DESIGN CHOICE, log entry 3) -/
  now : Nat := 0
  /-- the node timebase (R243) -/
  time : Nat := 0
  tstate : TimeState := {}
  /-- live values of registers that differ from their after-reset value -/
  regs : Table Word := []
  /-- staged values of ST registers (R389), where they differ from the after-reset value -/
  shadow : Table Word := []
  /-- values captured by a GO whose safe point is still to come (R389) -/
  captured : List (Nat × Word) := []
  /-- every byte memory of the address map (R11), keyed by LPA -/
  mem : List Host.Cell := []
  /-- the boot flash (R376) -/
  flash : List Host.Cell := []
  /-- sectors stored as poison (R211), keyed by LPA / 32 -/
  poison : Table Bool := []
  /-- wrong symbols of a sector of stacked memory and its check bytes (R209), keyed by LPA / 32 -/
  wrong : Table Nat := []
  /-- the snapshot bitmap (R219), keyed by page -/
  snap : Table Bool := []
  heldWrites : List HeldWrite := []
  /-- for each memory port, the tick since which its queue has been full (R217) -/
  fullSince : Table (Option Nat) := []
  /-- next scrub granule of each pseudo-channel, and the tick it is due (R215) -/
  scrub : Table Nat := []
  scrubAt : Table Nat := []
  /-- timebase of the last calibration of each stack (R214) -/
  calAt : Table Nat := []
  flights : List Flight := []
  /-- for each output and class of the fabric, the input and VC served last (R183) -/
  arb : List ((Output × Nat) × Nat) := []
  /-- for each register with W1C bits, those raised in this tick: a clear in the same tick leaves them set -/
  raised : Table Nat := []
  /-- units to be penned as this tick ends: kind, index, and AKM's reason; none for a write of a pen request register (R417) -/
  penDue : List (Nat × Nat × Option Nat) := []
  delivered : List Arrival := []
  requests : List Request := []
  /-- next sequence number of each endpoint (R187) -/
  seqs : Table Nat := []
  d2d : Table D2d := []
  ports : Table Port := []
  tallies : Table Tally := []
  hurdles : Table Hurdle := []
  tiles : Table Tile := []
  cores : Table Core := []
  lines : Table (Option Line) := []
  /-- its MSI address registers as reset leaves them place the files where R296 has them (DESIGN CHOICE, log entry 14) -/
  aplicM : Aplic := { mmsiaddr := 0xF3000100, mmsiaddrh := 0x6000, smsiaddr := 0xF3000200 }
  aplicS : Aplic := {}
  /-- the levels of the wires of APLIC sources 1 and 3 to 6, by source number (R296) -/
  wires : Nat := 0
  engines : Table Engine := []
  /-- open quiet windows, one bit each (R248) -/
  qwins : Nat := 0
  ckp : Ckp := {}
  hec : Hec := {}
  brc : Brc := {}
  aks : Aks := {}
  akm : Akm := {}
  deriving DecidableEq, Repr

/-- The node right after reset: every register at its after-reset value (R8, R390), no memory listed, every agent
stopped, no command waiting. BRC_RESET_CAUSE holds the cause of the reset: here COLD, a node that vstby has just reached
(R385; DESIGN CHOICE, log entry 5). -/
def State.reset : State := { regs := [(0xF9000000008, 1)] }

end Sys2Proof.Machine
end

