-- ==== Sys2Proof/Config.lean ====
section
/-! DEFINITION. What one part fixes and what the spec leaves open: constants without a body, so that no proof can see a
value of one. A free value is one of these applied to operands, or to the counter `freeCtr` of the state. -/

namespace Sys2Proof.Config

open Sys2Proof.Machine

/-- A free choice between two outcomes the spec lists (log entry 2). -/
opaque freeBool : Nat → Bool

/-- A free number (log entry 2). -/
opaque freeNat : Nat → Nat

/-- Free bytes: random numbers of AKS (R401, R406) and values the spec gives no layout for (log entry 2). -/
opaque freeBytes : Nat → List Byte

/-- The bit a correctly rounded transcendental takes where a 512-bit enclosure leaves two candidates: function, operand
pattern (log entry 20). -/
opaque roundTie : Nat → Nat → Bool

/-- The rate correction that follows from the one so far and the offset of an exchange, in ticks for each exchange interval:
R245 has it made and gives no formula (log entry 47). -/
opaque rateCorrection : Int → Int → Int

/-- The scale of a row or column and the bias of a column that an MMUL's operand does not reach: kind (A scale, B scale, bias) and
place (log entry 22). -/
opaque beyondOperand : Nat → Nat → Nat

/-- Which end a row's impulse takes where its bounds cross: the lower bound (log entry 25). -/
opaque crossedBounds : Int → Int → Bool

/-- The node serial that the ring oscillators of the X die give (R393). -/
opaque nodeSerial : BitVec 64

/-- K_puf, given the helper data of an IDENTITY section (R394). -/
opaque pufSecret : List Byte → List Byte

/-- The SHA-512 of the correct K_puf that helper data holds, at a place the spec does not give (R394). -/
opaque pufDigest : List Byte → List Byte

/-- The contents measured into M0: the boot ROM and its three hashes (R397). -/
opaque romBytes : List Byte

/-- The three ROM hashes: image root key, identity CA key, debug key (R391). -/
opaque romRootHash : List Byte
opaque romCaHash : List Byte
opaque romDebugHash : List Byte

/-- The SubjectPublicKeyInfo inside an X.509 v3 certificate with an RSA-4096 key; none for anything else (R392, R400). -/
opaque certKey : List Byte → Option (List Byte)

/-- Whether a key verifies the signature of a certificate (R392, R395). -/
opaque certVerifies : List Byte → List Byte → Bool

/-- The node serial a certificate names (R395). -/
opaque certSerial : List Byte → Option Nat

/-- RSASSA-PSS with SHA-512: whether a public key verifies a signature over a message (R392, R406). -/
opaque rsaVerify : List Byte → List Byte → List Byte → Bool

/-- RSASSA-PSS with SHA-512: a private key's signature over a message with a salt (R396). -/
opaque rsaSign : List Byte → List Byte → List Byte → List Byte

/-- RSA-OAEP under a public key, with its random seed (R401). -/
opaque oaepSeal : List Byte → List Byte → List Byte → List Byte

/-- RSA-OAEP opened by a private key (R401). -/
opaque oaepOpen : List Byte → List Byte → Option (List Byte)

/-- The parts of the unsealed identity: private key, its public key, identity certificate, CA certificate (R394). -/
opaque identityParts : List Byte → Option (List Byte × List Byte × List Byte × List Byte)

/-- Fields of the image sections that the spec names without giving their bytes (R376 tables): the tile enable map, the
pseudo-channels to pen, the set points, link addresses and the policy. -/
opaque repairTiles : List Byte → BitVec 576
opaque repairPcs : List Byte → List Nat
opaque trimVolt : List Byte → Nat → Nat
opaque trimLow : List Byte → Nat → Nat
opaque trimHigh : List Byte → Nat → Nat
opaque linkMode : List Byte → Nat → BitVec 2
opaque policyMac : List Byte → Nat → Option (BitVec 48)
opaque policyAddrs : List Byte → Nat → List (List Byte)
opaque policyGateways : List Byte → Nat → List (List Byte)
opaque policyVlan : List Byte → Nat → Option (BitVec 12)
opaque policyPriority : List Byte → Nat → BitVec 3
opaque policyPort : List Byte → BitVec 16
opaque policyMaxData : List Byte → Bool
opaque policyPfc : List Byte → Bool
opaque policyRto : List Byte → BitVec 14
opaque policyIdle : List Byte → BitVec 16
opaque policyWdog : List Byte → BitVec 16
opaque policyHold : List Byte → BitVec 16
opaque policyHosts : List Byte → List (List Byte)

/-- What the one-page state items of a cut and its directory say where their bytes keep another layout than the model's, and
the pages of a bank whose open chain does not fit four of them, with the bank read back from those (R338, log entry 46). -/
opaque tileOfPage : List Byte → Tile × List Tally × Word
opaque coreOfPage : List Byte → Core × List Tally
opaque engineOfPage : List Byte → Engine × List Tally
opaque synOfPage : List Byte → List Tally × Word
opaque directoryOf : List Byte → List (Nat × Nat × Nat)
opaque bankPages : Bank → List Byte
opaque bankOfPages : List Byte → Bank

/-- The sections that chunk 0 of a launch image lists: offset in the image, length, destination (R353). -/
opaque launchSections : List Byte → List (Nat × Nat × Nat)

/-- Whether mtval and stval hold the instruction's bits on an illegal instruction, and the pc on a breakpoint: RISC-V lets
either hold zero (R280). -/
opaque tvalHoldsInstr : Bool
opaque tvalHoldsPc : Bool

/-- Whether a credit of another node's agent ends the copy that a conflicting write of its was part of: the writer, the SEQ of the
write and that of the credit. No packet says which copy it belongs to (R35). -/
opaque copyCredit : Nat → Nat → Nat → Bool

/-- The device row of a sector: pseudo-channel and address in it (R448). -/
opaque deviceRow : Nat → Nat → Nat

/-- Seconds of operation since final test at the current start (R425). -/
opaque operationSeconds : Nat

end Sys2Proof.Config
end

