-- ==== Sys2Proof/Machine/Aplic.lean ====
section
/-! DEFINITION. The two domains of the APLIC (R296) by the layouts of the RISC-V AIA (log entry 14): source modes, the registers
of a domain, and what a write of one does to it. -/

namespace Sys2Proof.Machine

/-- The mode of a source in a domain: 0 inactive, 1 detached, 4 and 5 edge, 6 and 7 level, the odd ones of them on the inverted
wire. A source belongs to the supervisor domain where the machine domain delegates it. -/
def sourceMode (m s : Aplic) (sup : Bool) (k : Nat) : Nat :=
  let c := Table.get 0 m.sourcecfg k
  if sup then (if bitOf c 10 then Table.get 0 s.sourcecfg k % 8 else 0) else if bitOf c 10 then 0 else c % 8

/-- The rectified input of a source whose wire is at a level. -/
def rectified (mode : Nat) (wire : Bool) : Bool := (decide (mode = 4 ∨ mode = 6) && wire) || (decide (mode = 5 ∨ mode = 7) && !wire)

/-- Sources of which something holds, as bits 1 to 63. -/
def sourceMask (p : Nat → Bool) : Nat := (List.range 63).foldl (fun m k => if p (k + 1) then m + 2 ^ (k + 1) else m) 0

/-- Whether an offset of a domain's frame names a register, of 63 sources and of MSI delivery alone. -/
def aplicNames (off : Nat) : Bool :=
  decide (off % 4 = 0) && (decide (off < 0x100) || [0x1BC0, 0x1BC4, 0x1BC8, 0x1BCC, 0x1C00, 0x1C04, 0x1CDC, 0x1D00, 0x1D04, 0x1DDC,
    0x1E00, 0x1E04, 0x1EDC, 0x1F00, 0x1F04, 0x1FDC, 0x2000, 0x2004, 0x3000].elem off || (decide (0x3004 ≤ off) && decide (off < 0x3100)))

/-- A 32-bit register of a domain, whose rectified inputs are given: a source that is not delegated to the domain reads 0, and
so do the MSI address registers of the supervisor domain. -/
def Aplic.read (d : Aplic) (inputs : Nat) (off : Nat) : Nat :=
  if off = 0 then 0x80000004 + (d.domaincfg &&& 0x100)
  else if off < 0x100 then Table.get 0 d.sourcecfg (off / 4)
  else if off = 0x1BC0 then d.mmsiaddr
  else if off = 0x1BC4 then d.mmsiaddrh
  else if off = 0x1BC8 then d.smsiaddr
  else if off = 0x1BCC then d.smsiaddrh
  else if off = 0x1C00 then d.pend % 2 ^ 32
  else if off = 0x1C04 then d.pend / 2 ^ 32
  else if off = 0x1D00 then inputs % 2 ^ 32
  else if off = 0x1D04 then inputs / 2 ^ 32
  else if off = 0x1E00 then d.enab % 2 ^ 32
  else if off = 0x1E04 then d.enab / 2 ^ 32
  else if off = 0x3000 then d.genmsi
  else if 0x3004 ≤ off ∧ off < 0x3100 then Table.get 0 d.target ((off - 0x3000) / 4)
  else 0

/-- The bits of a 64-bit source mask that a write of one of its halves, or of a number register, names. -/
def sourceBits (off half num v : Nat) : Option Nat :=
  if off = half then some v
  else if off = half + 4 then some (v * 2 ^ 32)
  else if off = num then some (if v < 64 then 2 ^ v else 0)
  else none

/-- A 32-bit word with its bytes the other way round. -/
def swapBytes (v : Nat) : Nat := v % 256 * 2 ^ 24 + v / 2 ^ 8 % 256 * 2 ^ 16 + v / 2 ^ 16 % 256 * 2 ^ 8 + v / 2 ^ 24 % 256

/-- A write of a register that no source mode turns on: `active` and `pendable` hold the sources that are active in the domain and
those that a write may make pending. The MSI address registers lie in the machine domain and are locked by their bit L. -/
def Aplic.write (d : Aplic) (sup : Bool) (active pendable off v : Nat) : Aplic :=
  let clear (m b : Nat) : Nat := m ^^^ (m &&& b)
  let addr := !sup && !bitOf d.mmsiaddrh 31
  let v' := if off = 0x2004 then swapBytes v else v
  match sourceBits off 0x1C00 0x1CDC v, sourceBits off 0x1D00 0x1DDC v, sourceBits off 0x1E00 0x1EDC v, sourceBits off 0x1F00 0x1FDC v with
  | some b, _, _, _ => { d with pend := d.pend ||| (b &&& pendable) }
  | _, some b, _, _ => { d with pend := clear d.pend b }
  | _, _, some b, _ => { d with enab := d.enab ||| (b &&& active) }
  | _, _, _, some b => { d with enab := clear d.enab b }
  | none, none, none, none =>
    if off = 0 then { d with domaincfg := v &&& 0x100 }
    else if off = 0x2000 ∨ off = 0x2004 then { d with pend := d.pend ||| ((if v' < 64 then 2 ^ v' else 0) &&& pendable) }
    else if off = 0x1BC0 then (if addr then { d with mmsiaddr := v } else d)
    else if off = 0x1BC4 then (if addr then { d with mmsiaddrh := v &&& 0x9F77FFFF } else d)
    else if off = 0x1BC8 then (if addr then { d with smsiaddr := v } else d)
    else if off = 0x1BCC then (if addr then { d with smsiaddrh := v &&& 0x700FFF } else d)
    else if off = 0x3000 then { d with genmsi := v &&& 0xFFFC07FF }
    else if 0x3004 ≤ off ∧ off < 0x3100 then
      let k := (off - 0x3000) / 4
      if bitOf active k then { d with target := Table.set 0 d.target k (v &&& 0xFFFC07FF) } else d
    else d

/-- Offsets of the AIA frames in the PRC block (chapter 12): machine and supervisor IMSIC files, APLIC domains. -/
inductive AiaFrame where
  | imsic (c : Nat) (sup : Bool) (off : Nat)
  | aplic (sup : Bool) (off : Nat)
  deriving DecidableEq, Repr

def aiaFrame (a : Nat) : Option AiaFrame :=
  let b := 0x0F3000000000
  if a < b + 0x100000 then none
  else if a < b + 0x140000 then some (.imsic ((a - b - 0x100000) / 0x1000) false (a % 0x1000))
  else if a < b + 0x200000 then none
  else if a < b + 0x240000 then some (.imsic ((a - b - 0x200000) / 0x1000) true (a % 0x1000))
  else if a < b + 0x300000 then none
  else if a < b + 0x308000 then some (.aplic false (a - b - 0x300000))
  else if a < b + 0x310000 then some (.aplic true (a - b - 0x308000))
  else none

/-- The address of an MSI to a hart: the machine domain's MSI address registers place the files, with those of the supervisor level
for the supervisor domain (log entry 14). -/
def Aplic.msiAddress (m : Aplic) (sup : Bool) (hart : Nat) : Nat :=
  let lhxw := bitsOf m.mmsiaddrh 12 4
  let lhxs := bitsOf (if sup then m.smsiaddrh else m.mmsiaddrh) 20 3
  let ppn := if sup then m.smsiaddr + bitsOf m.smsiaddrh 0 12 * 2 ^ 32 else m.mmsiaddr + bitsOf m.mmsiaddrh 0 12 * 2 ^ 32
  let group := hart / 2 ^ lhxw % 2 ^ bitsOf m.mmsiaddrh 16 3
  let index := hart % 2 ^ lhxw
  (ppn ||| group * 2 ^ (bitsOf m.mmsiaddrh 24 5 + 12) ||| index * 2 ^ lhxs) * 4096

/-- A source that is inactive in a domain keeps nothing there. -/
def Aplic.drop (d : Aplic) (k : Nat) : Aplic :=
  { d with pend := d.pend ^^^ (d.pend &&& 2 ^ k), enab := d.enab ^^^ (d.enab &&& 2 ^ k), target := Table.set 0 d.target k 0 }

/-- The sourcecfg value that a write leaves: delegation to the one child in the machine domain, else a mode; a reserved mode is
taken as inactive. -/
def sourceConfig (sup : Bool) (v : Nat) : Nat :=
  if !sup && bitOf v 10 then 0x400 else if v % 8 = 2 ∨ v % 8 = 3 then 0 else v % 8

end Sys2Proof.Machine
end

