-- ==== Sys2Proof/Machine/Ops.lean ====
section
/-! DEFINITION. The named operations over registers, memories, agents, events and requests that every meaning is written
with. -/

namespace Sys2Proof.Machine

/-- What a command does: its effect where its condition holds, and nothing where it does not (log entry 1). -/
def act (c : Bool) (f : State → State) (s : State) : Host.Outcome State Fault Refusal :=
  .next (if c then f s else s)

/-- Applies an operation for each element of a list, in order. -/
def forEach {α : Type} (l : List α) (f : α → State → State) (s : State) : State :=
  l.foldl (fun s a => f a s) s

/-- A list with the element at an index taken out. -/
def dropAt {α : Type} : List α → Nat → List α
  | [], _ => []
  | _ :: l, 0 => l
  | x :: l, n + 1 => x :: dropAt l n

/-- A list with the element at an index replaced. -/
def setAt {α : Type} : List α → Nat → α → List α
  | [], _, _ => []
  | _ :: l, 0, y => y :: l
  | x :: l, n + 1, y => x :: setAt l n y

/-- Bits `lo` to `lo + n - 1` of a number replaced. -/
def putBits (x lo n v : Nat) : Nat := x - bitsOf x lo n * 2 ^ lo + v % 2 ^ n * 2 ^ lo

/-- Little-endian bytes of a number. -/
def bytesOf : Nat → Nat → List Byte
  | 0, _ => []
  | n + 1, x => BitVec.ofNat 8 x :: bytesOf n (x / 256)

/-- The number whose little-endian bytes these are. -/
def natOf : List Byte → Nat
  | [] => 0
  | b :: l => b.toNat + 256 * natOf l

/-- Big-endian bytes of a number. -/
def bytesBE (n x : Nat) : List Byte := (bytesOf n x).reverse

/-- The number whose big-endian bytes these are. -/
def natBE (l : List Byte) : Nat := natOf l.reverse

/-- Bytes `a` to `a + n - 1` of a list, short where the list ends. -/
def slice {α : Type} (l : List α) (a n : Nat) : List α := (l.drop a).take n

/-- `n` copies of a zero byte. -/
def zeros (n : Nat) : List Byte := List.replicate n 0

/-- A list padded with zero bytes to a length. -/
def padTo (n : Nat) (l : List Byte) : List Byte := l ++ zeros (n - l.length)

/-- A list cut into pieces of `n`; `fuel` bounds the pieces. -/
def chunksOf {α : Type} (n : Nat) : Nat → List α → List (List α)
  | 0, _ => []
  | fuel + 1, l => if l.isEmpty then [] else l.take n :: chunksOf n fuel (l.drop n)

/-- Bytes of a sector with a part replaced. -/
def spliced (old : List Byte) (off : Nat) (b : List Byte) : List Byte := old.take off ++ b ++ old.drop (off + b.length)

/-- Ticks in a microsecond, rounded up to a whole tick: 1.25 ticks a nanosecond. -/
def ticksOfUs (us : Nat) : Nat := 1250 * us

/-! ### Agents -/

def State.tile (s : State) (t : Nat) : Tile := Table.get {} s.tiles t
def State.setTile (s : State) (t : Nat) (x : Tile) : State := { s with tiles := Table.set {} s.tiles t x }
def State.modTile (s : State) (t : Nat) (f : Tile → Tile) : State := s.setTile t (f (s.tile t))
def State.core (s : State) (c : Nat) : Core := Table.get {} s.cores c
def State.setCore (s : State) (c : Nat) (x : Core) : State := { s with cores := Table.set {} s.cores c x }
def State.modCore (s : State) (c : Nat) (f : Core → Core) : State := s.setCore c (f (s.core c))
def State.engine (s : State) (e : Nat) : Engine := Table.get {} s.engines e
def State.setEngine (s : State) (e : Nat) (x : Engine) : State := { s with engines := Table.set {} s.engines e x }
def State.modEngine (s : State) (e : Nat) (f : Engine → Engine) : State := s.setEngine e (f (s.engine e))
def State.port (s : State) (p : Nat) : Port := Table.get {} s.ports p
def State.setPort (s : State) (p : Nat) (x : Port) : State := { s with ports := Table.set {} s.ports p x }
def State.hurdle (s : State) (h : Nat) : Hurdle := Table.get {} s.hurdles h
def State.setHurdle (s : State) (h : Nat) (x : Hurdle) : State := { s with hurdles := Table.set {} s.hurdles h x }
def State.tally (s : State) (i : Nat) : Tally := Table.get {} s.tallies i
def State.setTally (s : State) (i : Nat) (x : Tally) : State := { s with tallies := Table.set {} s.tallies i x }

/-- The next free value's name; the counter advances with `fresh`. -/
def State.fresh (s : State) : State := { s with freeCtr := s.freeCtr + 1 }

/-! ### Registers (R8, R9, R389) -/

/-- The stored live value of a register. -/
def State.getReg (s : State) (a : Nat) : Word := Table.get (regReset a) s.regs a

/-- The node with the stored live value of a register set. -/
def State.setReg (s : State) (a : Nat) (v : Word) : State := { s with regs := Table.set (regReset a) s.regs a v }

/-- The staged value of a register (R389). -/
def State.getShadow (s : State) (a : Nat) : Word := Table.get (regReset a) s.shadow a

def State.setShadow (s : State) (a : Nat) (v : Word) : State :=
  { s with shadow := Table.set (regReset a) s.shadow a v }

/-- A field of a stored live register, by name. -/
def State.field (s : State) (n : RegName) (i j lo len : Nat) : Nat := bitsOf (s.getReg (regAddr n i j)).toNat lo len

/-- A field of a stored live register set, by name. -/
def State.setField (s : State) (n : RegName) (i j lo len v : Nat) : State :=
  let a := regAddr n i j
  s.setReg a (BitVec.ofNat 64 (putBits (s.getReg a).toNat lo len v))

/-- One bit of a stored live register. -/
def State.bit (s : State) (n : RegName) (i k : Nat) : Bool := bitOf (s.getReg (regAddr n i)).toNat k

def State.setBit (s : State) (n : RegName) (i k : Nat) : State := s.setField n i 0 k 1 1
def State.clearBit (s : State) (n : RegName) (i k : Nat) : State := s.setField n i 0 k 1 0

/-- Notes W1C bits of a register as raised in this tick. -/
def State.noteRaised (s : State) (a mask : Nat) : State :=
  { s with raised := Table.set 0 s.raised a (Table.get 0 s.raised a ||| mask) }

/-- Raises a W1C bit: when a clear and a new event fall in one tick, the bit stays set (register tables of the spec). -/
def State.raiseBit (s : State) (n : RegName) (i k : Nat) : State := (s.setBit n i k).noteRaised (regAddr n i) (2 ^ k)

/-- The bits of a W1C clear that clear: those of the register not raised in this tick. -/
def State.clears (s : State) (a mask : Nat) : Nat := mask ^^^ (mask &&& Table.get 0 s.raised a)

/-- A counting field that holds at its largest value. -/
def State.bump (s : State) (n : RegName) (i lo len : Nat) (by_ : Nat := 1) : State :=
  s.setField n i 0 lo len (Nat.min (2 ^ len - 1) (s.field n i 0 lo len + by_))

/-- The ST mask of a register: the mask of its row, without the read-only codes of PRC_PMA_15 and CKP_SCOPE_7. -/
def stMask (r : RegRow) (i : Nat) : Nat :=
  match r.name with
  | .prcPma => if i = 15 then 2 ^ 56 - 1 else r.st
  | .ckpScope => if i = 7 then 2 ^ 60 - 1 else r.st
  | _ => r.st

/-- A value with the bits of a mask taken from another. -/
def maskIn (mask old new : Nat) : Nat := (old ^^^ (old &&& mask)) ||| (new &&& mask)

/-- The exception that R137 records of those of one tick: the lowest dispatch number, then the lowest code. -/
def firstExc (l : List (Nat × Nat × Nat × Nat)) : Option (Nat × Nat × Nat × Nat) :=
  let key (e : Nat × Nat × Nat × Nat) : Nat := e.2.2.2 * 256 + bitsOf e.2.1 0 8
  l.find? (fun e => l.all (fun x => decide (key e ≤ key x)))

/-- TIL_EXC_INFO and TIL_EXC_ADDR of a tile set to an exception's record, or to none. -/
def State.recordExc (s : State) (t : Nat) (e : Option (Nat × Nat × Nat × Nat)) : State :=
  (s.setReg (regAddr .tilExcInfo t) (BitVec.ofNat 64 ((e.map (·.2.1)).getD 0))).setReg (regAddr .tilExcAddr t)
    (BitVec.ofNat 64 ((e.map (·.2.2.1)).getD 0))

/-- A W1C write of TIL_EXC_STATUS (R137, R138): the exceptions of this tick count as raised after it; the record goes once
every bit is clear. -/
def State.clearExc (s : State) (t : Nat) (v : Nat) : State :=
  let x := s.tile t
  let a := regAddr .tilExcStatus t
  let seen := if x.excAt = s.now + 1 then x.excSeen else []
  let old := if x.excAt = s.now + 1 then x.excOld else (s.getReg a).toNat
  let left := old ^^^ (old &&& v)
  let s := s.setReg a (BitVec.ofNat 64 (seen.foldl (fun m e => m ||| 2 ^ e.1) left))
  let s := s.modTile t (fun x => if x.excAt = s.now + 1 then { x with excOld := left } else x)
  if left = 0 then s.recordExc t (firstExc seen) else s

/-- A plain write of a register: RW fields take the value, ST fields only their shadow, W1C bits clear where a one is
written and the event is not of this tick, every other field is left (R9, R389); BRC_COMMIT_REJECT then records the rejection
of this tick (R390). -/
def State.storeReg (s : State) (r : RegRow) (i j : Nat) (v : Word) : State :=
  let a := r.addr i j
  if r.name = .tilExcStatus then s.clearExc i (r.w1c &&& v.toNat) else
  let old := (s.getReg a).toNat
  let live := maskIn r.rw old v.toNat
  let live := live ^^^ (live &&& s.clears a (r.w1c &&& v.toNat))
  let live := if r.name = .brcCommitReject ∧ bitOf live 63 = true ∧ bitOf v.toNat 63 = true then s.brc.rejection.toNat else live
  let s := s.setReg a (BitVec.ofNat 64 live)
  if r.st = 0 then s
  else s.setShadow a (BitVec.ofNat 64 (maskIn (stMask r i) (s.getShadow a).toNat v.toNat))

/-- The node's ID, its job's ID, and the step number. -/
def State.nodeId (s : State) : Nat := s.field .hfiNodeId 0 0 0 16
def State.nodeValid (s : State) : Bool := s.bit .hfiNodeId 0 16
def State.jid (s : State) : Nat := s.field .aksJob 0 0 0 16
def State.stepNo (s : State) : Nat := (s.getReg (regAddr .synStep)).toNat

/-- Step phase (R247). -/
def State.phase (s : State) : Nat := wrapNat 64 ((s.time : Int) - (s.getReg (regAddr .synStepBase)).toNat)

/-- Boot state: phase in progress and STATE (BRC_BOOT_STATUS). -/
def State.bootPhase (s : State) : Nat := s.field .brcBootStatus 0 0 0 3
def State.bootState (s : State) : Nat := s.field .brcBootStatus 0 0 3 2
def State.ready (s : State) : Bool := decide (s.bootState = 1)
def State.fatalHold (s : State) : Bool := decide (s.bootState = 3)

/-- Whether the node does its work: it is not OFF, in no reset hold, and not in BOOT_FAIL, where it serves I3C and does nothing
else until a reset (R380). -/
def State.working (s : State) : Bool := !s.brc.off && s.brc.hold.isNone && decide (s.bootState ≠ 2)

/-- Whether a tile is enabled and not penned: its router is out of bypass (R195). -/
def State.tileOn (s : State) (t : Nat) : Bool :=
  decide (t < 576) && !bitOf (s.getReg (regAddr .pfbPenMap (t / 64))).toNat (t % 64)

def State.corePenned (s : State) (c : Nat) : Bool := s.bit .prcCoreStatus 0 c
def State.enginePenned (s : State) (e : Nat) : Bool := s.bit .akmPenUnits 0 e
def State.pcPenned (s : State) (n : Nat) : Bool := bitOf (s.getReg (regAddr .memPenMap (n / 64))).toNat (n % 64)

/-- Whether a unit is enabled and not penned: a tile, core, engine or pseudo-channel. -/
def State.unitOn (s : State) (kind index : Nat) : Bool :=
  match kind with
  | 0 => s.tileOn index
  | 1 => decide (index < 64) && !s.corePenned index
  | 2 => decide (index < 16) && !s.enginePenned index
  | _ => decide (index < 512) && !s.pcPenned index

/-- Whether a unit is penned as this tick ends. -/
def State.penIsDue (s : State) (kind index : Nat) : Bool := s.penDue.any (fun e => decide (e.1 = kind) && decide (e.2.1 = index))

/-- A unit that is enabled and not penned is to be penned as this tick ends: every other event of the unit in the tick takes
effect first (R413, R417). -/
def State.duePen (s : State) (kind index : Nat) (reason : Option Nat) : State :=
  if s.unitOn kind index ∧ s.penIsDue kind index = false then { s with penDue := s.penDue ++ [(kind, index, reason)] } else s

/-- Whether the owner of a tally is penned or not enabled (R229). -/
def State.tallyOwnerOff (s : State) (i : Nat) : Bool :=
  if i < 110592 then !s.tileOn (i / 192)
  else if i < 122880 then s.corePenned ((i - 110592) / 192)
  else if i < 126976 then s.enginePenned ((i - 122880) / 256)
  else false

/-- The endpoint that serves a tally (R18, R443). -/
def tallyEp (i : Nat) : Nat :=
  if i < 110592 then i / 192
  else if i < 122880 then 608 + ((i - 110592) / 192) % 16
  else if i < 126976 then 624 + (i - 122880) / 256
  else if i < 129024 then 640 + (i - 126976) / 128
  else if i < 130048 then 656
  else if i < 130560 then 658
  else 659

/-! ### Byte memories -/

/-- The canonical form of a byte memory whose unlisted bytes read `d`. -/
def Memory.wf (d : Byte) (m : List Host.Cell) : Bool := Table.wf d m

/-- `n` bytes of a memory from an address up. -/
def Memory.read (d : Byte) (m : List Host.Cell) (a : Nat) : Nat → List Byte
  | 0 => []
  | n + 1 => Table.get d m a :: Memory.read d m (a + 1) n

/-- A memory after writing bytes from an address up. -/
def Memory.write (d : Byte) (m : List Host.Cell) (a : Nat) : List Byte → List Host.Cell
  | [] => m
  | b :: l => Memory.write d (Table.set d m a b) (a + 1) l

/-- A memory with every byte of a range as an unlisted byte reads. -/
def Memory.clear (m : List Host.Cell) (lo n : Nat) : List Host.Cell :=
  m.filter (fun c => !(decide (lo ≤ c.1) && decide (c.1 < lo + n)))

def State.readMem (s : State) (a n : Nat) : List Byte := Memory.read 0 s.mem a n
def State.writeMem (s : State) (a : Nat) (b : List Byte) : State := { s with mem := Memory.write 0 s.mem a b }
def State.clearMem (s : State) (a n : Nat) : State := { s with mem := Memory.clear s.mem a n }

/-- What an erased flash byte reads (log entry 6). -/
def flashErased : Byte := 0xFF

def State.readFlash (s : State) (a n : Nat) : List Byte := Memory.read flashErased s.flash a n

/-- Programming clears bits: a byte becomes the and of old and new, as NOR flash does (log entry 6). -/
def State.programFlash (s : State) (a : Nat) (b : List Byte) : State :=
  let old := Memory.read flashErased s.flash a b.length
  { s with flash := Memory.write flashErased s.flash a (List.zipWith (· &&& ·) old b) }

def State.eraseFlash (s : State) (a : Nat) : State := { s with flash := Memory.clear s.flash a 0x10000 }

/-! ### The address map (R11 to R15) -/

/-- What an LPA addresses. -/
inductive Place where
  | stacked
  | dump
  | sram (t off : Nat)
  | commons
  | engineMem (e off : Nat)
  | register
  | nothing
  deriving DecidableEq, Repr

/-- The address map. -/
def placeOf (a : Nat) : Place :=
  if a < 0x7F00000000 then .stacked
  else if a < 0x8000000000 then .dump
  else if a < 0x10000000000 then .nothing
  else if a < 0x10120000000 then
    let t := (a - 0x10000000000) / 0x800000
    let o := (a - 0x10000000000) % 0x800000
    if o < 0x600000 then .sram t o else .nothing
  else if a < 0x20000000000 then .nothing
  else if a < 0x20002000000 then .commons
  else if a < 0x30000000000 then .nothing
  else if a < 0x30010000000 then
    let e := (a - 0x30000000000) / 0x1000000
    let o := (a - 0x30000000000) % 0x1000000
    if o < 0x600000 then .engineMem e o else .nothing
  else if 0xF0000000000 ≤ a ∧ a < 0xFD000000000 then .register
  else .nothing

/-- The first byte of a tile's SRAM window, of commons SRAM and of an engine's memories. -/
def sramBase (t : Nat) : Nat := 0x10000000000 + t * 0x800000
def commonsBase : Nat := 0x20000000000
def engineBase (e : Nat) : Nat := 0x30000000000 + e * 0x1000000

/-- Whether an LPA lies in the reserve of the committed cut policy (R339). -/
def State.inReserve (s : State) (a : Nat) : Bool :=
  let first := s.field .ckpCutCfg 0 0 23 9
  let count := s.field .ckpCutCfg 0 0 32 10
  let r := a / 0x40000000
  decide (a < 0x8000000000) && decide (first ≤ r) && decide (r < first + count)

/-- map_wide of R204: pseudo-channel and address in it. -/
def mapWide (a : Nat) : Nat × Nat :=
  let r := bitsOf a 30 9
  let sel := bitsOf a 8 9 ^^^ bitsOf a 17 9 ^^^ bitsOf a 26 4
  let st := bitsOf sel 4 3
  let q := bitsOf sel 2 2
  let c := bitsOf sel 7 2 * 4 + bitsOf sel 0 2
  (64 * st + 16 * q + c, r * 0x200000 + bitsOf a 17 13 * 256 + bitsOf a 0 8)

/-- map_local of R204. -/
def mapLocal (a : Nat) : Nat × Nat :=
  let r := bitsOf a 30 9
  let d := r % 4
  let m := r / 4
  let sel := bitsOf a 8 7 ^^^ bitsOf a 15 7 ^^^ bitsOf a 22 7
  let st := 2 * d + bitsOf sel 2 1
  let q := bitsOf sel 3 2
  let c := bitsOf sel 5 2 * 4 + bitsOf sel 0 2
  (64 * st + 16 * q + c, m * 0x800000 + bitsOf a 15 15 * 256 + bitsOf a 0 8)

/-- The mode of a region: true for die-local (R203). -/
def State.regionLocal (s : State) (r : Nat) : Bool := bitOf (s.getReg (regAddr .memMode (r / 64))).toNat (r % 64)

/-- The pseudo-channel of an LPA in stacked memory, and the address in it (R203, R204). -/
def State.pcOf (s : State) (a : Nat) : Nat × Nat := if s.regionLocal (a / 0x40000000) then mapLocal a else mapWide a

/-- The endpoint that holds an LPA (R175, R202, R443). -/
def State.epOf (s : State) (a : Nat) : Option Nat :=
  match placeOf a with
  | .stacked => some (576 + (s.pcOf a).1 / 16)
  | .dump => some (576 + (s.pcOf a).1 / 16)
  | .sram t _ => some t
  | .commons => some (608 + (a / 1024) % 16)
  | .engineMem e _ => some (624 + e)
  | .register => none
  | .nothing => none

/-! ### Events (R373, R411) -/

/-- Records an event in the ring, or counts it as lost when the ring is full (R373). -/
def State.ringEvent (s : State) (code ep : Nat) (data : List Byte) : State :=
  if s.hec.ring.length < 4096 then
    let e : Event := { num := s.hec.nextEvent, time := s.time, code := code, ep := ep, data := (padTo 44 data).take 44 }
    { s with hec := { s.hec with ring := s.hec.ring ++ [e], nextEvent := s.hec.nextEvent + 1 } }
  else s.bump .hecEvtStatus 0 32 32

/-- An MSI: the identity becomes pending in a core's file (R296). -/
def State.raiseMsi (s : State) (c : Nat) (sup : Bool) (id : Nat) : State :=
  if c < 64 ∧ 0 < id ∧ id ≤ 255 then
    s.modCore c (fun x =>
      if sup then { x with imsicS := { x.imsicS with pend := x.imsicS.pend ||| 2 ^ id } }
      else { x with imsicM := { x.imsicM with pend := x.imsicM.pend ||| 2 ^ id } })
  else s

/-- The APLIC domain of a level of privilege. -/
def State.aplic (s : State) (sup : Bool) : Aplic := if sup then s.aplicS else s.aplicM
def State.setAplic (s : State) (sup : Bool) (d : Aplic) : State := if sup then { s with aplicS := d } else { s with aplicM := d }

/-- The mode of a source in a domain. -/
def State.sourceMode (s : State) (sup : Bool) (k : Nat) : Nat := Machine.sourceMode s.aplicM s.aplicS sup k

/-- An MSI of an APLIC domain, written to the address that its registers give the hart; one that meets no IMSIC file is lost (log
entry 14). -/
def State.sendMsi (s : State) (sup : Bool) (hart id : Nat) : State :=
  match aiaFrame (s.aplicM.msiAddress sup hart) with
  | some (.imsic c file 0) => s.raiseMsi c file id
  | _ => s

/-- Sends the pending and enabled sources of a domain as MSIs, lowest first (R296). -/
def aplicForward (sup : Bool) (s : State) : State :=
  forEach (List.range 64) (fun k s =>
    let d := s.aplic sup
    if bitOf d.pend k && bitOf d.enab k && bitOf d.domaincfg 8 then
      let tgt := Table.get 0 d.target k
      (s.setAplic sup { d with pend := d.pend ^^^ 2 ^ k }).sendMsi sup (bitsOf tgt 18 14) (bitsOf tgt 0 11)
    else s) s

/-- The rectified input of a source in a domain, its wire at `now`, follows one at `before`: a rise makes it pending, a level that is
low is not, and an inactive source keeps nothing. -/
def settleDomain (k : Nat) (before wire : Bool) (sup : Bool) (s : State) : State :=
  let d := s.aplic sup
  let mode := s.sourceMode sup k
  let now := rectified mode wire
  let d := if mode = 0 then d.drop k
    else if now && !before then { d with pend := d.pend ||| 2 ^ k }
    else if !now && decide (6 ≤ mode) then { d with pend := d.pend ^^^ (d.pend &&& 2 ^ k) }
    else d
  aplicForward sup (s.setAplic sup d)

/-- The wire of a source goes from one level to another. -/
def State.wireTo (s : State) (k : Nat) (was wire : Bool) : State :=
  forEach [false, true] (fun sup s => settleDomain k (rectified (s.sourceMode sup k) was) wire sup s) s

/-- The level of a source's wire: that of source 2 while a doorbell waits (R374), of the others as last settled. -/
def State.wire (s : State) (k : Nat) : Bool := if k = 2 then !s.hec.doorbells.isEmpty else bitOf s.wires k

/-- The wire of a source other than 2 takes a level. -/
def State.setWire (s : State) (k : Nat) (level : Bool) : State :=
  if bitOf s.wires k = level then s
  else State.wireTo { s with wires := s.wires ^^^ 2 ^ k } k (bitOf s.wires k) level

/-- A wired event of a source (R296): its level rises, and holds to the end of the tick at least (log entry 14). -/
def State.raiseSource (s : State) (k : Nat) : State := s.setWire k true

/-- Whether something that a source reports still stands in the register that holds it: CKP's errors, an enabled bit of an engine's
status, UNLOCK or a late hurdle, an HFI error or a saturation. AKM's events leave nothing that stands (log entry 14). -/
def State.sourceStands (s : State) (k : Nat) : Bool :=
  match k with
  | 3 => decide (s.field .ckpStatus 0 0 0 4 ≠ 0)
  | 4 => (List.range 16).any (fun e => decide ((s.getReg (regAddr .marStatus e) &&& s.getReg (regAddr .marEventEn e)).toNat ≠ 0))
  | 5 => s.bit .synTimeStatus 0 3 || s.hurdles.any (fun h => h.2.late)
  | 6 => decide (s.field .hfiErrStatus 0 0 0 6 ≠ 0 ∨ s.getReg (regAddr .hfiSatStatus) ≠ 0)
  | _ => false

/-- The wires at the end of a tick: each stays high while what raised it stands (log entry 14). -/
def State.settleWires (s : State) : State := forEach [1, 3, 4, 5, 6] (fun k s => s.setWire k (s.sourceStands k)) s

/-- The doorbell FIFO changes, and the wire of source 2 with it (R374). -/
def State.setDoorbells (s : State) (l : List Word) : State :=
  let t := { s with hec := { s.hec with doorbells := l } }
  t.wireTo 2 (s.wire 2) (t.wire 2)

/-- Ticks in the 1 ms of R411. -/
def eventWindow : Nat := 1250000

/-- AKM raises an event of a source endpoint, and of a unit where the endpoint has several that raise it: to the ring, to APLIC
source 1, and for the classes PENNED and FATAL as an I3C in-band interrupt where a controller has given the target an address and
left interrupts enabled (R386); at most once in 1 ms for each code and source (R411; log entry 48). -/
def State.akmEvent (s : State) (code cls ep : Nat) (data : List Byte) (unit : Nat := 0) : State :=
  let key := (code, ep + 1024 * unit)
  let recent := s.akm.lastEvent.any (fun x => decide (x.1 = key) && decide (s.now < x.2 + eventWindow))
  if recent then s else
  let s := { s with akm := { s.akm with
    lastEvent := (key, s.now) :: s.akm.lastEvent.filter (fun x => decide (x.1 ≠ key)) } }
  let s := s.ringEvent code ep data
  let s := s.raiseSource 1
  if (cls = 2 ∨ cls = 3) ∧ bitOf s.brc.i3cEvents 0 ∧ s.brc.da.isSome then
    { s with brc := { s.brc with ibi := s.brc.ibi ++ [cls] } }
  else s

/-- The REMOTE_TMO report of a failed remote request (R270, R235, R274). -/
def State.remoteTmo (s : State) (ep node code : Nat) : State :=
  s.akmEvent 0x0015 1 ep (bytesOf 2 node ++ bytesOf 1 code)

/-- A LINK event: kind, link, what happened (R411). -/
def State.linkEvent (s : State) (kind link what : Nat) (ep : Nat) : State :=
  (s.akmEvent 0x0016 1 ep (bytesOf 1 kind ++ bytesOf 1 link ++ bytesOf 1 what) link).raiseSource 6

/-- HURDLE_ROUND and HURDLE_LATE (R235, R238). -/
def State.hurdleEvent (s : State) (h kind : Nat) : State :=
  let s := s.akmEvent 0x0017 1 659 (bytesOf 2 h ++ bytesOf 1 kind) h
  if kind = 0 then s.raiseSource 5 else s

/-- The CKP event, to AKM and on APLIC source 3 (R335). -/
def State.ckpEvent (s : State) : State :=
  (s.akmEvent 0x001A 1 658 (bytesOf 1 (putBits (s.field .ckpStatus 0 0 0 8) 4 1 (if s.ckp.fleece.isSome then 1 else 0)))).raiseSource 3

/-- A rejected commit: REJECTED of its register, BRC_COMMIT_REJECT when free, and the event (R390). -/
def State.rejectCommit (s : State) (n : RegName) (i rejBit block group index : Nat) : State :=
  let s := s.setBit n i rejBit
  let a := regAddr .brcCommitReject
  let word : Word := BitVec.ofNat 64 (block + group * 2 ^ 8 + index * 2 ^ 16 + 2 ^ 63)
  let s := if bitOf (Table.get 0 s.raised a) 63 then s else { s with brc := { s.brc with rejection := word } }
  let s := (if s.bit .brcCommitReject 0 63 then s else s.setReg a word).noteRaised a (2 ^ 63)
  s.akmEvent 0x001C 1 660 (bytesOf 8 (s.getReg (regAddr .brcCommitReject)).toNat)

/-! ### Requests (R187) -/

/-- The stop of an endpoint (R173, R174). `k` is the memory stop. -/
def stopOf (ep k : Nat) : Option Stop :=
  if ep < 576 then some (.tile (ep % 24) (ep / 24))
  else if ep < 608 then some (.mem ep k)
  else if ep < 624 then some (.west (12 * ((ep - 608) / 8) + 3 * ((ep - 608) % 8) / 2))
  else if ep < 640 then some (.west (12 * ((ep - 624) / 8) + 3 * ((ep - 624) % 8) / 2))
  else if ep < 656 then some (.east (3 * (ep - 640) / 2))
  else match ep with
    | 656 => some (.east 2)
    | 658 => some (.east 5)
    | 660 => some (.east 8)
    | 659 => some (.east 11)
    | 657 => some (.east 14)
    | 661 => some (.east 17)
    | _ => none

/-- The stop an endpoint's own packets enter at. -/
def homeStop (ep : Nat) : Stop := (stopOf ep 0).getD (.east 5)

/-- Puts a packet into the fabric at its source stop. -/
def State.inject (s : State) (src : Stop) (pkt : Packet) (glob : Bool := false)
    (via : Option (Nat × Nat) := none) : State :=
  { s with flights := s.flights ++ [{ pkt := pkt, src := src, dst := src, stop := src, glob := glob, via := via }] }

/-- An agent sends a request: the next SEQ of its endpoint, the node's JID and ID, a record of its purpose, and the
packet at its stop. `glob` marks a Holtim global address (R263). -/
def State.sendAs (s : State) (ep jid : Nat) (purpose : Purpose) (pkt : Packet) (glob : Bool := false) : State :=
  let seq := Table.get 0 s.seqs ep
  let pkt := { pkt with srcEp := ep, srcNode := s.nodeId, seq := seq, jid := jid,
                          dstNode := if glob then pkt.dstNode else s.nodeId }
  let rq : Request := { ep := ep, seq := seq, purpose := purpose, pkt := pkt }
  let s := { s with seqs := Table.set 0 s.seqs ep ((seq + 1) % 65536), requests := s.requests ++ [rq] }
  s.inject (homeStop ep) pkt glob

/-- As `sendAs` with the node's own JID (R404). -/
def State.send (s : State) (ep : Nat) (purpose : Purpose) (pkt : Packet) (glob : Bool := false) : State :=
  s.sendAs ep s.jid purpose pkt glob

/-- Whether some outstanding request has a purpose of a kind. -/
def State.awaits (s : State) (f : Purpose → Bool) : Bool := s.requests.any (fun r => f r.purpose)

/-- How many outstanding requests have a purpose of a kind. -/
def State.awaited (s : State) (f : Purpose → Bool) : Nat := (s.requests.filter (fun r => f r.purpose)).length

/-- A copy of N sectors cut at the 1 KiB boundaries of its far-side address: offset of each piece in the copy and its
sectors (R98). `fuel` bounds the pieces. -/
def piecesFrom (far off : Nat) : Nat → Nat → List (Nat × Nat)
  | 0, _ => []
  | fuel + 1, n =>
    if n = 0 then [] else
    let room := (1024 - (far + off) % 1024) / 32
    let k := Nat.min n (if room = 0 then 1 else room)
    (off, k) :: piecesFrom far (off + 32 * k) fuel (n - k)

def pieces (far n : Nat) : List (Nat × Nat) := piecesFrom far 0 (n + 1) n

/-- The credit packet of a tally word (R100, R102): to a tally of this node or of another. -/
def creditPacket (node : Option Nat) (tally amount : Nat) (terr : Bool) : Packet :=
  { opcode := opCREDIT, cls := clsSYNC, tally, credit := amount, terr, dstNode := node.getD 0 }

/-- The parts of a tally word in the STORE extension layout: mode, node, tally, credit. -/
def tallyWord (w : Nat) : Nat × Nat × Nat × Nat := (bitsOf w 62 2, bitsOf w 46 16, bitsOf w 29 17, bitsOf w 0 16)

/-- The node a tally word names: none for this node. -/
def tallyNode (w : Nat) : Option Nat := if bitsOf w 62 2 = 2 then some (bitsOf w 46 16) else none

/-- Whether a tally word carries a credit (R102). -/
def carriesCredit (w : Nat) : Bool := decide (bitsOf w 62 2 ≠ 0) && decide (bitsOf w 0 16 ≠ 0)

/-- A Holtim global address in 64 bits: node ID, window, 40-bit offset (R113; log entry 9). -/
def globalNode (a : Nat) : Nat := bitsOf a 48 16
def globalWindow (a : Nat) : Nat := bitsOf a 40 8
def globalOffset (a : Nat) : Nat := bitsOf a 0 40

/-- The address fields of a request to an LPA or a global address, at an offset from it. -/
def addressed (p : Packet) (glb : Bool) (a off : Nat) : Packet :=
  if glb then { p with dstNode := globalNode a, window := globalWindow a, offset := (globalOffset a + off) % 2 ^ 40 }
  else { p with offset := (a + off) % 2 ^ 48 }

/-- The poison sectors of R273 for an ERR code: the word 0x7FF4_7F80 + c. -/
def poisonSectors (c n : Nat) : List Byte := (List.replicate (8 * n) (bytesOf 4 (0x7FF47F80 + c))).flatten

/-- A credit of `c` applied to a tally (R225). -/
def Tally.credit (x : Tally) (c : Nat) (terr : Bool) : Tally :=
  if c = 0 then x else { count := (x.count + c) % 2 ^ 32, err := x.err || terr }

/-- Whether a count has come the distance from a mark (R226): none where the spec leaves it open, since count − mark is
2^31 or more. -/
def waitDone (count mark d : Nat) : Option Bool :=
  let diff := wrapNat 32 ((count : Int) - mark)
  if d = 0 then some true
  else if diff < 2 ^ 31 then some (decide (d ≤ diff))
  else none

/-- As `waitDone`, with the free choice of R226 where it is open. -/
def State.waitMet (s : State) (count mark d : Nat) : Bool := (waitDone count mark d).getD (Config.freeBool s.freeCtr)

/-- An armed hurdle's participant map has an agent (R230). -/
def State.inMap (s : State) (h agent : Nat) : Bool :=
  decide (agent < 704) && bitOf (s.getReg (regAddr .synHmap h (agent / 64))).toNat (agent % 64)

def State.armed (s : State) (h : Nat) : Bool := s.bit .synHcfg h 0
def State.xnode (s : State) (h : Nat) : Bool := s.bit .synHcfg h 1
def State.launchHurdle (s : State) : Nat := s.field .synDesig 0 0 0 10
def State.stepHurdle (s : State) : Nat := s.field .synDesig 0 0 10 10
def State.cutHurdle (s : State) : Nat := s.field .synDesig 0 0 20 10

/-- The agent indices of a hurdle's participants (R230), in ascending order. -/
def State.participants (s : State) (h : Nat) : List Nat := (List.range 704).filter (fun a => s.inMap h a)

/-- Whether any hurdle is armed. -/
def State.anyArmed (s : State) : Bool := (List.range 1024).any (fun h => s.armed h)

end Sys2Proof.Machine
end

