-- ==== Sys2Proof/Machine/RegAccess.lean ====
section
/-! DEFINITION. Reading a register: stored values, status that follows the state, staged views and the 32-bit AIA frames;
and the commit of a group of staged fields (R389, R390). -/

namespace Sys2Proof.Machine

/-- PLANE_EFF of R262. -/
def State.planeEff (s : State) : Nat :=
  (List.range 16).foldl (fun m p =>
    if bitOf (s.field .hfiPlane 0 0 0 16) p ∧ s.bit .hfiPortStatus p 0 ∧ ¬ s.bit .hfiPortStatus p 2
        ∧ ¬ s.bit .hfiPortStatus p 3 then m + 2 ^ p else m) 0

/-- STATE of SYN_HSTAT (the hurdle-state table). -/
def State.hurdleState (s : State) (h : Nat) : Nat :=
  let x := s.hurdle h
  if ¬ s.armed h then 0 else if x.trel.isSome then 3 else if x.sent then 2 else 1

/-- QBUSY of TIL_STATE, in the unit order of R105. -/
def Queues.busy (q : Queues) : Nat :=
  (if q.load.isEmpty then 0 else 1) + (if q.matrix.isEmpty then 0 else 2) + (if q.vector.isEmpty then 0 else 4)
    + (if q.store.isEmpty then 0 else 8) + (if q.sync.isEmpty then 0 else 16)

/-- The number a state of a tile reads as. -/
def RunState.code : RunState → Nat
  | .idle => 0
  | .running => 1
  | .halted => 2

def MarState.code : MarState → Nat
  | .idle => 0
  | .running => 1
  | .stopped => 2

/-- The phase code of a solve at an offset from its first tick. -/
def phaseAt (phases : List (Nat × Nat)) (off : Nat) : Nat :=
  phases.foldl (fun p x => if x.1 ≤ off then x.2 else p) 0

/-- WAITING of MAR_STATE: in a TWAIT, HWAIT or HARRW, and not in a HARR. -/
def Engine.waiting (g : Engine) : Bool :=
  match g.wait with
  | none => false
  | some (.arrive _ thenWait) => thenWait
  | some _ => true

/-- PHASE of MAR_STATE: of the solve that runs, else 0. -/
def State.enginePhase (s : State) (e : Nat) : Nat :=
  match (s.engine e).solve with
  | none => 0
  | some r => phaseAt r.phases (s.now - r.start)

/-- How many chunks of the launch image are held (R353). -/
def State.chunkHeld (s : State) (k : Nat) : Bool := decide (Table.get 0 s.ckp.pieces k = 2 ^ 64 - 1)

def State.chunksHeld (s : State) : Nat := (s.ckp.pieces.filter (fun e => decide (e.2 = 2 ^ 64 - 1))).length

/-- The open sessions' slots as bits. -/
def State.openSlots (s : State) : Nat := s.hec.sessions.foldl (fun m e => m + 2 ^ e.1) 0

/-- What a register reads: its stored value with the fields that follow other state put in. -/
def State.readNamed (s : State) (r : RegRow) (i j : Nat) : Word :=
  let v := (s.getReg (r.addr i j)).toNat
  let w : Nat := match r.name with
    | .tilState =>
      let t := s.tile i
      t.state.code + 4 * t.queues.busy + (t.disp % 2 ^ 32) * 2 ^ 8 + (t.fetch % 2 ^ 20) * 2 ^ 40
    | .tilSeqShadow => (s.getShadow (regAddr .tilSeqProg i)).toNat
    | .memModeShadow => (s.getShadow (regAddr .memMode i)).toNat
    | .memSnapStatus => s.snap.length + s.heldWrites.length * 2 ^ 24
    | .synTally => (s.tally i).count + (if (s.tally i).err then 2 ^ 32 else 0)
    | .synTime => s.time
    | .prcMtime => s.time
    | .synPhase => s.phase
    | .synHstat =>
      let h := s.hurdle i
      h.round % 2 ^ 32 + h.arrived.length * 2 ^ 32 + s.hurdleState i * 2 ^ 42 + (if h.late then 2 ^ 44 else 0)
    | .synHrel => (s.hurdle i).last
    | .hfiPlaneEff => s.planeEff
    | .hfiPortStatus => putBits v 1 1 (if bitOf s.planeEff i then 1 else 0)
    | .prcPma => if i = 15 then putBits v 56 8 0x55 else v
    | .marState =>
      let e := s.engine i
      e.state.code + (if e.waiting then 4 else 0) + e.cmd % 512 * 2 ^ 3 + e.sys * 2 ^ 12
        + s.enginePhase i * 2 ^ 18
    | .ckpStatus => putBits v 4 1 (if s.ckp.fleece.isSome then 1 else 0)
    | .ckpLaunchStatus => putBits v 3 17 s.chunksHeld
    | .ckpLaunchHeld => (List.range 64).foldl (fun m k => if s.chunkHeld (64 * i + k) then m + 2 ^ k else m) 0
    | .hecSessStatus => putBits v 0 16 s.openSlots
    | .hecEvtStatus => putBits v 0 13 s.hec.ring.length
    | .hecDbStatus => s.hec.doorbells.length
    | .hecDbPop => (s.hec.doorbells.headD 0).toNat
    | .akmFatal =>
      match s.akm.holdUntil with
      | some t => putBits v 40 16 ((t - s.now) / 1250000000)
      | none => v
    | _ => v
  BitVec.ofNat 64 w

/-- Whether an offset of an AIA frame names a register: seteipnum_le and seteipnum_be of an IMSIC file, the registers of a domain
(R15, log entry 14). -/
def AiaFrame.named : AiaFrame → Bool
  | .imsic _ _ off => decide (off = 0) || decide (off = 4)
  | .aplic _ off => aplicNames off

/-- The rectified inputs of a domain's sources. -/
def State.aplicInputs (s : State) (sup : Bool) : Nat := sourceMask (fun k => rectified (s.sourceMode sup k) (s.wire k))

/-- A write of a 32-bit register of an APLIC domain (log entry 14); what is then pending and enabled goes out. -/
def State.writeAplic (s : State) (sup : Bool) (off v : Nat) : State :=
  let d := s.aplic sup
  let k := off / 4
  if 0 < k ∧ k < 64 then
    if sup && !bitOf (Table.get 0 s.aplicM.sourcecfg k) 10 then s else
    let before (x : Bool) : Bool := rectified (s.sourceMode x k) (s.wire k)
    let s := s.setAplic sup { d with sourcecfg := Table.set 0 d.sourcecfg k (sourceConfig sup v) }
    let s := if bitOf (Table.get 0 s.aplicM.sourcecfg k) 10 then s
      else s.setAplic true { s.aplicS with sourcecfg := Table.set 0 s.aplicS.sourcecfg k 0 }
    forEach [false, true] (fun x s => settleDomain k (before x) (s.wire k) x s) s
  else
    let active := sourceMask (fun k => decide (s.sourceMode sup k ≠ 0))
    let pendable := sourceMask (fun k =>
      let mode := s.sourceMode sup k
      decide (mode ≠ 0) && (decide (mode < 6) || rectified mode (s.wire k)))
    let s := s.setAplic sup (d.write sup active pendable off v)
    let s := if off = 0x3000 then s.sendMsi sup (bitsOf v 18 14) (bitsOf v 0 11) else s
    aplicForward sup s

/-- Whether an address lies in the TIL block of a tile whose router is in bypass: every request there is answered PENNED, whether
or not it names a register (R15, R196). -/
def State.inPennedBlock (s : State) (a : Nat) : Bool :=
  decide (0x0F0000000000 ≤ a) && decide (a < 0x0F0002400000) && !s.tileOn ((a - 0x0F0000000000) / 0x10000)

/-- A read of register space: the ERR code or 0, and the value (R15, R229, R13). -/
def State.readRegister (s : State) (a : Nat) : Nat × Word :=
  match aiaFrame a with
  | some f =>
    if f.named = false then (errUNMAPPED, 0) else
    (match f with
    | .imsic _ _ _ => (0, 0)
    | .aplic sup off => (0, BitVec.ofNat 64 ((s.aplic sup).read (s.aplicInputs sup) off)))
  | none =>
    if s.inPennedBlock a then (errPENNED, 0) else
    match lookupReg a with
    | some (r, i, j) =>
      if r.name = .synTally ∧ s.tallyOwnerOff i then (errPENNED, 0)
      else (0, s.readNamed r i j)
    | none =>
      match shadowTarget a with
      | some b => (0, s.getShadow b)
      | none => (errUNMAPPED, 0)

/-- The live value of one ST register taken from a staged value (R389). -/
def State.applyStaged (s : State) (a : Nat) (v : Word) : State :=
  match lookupReg a with
  | some (r, i, _) => s.setReg a (BitVec.ofNat 64 (maskIn (stMask r i) (s.getReg a).toNat v.toNat))
  | none => s

/-- A GO write of a group whose safe point is the tick of capture (R389): rejected under its rule, or every field of the
group takes its staged value, and what follows from it happens. -/
def commitNow (n : RegName) (i goBit rejBit block group index : Nat) (addrs : List Nat) (v : Word)
    (bad : State → Bool) (after : State → State) (s : State) : State :=
  if ¬ bitOf v.toNat goBit then s else
  let s := s.clearBit n i rejBit
  if bad s then s.rejectCommit n i rejBit block group index
  else after (forEach addrs (fun a s => s.applyStaged a (s.getShadow a)) s)

/-- A GO write of a group with a later safe point: nothing while PENDING is 1, else PENDING is set and the staged values
are captured (R389). -/
def commitCapture (n : RegName) (goBit pendBit rejBit : Nat) (addrs : List Nat) (v : Word) (s : State) : State :=
  if ¬ bitOf v.toNat goBit ∨ s.bit n 0 pendBit then s else
  let s := (s.clearBit n 0 rejBit).setBit n 0 pendBit
  { s with captured := s.captured ++ addrs.map (fun a => (a, s.getShadow a)) }

/-- The value that a GO captured of a staged register (R389). -/
def State.capturedValue (s : State) (a : Nat) : Word := ((s.captured.find? (fun e => decide (e.1 = a))).map (·.2)).getD 0

/-- Applies or rejects a captured group at its safe point (R389). `badValue` judges the captured values. -/
def commitApply (n : RegName) (pendBit rejBit block group : Nat) (addrs : List Nat)
    (bad : (Nat → Word) → State → Bool) (after : State → State) (s : State) : State :=
  if ¬ s.bit n 0 pendBit then s else
  let value := s.capturedValue
  let s := s.clearBit n 0 pendBit
  let s := { s with captured := s.captured.filter (fun e => !addrs.elem e.1) }
  if bad value s then s.rejectCommit n 0 rejBit block group 0
  else after (forEach addrs (fun a s => s.applyStaged a (value a)) s)

/-! ### Register commands -/

/-- A register access answered: ERR code or 0, and a value. -/
def answering (code : Nat) (v : Word) (s : State) : State := { s with answer := (code, v) }

/-- Whether a requester may address register space: cores in M or S mode, the HEC engine, AKM (R14, R283). A core in U
mode takes an access fault; here its access is answered UNMAPPED. -/
def mayAddress : Requester → Bool
  | .core _ user => !user
  | .hec _ => true
  | .akm => true
  | _ => false

/-- A write of a register with an effect of its own: UNMAPPED for requesters that R14 shuts out, JOB_DENIED where the
rule of the register refuses the writer, else the effect. -/
def guardedWrite (src : Requester) (denied : Bool) (f : State → State) (s : State) : State :=
  if ¬ mayAddress src then answering errUNMAPPED 0 s
  else if denied then answering errJOB_DENIED 0 s
  else f (answering 0 0 s)

end Sys2Proof.Machine
end

