-- ==== Sys2Proof/Machine/Sectors.lean ====
section
/-! DEFINITION. Sectors of stacked memory as their ports keep them (R206 to R211, R222): the queues of the ports, wrong
symbols and stored poison, correction on a read, and the penning of a pseudo-channel. -/

namespace Sys2Proof.Machine

/-! ### Queues of the ports -/

/-- Opcodes that carry an address. -/
def addressOp (op : Nat) : Bool := [opRD, opWR, opATOM, opSNRD, opSNWR].elem op

/-- The sectors a request touches. -/
def Packet.sectors (p : Packet) : Nat := if p.opcode = opATOM then 1 else p.nsect

/-- Whether two addressed requests touch a common sector. -/
def touches (p q : Packet) : Bool :=
  addressOp p.opcode && addressOp q.opcode && decide (p.offset / 32 < q.offset / 32 + q.sectors)
    && decide (q.offset / 32 < p.offset / 32 + p.sectors)

/-- Whether a request reads only, or is one of those that R221 frees from the snapshot bitmap: no held write comes before it. -/
def passesHeld (op : Nat) : Bool := [opRD, opSNRD, opSNWR].elem op

/-- How many requests wait at an endpoint. -/
def queuedAt (s : State) (ep : Nat) : Nat := (s.delivered.filter (fun a => decide (a.ep = ep))).length

/-- Whether a memory port's queue is full (R217). -/
def queueFull (s : State) (ep : Nat) : Bool := decide (576 ≤ ep) && decide (ep < 608) && decide (256 ≤ queuedAt s ep)

/-- How many writes a port holds (R220). -/
def heldAt (s : State) (port : Nat) : Nat := (s.heldWrites.filter (fun h => decide (h.port = port))).length

/-- Whether a memory port takes nothing more from its stops: its queue is full, or its side buffer is (R217, R220). -/
def portStalled (s : State) (ep : Nat) : Bool :=
  queueFull s ep || (decide (576 ≤ ep) && decide (ep < 608) && decide (32 ≤ heldAt s (ep - 576)))

/-- Notes since when a memory port's queue is full. -/
def noteQueue (ep : Nat) (s : State) : State :=
  let k := ep - 576
  if ep < 576 ∨ 608 ≤ ep then s
  else if queueFull s ep then
    (if (Table.get none s.fullSince k).isNone then { s with fullSince := Table.set none s.fullSince k (some s.now) } else s)
  else { s with fullSince := Table.set none s.fullSince k none }

/-- Whether a packet on its way is one of the cores' own to memory of this node. -/
def Flight.ownWrite (f : Flight) : Bool :=
  decide (608 ≤ f.pkt.srcEp) && decide (f.pkt.srcEp < 624) && !f.glob && f.via.isNone && decide (f.pkt.cls = clsREQ)
    && decide (f.pkt.dstNode = f.pkt.srcNode)

/-- Whether a request to a sector or a line of `n` sectors waits at its endpoint, is held there, or is one of the cores' own on
its way to it. -/
def sectorBusy (s : State) (ep lpa n : Nat) (write : Bool) : Bool :=
  let p : Packet := { opcode := if write then opWR else opRD, offset := lpa, nsect := n }
  s.flights.any (fun f => f.ownWrite && touches p f.pkt) || s.delivered.any (fun b => decide (b.ep = ep) && touches p b.pkt)
    || (write && s.heldWrites.any (fun h => decide (h.arr.ep = ep) && touches p h.arr.pkt))

/-- Whether a page is marked in the snapshot bitmap (R219). -/
def State.marked (s : State) (page : Nat) : Bool := Table.get false s.snap page

/-! ### Calibration (R214) -/

/-- The tick of the node timebase at which a stack was last calibrated; 0 before its first calibration (log entry 51). -/
def calibratedAt (s : State) (k : Nat) : Nat := Table.get 0 s.calAt k

/-- Whether a stack is in its calibration window: its pseudo-channels serve no request (R214). -/
def stackCalibrates (s : State) (k : Nat) : Bool :=
  decide (0 < calibratedAt s k) && decide (calibratedAt s k ≤ s.time) && decide (s.time < calibratedAt s k + 1000)

/-- Whether a stack calibrates now. -/
def calibrating (s : State) : Bool := (List.range 8).any (stackCalibrates s)

/-- The pseudo-channels that `n` sectors from an LPA up lie on, where it is stacked memory. -/
def channelsOf (s : State) (base n : Nat) : List Nat :=
  if base < 0x8000000000 then (List.range n).map (fun i => (s.pcOf (base + 32 * i)).1) else []

/-- Whether one of the sectors lies on a stack that calibrates. -/
def stackBusy (s : State) (base n : Nat) : Bool := (channelsOf s base n).any (fun pc => stackCalibrates s (pc / 64))

/-- Whether a core's own access to the sectors must wait at their endpoint (R206, R214, R217, R445): requests that touch
one came before it, the port takes nothing more, or the stack calibrates. -/
def State.portWaits (s : State) (lpa n : Nat) (write : Bool) : Bool :=
  match s.epOf lpa with
  | some ep => sectorBusy s ep lpa n write || portStalled s ep || stackBusy s lpa n
  | none => false

/-- A write or posted atomic of a core that has to wait at its port, behind the requests that came before it (R206, R220). At a
port that takes nothing more it waits on its way there (R217). -/
def State.queueAtPort (s : State) (ep : Nat) (purpose : Purpose) (p : Packet) : State :=
  let at_ := (s.epOf p.offset).getD 0
  let seq := Table.get 0 s.seqs ep
  let p := { p with cls := clsREQ, nsect := 1, srcEp := ep, srcNode := s.nodeId, dstNode := s.nodeId, seq := seq, jid := s.jid,
                      dstEp := at_ }
  let t : State := { s with
    seqs := Table.set 0 s.seqs ep ((seq + 1) % 65536),
    requests := s.requests ++ [{ ep := ep, seq := seq, purpose := purpose, pkt := p }] }
  if portStalled s at_ then t.inject (homeStop ep) p
  else noteQueue at_ { t with delivered := t.delivered ++ [{ ep := at_, k := bitsOf p.offset 10 1, pkt := p }] }

/-! ### Penning of a pseudo-channel (R222, R412) -/

/-- Enabled and unpenned units of a kind: tiles, cores, engines, pseudo-channels. -/
def unitsLeft (s : State) (kind : Nat) : Nat :=
  match kind with
  | 0 => ((List.range 576).filter (fun t => s.tileOn t)).length
  | 1 => ((List.range 64).filter (fun c => !s.corePenned c)).length
  | 2 => ((List.range 16).filter (fun e => !s.enginePenned e)).length
  | _ => ((List.range 512).filter (fun n => !s.pcPenned n)).length

/-- The endpoint an event of a unit names as its source. -/
def unitEp (kind index : Nat) : Nat :=
  match kind with
  | 0 => index
  | 1 => 608 + index % 16
  | 2 => 624 + index
  | _ => 576 + index / 16

/-- The event of a penned unit, with its reason and the count left (R411). -/
def pennedEvent (kind index reason : Nat) (s : State) : State :=
  s.akmEvent 0x0012 2 (unitEp kind index)
    (bytesOf 1 kind ++ bytesOf 2 index ++ bytesOf 1 reason ++ bytesOf 2 (unitsLeft s kind)) index

/-- Sets a bit of MEM_ERR_STATUS, with the first-error record. -/
def memError (bit pc lpa : Nat) (s : State) : State :=
  let s := if s.field .memErrStatus 0 0 0 4 = 0 then
      (s.setField .memErrStatus 0 0 48 9 pc).setReg (regAddr .memErrAddr) (BitVec.ofNat 64 lpa)
    else s
  s.setBit .memErrStatus 0 bit

/-- A pseudo-channel is penned (R222): its map bit, PEN of MEM_ERR_STATUS with the first-error record. -/
def penChannel (n : Nat) (s : State) : State := memError 2 n 0 (s.setBit .memPenMap (n / 64) (n % 64))

/-- An uncorrectable sector met at a pseudo-channel: reason 5 of R412 once two device rows have had one (R448). -/
def noteUncorrectable (n addr : Nat) (s : State) : State :=
  let row := Config.deviceRow n addr
  let rows := Table.get [] s.akm.ueRows n
  let rows := if rows.elem row then rows else row :: rows
  let s := { s with akm := { s.akm with ueRows := Table.set [] s.akm.ueRows n rows } }
  if 2 ≤ rows.length then s.duePen 3 n (some 5) else s

/-- Ticks in a second. -/
def ticksPerSecond : Nat := 1250000000

/-- Corrected sectors of a pseudo-channel: counted, and reason 5 of R412 above 65,536 in 1 s (R210, R412). -/
def noteCorrected (n count : Nat) (s : State) : State :=
  if count = 0 then s else
  let s := s.bump .memErrStatus 0 16 32 count
  let old := (Table.get [] s.akm.ceTimes n).filter (fun t => decide (s.now < t + ticksPerSecond))
  let ts := old ++ List.replicate count s.now
  let s := { s with akm := { s.akm with ceTimes := Table.set [] s.akm.ceTimes n ts } }
  if 65536 < ts.length then s.duePen 3 n (some 5) else s

/-! ### Correction and poison (R209 to R211) -/

/-- The MEM_UE event: a pseudo-channel, or 0xFFFF for SRAM (R411). -/
def memUeEvent (pc lpa ep : Nat) (s : State) : State := s.akmEvent 0x0013 1 ep (bytesOf 2 pc ++ bytesOf 6 lpa) pc

/-- How many symbols of a sector and its check bytes are wrong (R209). -/
def State.wrongAt (s : State) (lpa : Nat) : Nat := Table.get 0 s.wrong (lpa / 32)

/-- Whether a sector is stored poison (R211). -/
def State.poisoned (s : State) (lpa : Nat) : Bool := Table.get false s.poison (lpa / 32)

/-- Errors that have befallen a piece by the time it is read: one wrong symbol in a sector that the command names
corrected, two in one that it names uncorrectable (R209). Stored poison and penned pseudo-channels stay as they are. -/
def strike (ce ue : List Nat) (base n : Nat) (s : State) : State :=
  forEach (List.range n) (fun i s =>
    let lpa := base + 32 * i
    if s.poisoned lpa ∨ s.pcPenned (s.pcOf lpa).1 then s
    else if ue.elem i then { s with wrong := Table.set 0 s.wrong (lpa / 32) (Nat.max 2 (s.wrongAt lpa)) }
    else if ce.elem i then { s with wrong := Table.set 0 s.wrong (lpa / 32) (Nat.max 1 (s.wrongAt lpa)) }
    else s) s

/-- A sector becomes stored poison: bytes 0xFF and the mark (R211). -/
def storePoison (a : Nat) (s : State) : State :=
  let s := s.writeMem a (List.replicate 32 0xFF)
  { s with poison := Table.set false s.poison (a / 32) true, wrong := Table.set 0 s.wrong (a / 32) 0 }

/-- A whole sector written with good check bytes (R209, R211). -/
def State.writeSectorMem (s : State) (lpa : Nat) (b : List Byte) : State :=
  { s.writeMem lpa b with
    poison := Table.set false s.poison (lpa / 32) false,
    wrong := Table.set 0 s.wrong (lpa / 32) 0 }

/-- A sector of stacked memory written that the fabric marked poisoned (R211, R222). -/
def storePoisoned (lpa : Nat) (s : State) : State :=
  let pc := (s.pcOf lpa).1
  if s.pcPenned pc then s else memError 1 pc lpa (storePoison lpa s)

/-- The sectors of a range have good check bytes again and are no poison: they have been written whole. -/
def State.goodFrom (s : State) (base n : Nat) : State :=
  let whole (k : Nat) : Bool := decide (base ≤ 32 * k) && decide (32 * k + 32 ≤ base + 32 * n)
  { s with poison := s.poison.filter (fun e => !whole e.1), wrong := s.wrong.filter (fun e => !whole e.1) }

/-- A read that finds a sector of stacked memory uncorrectable (R211, R412). -/
def foundUncorrectable (lpa : Nat) (s : State) : State :=
  let pc := (s.pcOf lpa).1
  let s := memError 0 pc lpa (storePoison lpa s)
  noteUncorrectable pc (s.pcOf lpa).2 (memUeEvent pc lpa (576 + pc / 16) s)

/-- The code of one sector of stacked memory for a read: penned, poisoned or uncorrectable, or 0 (R208, R209). -/
def sectorCode (s : State) (base i : Nat) : Nat :=
  let lpa := base + 32 * i
  if s.pcPenned (s.pcOf lpa).1 then errMEM_PENNED
  else if s.poisoned lpa ∨ 2 ≤ s.wrongAt lpa then errMEM_UE
  else 0

/-- The code a read of stacked memory gets: that of its lowest failing sector (R208). -/
def pieceCode (s : State) (base n : Nat) : Nat :=
  ((List.range n).map (sectorCode s base)).find? (fun c => decide (c ≠ 0)) |>.getD 0

/-- What a demand read of a piece of stacked memory leaves behind: a sector with one wrong symbol is corrected, written back
and counted, one with more is stored as poison (R209 to R211). -/
def scanPiece (base n : Nat) (s : State) : State :=
  forEach (List.range n) (fun i s =>
    let lpa := base + 32 * i
    let pc := (s.pcOf lpa).1
    if s.pcPenned pc then s
    else match s.wrongAt lpa with
      | 0 => s
      | 1 => noteCorrected pc 1 { s with wrong := Table.set 0 s.wrong (lpa / 32) 0 }
      | _ => foundUncorrectable lpa s) s

/-! ### Double-bit errors of the on-die memories (R410) -/

/-- Bytes that nothing says what they are (log entry 2). -/
def freeBytes (s : State) (k n : Nat) : List Byte := bytesOf n (Config.freeNat (128 * s.freeCtr + k))

/-- Double-bit errors that have befallen sectors of an on-die memory by the time they are read: a command names them by index.
What such a sector holds is free. Stored poison stays. -/
def strikeDie (ue : List Nat) (base n : Nat) (s : State) : State :=
  let hit := (List.range n).filter (fun i => ue.elem i && !s.poisoned (base + 32 * i))
  if hit.isEmpty then s else
  State.fresh (forEach hit (fun i s =>
    { s.writeMem (base + 32 * i) (freeBytes s i 32) with wrong := Table.set 0 s.wrong (base / 32 + i) 2 }) s)

/-- A read meets a double-bit error in SRAM: the tile or engine is penned; a sector of commons SRAM becomes stored poison. -/
def sramError (lpa ep : Nat) (s : State) : State :=
  let s := memUeEvent 0xFFFF lpa ep s
  match placeOf lpa with
  | .sram t _ => s.duePen 0 t (some 3)
  | .engineMem e _ => s.duePen 2 e (some 3)
  | .commons => storePoison lpa s
  | _ => s

/-- What a read of `n` sectors of an on-die memory by anyone leaves behind. -/
def sramMet (base n ep : Nat) (s : State) : State :=
  if s.wrong.isEmpty then s else
  forEach ((List.range n).filter (fun i => decide (2 ≤ s.wrongAt (base + 32 * i)))) (fun i s => sramError (base + 32 * i) ep s) s

/-- Whether `n` sectors of an on-die memory hold no double-bit error. -/
def sramGood (s : State) (base n : Nat) : Bool := (List.range n).all (fun i => decide (s.wrongAt (base + 32 * i) < 2))

/-- What reads of `n` bytes of an on-die memory, from any byte up, leave behind. -/
def bytesMet (a n ep : Nat) (s : State) : State :=
  if n = 0 then s else sramMet (a / 32 * 32) ((a + n + 31) / 32 - a / 32) ep s

/-- Whether bytes of an on-die memory lie in sectors without a double-bit error. -/
def bytesGood (s : State) (a n : Nat) : Bool := decide (n = 0) || sramGood s (a / 32 * 32) ((a + n + 31) / 32 - a / 32)

/-- The code a read of an on-die memory gets: the tile or engine is penned, or a sector is stored poison. -/
def sramCode (s : State) (base n : Nat) : Nat :=
  let bad := (List.range n).any (fun i => decide (2 ≤ s.wrongAt (base + 32 * i)))
  match placeOf base with
  | .sram _ _ => if bad then errPENNED else 0
  | .engineMem e _ => if s.enginePenned e ∨ bad then errPENNED else 0
  | .commons => if bad ∨ (List.range n).any (fun i => s.poisoned (base + 32 * i)) then errMEM_UE else 0
  | _ => errUNMAPPED

/-! ### Reads and writes of the node itself -/

/-- The port repeats a command to a pseudo-channel after a parity error: a command of the table tells of it by index 32
among its corrected sectors (R202, CA_PARITY of MEM_ERR_STATUS; log entry 52). -/
def repeatCommand (ce : List Nat) (base : Nat) (s : State) : State :=
  if ce.elem 32 then memError 3 (s.pcOf base).1 0 s else s

/-- The eight copies of the word 0x7FF4_7F80 + c that stand for a sector whose read got ERR (R273). -/
def pieceOrPoison (s : State) (a n : Nat) : List Byte :=
  let code := pieceCode s a n
  if code ≠ 0 then poisonSectors code n else s.readMem a (32 * n)

/-- A piece as the node's own engines read it, with poison sectors where the read gets ERR (R208, R273), and what the read leaves
behind (R210, R211, R410). -/
def readPiece (a n ep : Nat) (s : State) : List Byte × State :=
  if a < 0x8000000000 then (pieceOrPoison s a n, scanPiece a n s)
  else
    let code := sramCode s a n
    (if code ≠ 0 then poisonSectors code n else s.readMem a (32 * n), sramMet a n ep s)

/-- Pieces of 1 KiB read by the checkpoint engine, one after the other. -/
def readPieces (a : Nat) : Nat → State → List Byte × State
  | 0, s => ([], s)
  | n + 1, s =>
    let b := readPiece a 32 658 s
    let r := readPieces (a + 1024) n b.2
    (b.1 ++ r.1, r.2)

/-- `n` bytes from a sector's first byte up, read by the checkpoint engine in pieces of 1 KiB and a rest. -/
def readOwn (a n : Nat) (s : State) : List Byte × State :=
  let whole := readPieces a (n / 1024) s
  if n % 1024 = 0 then whole
  else
    let rest := readPiece (a + n / 1024 * 1024) ((n % 1024 + 31) / 32) 658 whole.2
    (whole.1 ++ rest.1.take (n % 1024), rest.2)

/-- Whole sectors stored one after the other by the node itself; a sector on a penned pseudo-channel is not written
(R211, R222). -/
def storeWhole (a : Nat) : List Byte → Nat → State → State
  | _, 0, s => s
  | b, n + 1, s =>
    let s := if a < 0x8000000000 ∧ s.pcPenned (s.pcOf a).1 then s else s.writeSectorMem a (b.take 32)
    storeWhole (a + 32) (b.drop 32) n s

end Sys2Proof.Machine
end

