-- ==== Sys2Proof/Machine/Lifecycle.lean ====
section
/-! DEFINITION. Starting and stopping the agents: the launch release (R68, R295, R331), the stop of R346, penning (R412 to
R417), the caches' write-backs (R284 to R286), and the pages of a cut (R338 to R340). -/

namespace Sys2Proof.Machine

/-! ### Agent indices (R230) -/

/-- Applies one of three operations to the agent an index names. -/
def onAgent {α : Type} (a : Nat) (tile core engine : Nat → α) (none : α) : α :=
  if a < 576 then tile a else if a < 640 then core (a - 576) else if a < 656 then engine (a - 640) else none

/-! ### Stacked memory under a cut -/

/-- The pages of the scope regions, in ascending order (R341). -/
def State.scopePages (s : State) : List Nat :=
  ((List.range 508).filter (fun r => bitOf (s.getReg (regAddr .ckpScope (r / 64))).toNat (r % 64))).flatMap
    (fun r => (List.range 16384).map (fun p => 16384 * r + p))

/-- LPA of reserve page `i` (R338). -/
def State.reservePage (s : State) (i : Nat) : Nat := s.field .ckpCutCfg 0 0 23 9 * 0x40000000 + i * 0x10000

/-- How many pages the reserve holds. -/
def State.reservePages (s : State) : Nat := s.field .ckpCutCfg 0 0 32 10 * 16384

/-- Whether a held write may go back to its port's queue: its page is not marked, the queue has room, and none held before it
for the same port stays (R217, R220). -/
def mayRelease (s : State) (moved : List Arrival) (kept : List HeldWrite) (h : HeldWrite) : Bool :=
  !s.marked (h.arr.pkt.offset / 0x10000)
    && decide (queuedAt s h.arr.ep + (moved.filter (fun a => decide (a.ep = h.arr.ep))).length < 256)
    && kept.all (fun k => decide (k.port ≠ h.port) || s.marked (k.arr.pkt.offset / 0x10000))

/-- Held writes of pages that are not marked any more go back to the head of their ports' queues, in their order, as far as
the queues have room (R217, R220, R340). -/
def State.releaseHeld (s : State) : State :=
  let r := s.heldWrites.foldl (fun r h =>
    if mayRelease s r.1 r.2 h then (r.1 ++ [h.arr], r.2) else (r.1, r.2 ++ [h])) ([], [])
  forEach (r.1.map (·.ep)) noteQueue { s with delivered := r.1 ++ s.delivered, heldWrites := r.2 }

/-- CKP copies a marked page into a free reserve page, records the copy and clears its bit (R340). A page is copied out only
while the fleece of its cut stands. -/
def State.copyOut (s : State) (page : Nat) : State :=
  match s.ckp.fleece with
  | none => s
  | some f =>
    let r := readPieces (page * 0x10000) 64 s
    let s := storeWhole (s.reservePage f.reserveUsed) r.1 2048 r.2
    let f := { f with copied := Table.set none f.copied page (some f.reserveUsed), reserveUsed := f.reserveUsed + 1 }
    { s with ckp := { s.ckp with fleece := some f }, snap := Table.set false s.snap page false }.releaseHeld

/-! ### Caches of the cores -/

/-- An error of a posted request reaches a core (R294): mlerr takes it and one POSTED_ERROR becomes pending; while one is,
only COUNT moves. COUNT holds at 0xFFFF. -/
def State.postError (s : State) (c mtval code : Nat) : State :=
  s.modCore c (fun x =>
    let count := Nat.min 0xFFFF (bitsOf x.csr.mlerr 48 16 + 1) * 2 ^ 48
    if x.posted.isSome then { x with csr := { x.csr with mlerr := bitsOf x.csr.mlerr 0 9 + count } }
    else { x with csr := { x.csr with mlerr := code % 2 ^ 8 + 2 ^ 8 + count }, posted := some mtval })

/-- An ERR that a core's own access meets in this node, as AKM reports it (R274, log entry 48). -/
def State.localError (s : State) (c code : Nat) : State := s.remoteTmo (608 + c % 16) s.nodeId code

/-- An ERR that a core's own posted access meets in this node. -/
def State.postLocal (s : State) (c mtval code : Nat) : State := (s.localError c code).postError c mtval code

/-- Why a core's write to a sector of stacked memory fails: its pseudo-channel is penned, or it lies in the checkpoint
reserve; 0 where it does not. -/
def State.sectorDenied (s : State) (a : Nat) : Nat :=
  if s.jid ≠ 0 ∧ s.inReserve a then errJOB_DENIED
  else if s.pcPenned (s.pcOf a).1 then errMEM_PENNED
  else 0

/-- The bytes of a sector after a write of those that a mask names: whole where the sector in memory cannot be read. -/
def State.mergedSector (s : State) (a : Nat) (b : List Byte) (mask : Nat) : List Byte :=
  if mask = 2 ^ 32 - 1 ∨ s.poisoned a ∨ 2 ≤ s.wrongAt a then b
  else (List.range 32).map (fun i => (if bitOf mask i then b else s.readMem a 32).getD i 0)

/-- The bytes that cores wrote of one sector of a line go back to memory: at once where its port has nothing to serve first, else
behind what waits there; a write to a marked page is held (R206, R220). A sector that cannot be written is a posted error of the
core that wrote the line last (R292). -/
def State.writeBackSector (s : State) (writer a : Nat) (b : List Byte) (mask : Nat) : State :=
  let code := s.sectorDenied a
  if mask = 0 then s
  else if code ≠ 0 then s.postLocal writer a code
  else if s.portWaits a 1 true ∨ s.marked (a / 0x10000) then
    s.queueAtPort (608 + writer % 16) (.coreClean writer a) { opcode := opWR, offset := a, data := b, keep := 2 ^ 32 - 1 - mask }
  else s.writeSectorMem a (s.mergedSector a b mask)

/-- A dirty line whose cache finds a double-bit error goes back as two poisoned sectors (R410), which memory stores under
R211. -/
def poisonLine (k : Nat) (l : Line) (s : State) : State :=
  forEach [0, 1] (fun i s =>
    let a := 64 * k + 32 * i
    let code := s.sectorDenied a
    if code ≠ 0 then s.postLocal l.writer a code
    else if s.portWaits a 1 true ∨ s.marked (a / 0x10000) then
      s.queueAtPort (608 + l.writer % 16) (.coreClean l.writer a)
        { opcode := opWR, offset := a, data := List.replicate 32 0xFF, poison := [0] }
    else storePoisoned a s) s

/-- A line with a double-bit error is met: a dirty one goes back poisoned with MEM_UE, and pens the core that wrote it where that
core's own caches held it; a clean one is dropped (R410). -/
def meetBadLine (k : Nat) (l : Line) (s : State) : State :=
  let s := { s with lines := Table.set none s.lines k none }
  if l.dirty then
    let s := memUeEvent (s.pcOf (64 * k)).1 (64 * k) (608 + l.writer % 16) (poisonLine k l s)
    if l.holders.elem l.writer then s.duePen 1 l.writer (some 3) else s
  else s

/-- A line's written bytes go back to memory (R284), sector by sector; it stays, clean. One with a double-bit error goes back
poisoned (R410, R414). -/
def State.writeBack (s : State) (k : Nat) : State :=
  match Table.get none s.lines k with
  | some l =>
    if l.dirty = false then s
    else if l.bad then meetBadLine k l s
    else
      let s := { s with lines := Table.set none s.lines k (some { l with mask := 0 }) }
      forEach [0, 1] (fun i s => s.writeBackSector l.writer (64 * k + 32 * i) (slice l.data (32 * i) 32) (l.wrote i)) s
  | none => s

/-- The keys of the cached lines that satisfy a test. -/
def State.linesWhere (s : State) (f : Nat → Line → Bool) : List Nat :=
  s.lines.filterMap (fun e => match e.2 with
    | some l => if f e.1 l then some e.1 else none
    | none => none)

/-- Every line of a test written back. -/
def State.writeBackAll (s : State) (f : Nat → Line → Bool) : State :=
  forEach (s.linesWhere f) (fun k s => s.writeBack k) s

/-- Items 2 and 3 of R285: the dirty SHARED lines in a core's own caches, and those in the L3 that it wrote last. -/
def State.cleanShared (s : State) (c : Nat) : State :=
  s.writeBackAll (fun _ l => l.shared && l.dirty && (l.holders.elem c || (l.l3 && decide (l.writer = c))))

/-- R286 for a set of participating cores: they and the L3 drop their clean SHARED lines. A line nobody holds is gone. -/
def State.dropShared (s : State) (cs : List Nat) : State :=
  if cs.isEmpty then s else
  { s with lines := s.lines.filterMap (fun e => match e.2 with
      | some l =>
        if l.shared && !l.dirty then
          let h := l.holders.filter (fun c => !cs.elem c)
          if h.isEmpty then none else some (e.1, some { l with holders := h, l3 := false })
        else some e
      | none => none) }

/-! ### Tiles -/

/-- A tile leaves IDLE at its ENTRY word (R68, R113, R115, R127). The VXU registers hold zero (R141); SRAM and its tags keep
their contents. -/
def startTile (t : Nat) (s : State) : State :=
  let entry := s.field .tilSeqProg t 0 36 20
  s.modTile t (fun x => { ({} : Tile) with
    state := .running, fetch := entry, tags := x.tags, disp := x.disp, mxuFree := s.now, vxuFree := s.now, excAt := x.excAt,
    excOld := x.excOld, excSeen := x.excSeen })

/-- The stop of R346 for a tile: a RUNNING tile becomes IDLE with its queues emptied and its staged data dropped (R85). -/
def stopTile (t : Nat) (s : State) : State :=
  s.modTile t (fun x =>
    if x.state = .running then
      { x with state := .idle, queues := {}, staged := [], wait := none, loops := [], calls := [], ended := false,
               inflight := [], stores := [], atoms := [], held := false, startAt := none }
    else { x with staged := [], held := false, startAt := none })

/-! ### Cores and engines -/

/-- A core's own caches become empty: it no longer holds any line (R295). -/
def State.emptyCaches (s : State) (c : Nat) : State :=
  { s with lines := s.lines.filterMap (fun e => match e.2 with
      | some l =>
        let h := l.holders.filter (fun x => decide (x ≠ c))
        if h.isEmpty && !l.l3 then none else some (e.1, some { l with holders := h })
      | none => none) }

/-- A core starts in M mode at its ENTRY with the register values of R295; its CSRs keep their values. -/
def startCore (c : Nat) (s : State) : State :=
  let entry := s.field .prcStart c 0 1 55
  (s.emptyCaches c).modCore c (fun x => { ({} : Core) with
    held := false, started := true, pc := BitVec.ofNat 64 (2 * entry), imsicM := x.imsicM, imsicS := x.imsicS,
    csr := x.csr })

/-- The stop of R346 for a core: it is held. -/
def stopCore (c : Nat) (s : State) : State :=
  s.modCore c (fun x => { x with held := true, started := false, wait := none, paused := false, wfi := false })

/-- An engine goes RUNNING at its ENTRY, its first command 16 ticks later (R330, R331). -/
def startEngine (e : Nat) (s : State) : State :=
  let entry := s.field .marStart e 0 1 9
  s.modEngine e (fun x => { x with
    state := .running, started := true, cmd := entry, marks := [], pendingH := [], wait := none, next := s.now + 16, solve := none,
    copy := none })

/-- The stop of R346 for an engine: IDLE; a STOPPED engine stays so (R326). -/
def stopEngine (e : Nat) (s : State) : State :=
  s.modEngine e (fun x => { x with
    state := if x.state = .stopped then .stopped else .idle, started := false, wait := none, solve := none, copy := none, paused := false,
    results := [] })

/-- Outstanding writes of a destination that is given up (or of every one) no longer count for any cut: destination 2 does
not exist. -/
def State.forgetShears (s : State) (d : Option Nat) : State :=
  { s with requests := s.requests.map (fun r => match r.purpose with
      | .ckpShear e page => if d.isNone ∨ d = some e then { r with purpose := .ckpShear 2 page } else r
      | _ => r) }

/-- The fleece is abandoned (R345): bits clear, held writes are released by their clear bits, the reserve is free. -/
def abandonFleece (s : State) : State :=
  match s.ckp.fleece with
  | none => s
  | some _ =>
    let s := { s with snap := [], ckp := { s.ckp with fleece := none, copyRequests := [], endedAt := s.time },
                      hec := { s.hec with shears := [] } }
    ((s.releaseHeld).forgetShears none).raiseBit .ckpStatus 0 3

/-- Every tile, core and engine stops, and a quiesce in progress ends (step 1 of R346). -/
def stopUnits (s : State) : State :=
  let s := forEach (s.tiles.map (·.1)) stopTile s
  let s := forEach (s.cores.map (·.1)) stopCore s
  let s := forEach (s.engines.map (·.1)) stopEngine s
  { s with ckp := { s.ckp with quiesce := none, holdAfter := false }, hec := { s.hec with held := false } }

/-- Stops every agent (R346) and abandons any fleece. -/
def stopAgents (s : State) : State :=
  let s := stopUnits s
  if s.ckp.fleece.isSome then (abandonFleece s).ckpEvent else s

/-- Keeps entries that have become the default out of the agents' tables. -/
def State.trim (s : State) : State :=
  { s with
    tiles := s.tiles.filter (fun e => decide (e.2 ≠ {})),
    cores := s.cores.filter (fun e => decide (e.2 ≠ {})),
    engines := s.engines.filter (fun e => decide (e.2 ≠ {})) }

/-- Holds or lets go every agent at a cut, a freeze or a restore (R336, R427). -/
def pauseAgents (on : Bool) (s : State) : State :=
  State.trim { s with
    tiles := s.tiles.map (fun e => (e.1, { e.2 with held := on })),
    cores := s.cores.map (fun e => (e.1, { e.2 with paused := on })),
    engines := s.engines.map (fun e => (e.1, { e.2 with paused := on })) }

/-! ### Penning (R412 to R417) -/

/-- The credits a unit had undertaken and not sent (R415): its agent index, the endpoint that sends them, node, tally,
amount. -/
def undertakenOf (s : State) (kind index : Nat) : List (Nat × Nat × Option Nat × Nat × Nat) :=
  match kind with
  | 0 => (s.tile index).stores.filterMap (fun w =>
      if w.credit ≠ 0 ∧ ¬ w.sent then some (index, index, w.node, w.tally, w.credit) else none)
  | 1 => match (s.core index).wait with
    | some (.credit node tally amount) => [(576 + index, 608 + index % 16, node, tally, amount)]
    | _ => []
  | 2 =>
    let x := s.engine index
    let solves := match x.solve with
      | some r => [r.tally]
      | none => []
    ((solves ++ x.results.map (·.tally)).filter carriesCredit).map
      (fun w => (640 + index, 624 + index, tallyNode w, bitsOf w 29 17, bitsOf w 0 16))
  | _ => []

/-- The router of a tile enters bypass, and what the tile held ends (R195, R414, R85). -/
def penTileRouter (t : Nat) (s : State) : State :=
  let s := (s.setBit .pfbPenMap (t / 64) (t % 64)).setBit .akmPenTile (t / 64) (t % 64)
  let s := { s with delivered := s.delivered.map (fun (a : Arrival) => if a.ep = t then { a with inPort := true } else a) }
  s.modTile t (fun x => { x with state := .idle, queues := {}, staged := [], wait := none, inflight := [], stores := [],
                                 atoms := [], held := false, startAt := none })

/-- AKM pens a unit for a reason (R412 to R414): a unit that is penned already or not enabled stays as it is. The event
goes out with the count left. -/
def penUnit (kind index reason : Nat) (s : State) : State :=
  if s.unitOn kind index = false then s else
  let owed := undertakenOf s kind index
  let s := { s with akm := { s.akm with undertaken := s.akm.undertaken ++ owed } }
  let s := match kind with
    | 0 => penTileRouter index s
    | 1 =>
      let s := s.writeBackAll (fun _ l => l.dirty && l.holders.elem index)
      (stopCore index s).setBit .prcCoreStatus 0 index
    | 2 => (stopEngine index s).setBit .akmPenUnits 0 index
    | _ => penChannel index s
  pennedEvent kind index reason s

/-- A unit due to be penned is: for a reason of AKM's, or by its pen request register (R195, R222). -/
def applyPen (e : Nat × Nat × Option Nat) (s : State) : State :=
  match e with
  | (kind, index, some reason) => penUnit kind index reason s
  | (0, t, none) =>
    if s.tileOn t then penTileRouter t { s with akm := { s.akm with undertaken := s.akm.undertaken ++ undertakenOf s 0 t } } else s
  | (_, n, none) => if s.pcPenned n then s else penChannel n s

/-- The units due are penned, in their order, as a tick ends (R417). -/
def applyPens (s : State) : State := forEach s.penDue applyPen { s with penDue := [] }

/-- BOOT_FAIL with a code (R380): alert_n goes low. -/
def bootFail (code : Nat) (s : State) : State :=
  let s := (s.setField .brcBootStatus 0 0 3 2 2).setField .brcBootStatus 0 0 16 8 code
  { s with brc := { s.brc with alertN := false } }

/-- A fatal error (R426, R427, R429): the first one starts the freeze; one raised during the freeze or the dump is the
second code; one raised in FATAL_HOLD changes nothing, and so does one in BOOT_FAIL (R380). -/
def raiseFatal (code : Nat) (s : State) : State :=
  if s.working = false then s else
  match s.field .akmFatal 0 0 32 2 with
  | 0 =>
    let s := (s.setField .akmFatal 0 0 0 16 code).setField .akmFatal 0 0 32 2 1
    { s with akm := { s.akm with freezeAt := some s.now } }
  | 3 => s
  | _ => if s.field .akmFatal 0 0 16 16 = 0 then s.setField .akmFatal 0 0 16 16 code else s

end Sys2Proof.Machine
end

