-- ==== Sys2Proof/Machine/Links.lean ====
section
/-! DEFINITION. What links carry: check codes (R188, R341), the packet header (R187), a packet's flits, and the frames of the
die-to-die links and the Holtim ports (R199, R251), written and read. -/

namespace Sys2Proof.Machine

/-! ### Check codes -/

/-- One bit of a CRC of width `w` with polynomial `poly`, most significant bit first. -/
def crcBit (w poly c : Nat) : Nat :=
  let d := c * 2 % 2 ^ w
  if bitOf c (w - 1) then d ^^^ poly else d

def crcBits (w poly : Nat) : Nat → Nat → Nat
  | 0, c => c
  | n + 1, c => crcBits w poly n (crcBit w poly c)

/-- A CRC over bytes in ascending order, each most significant bit first. -/
def crcOver (w poly init : Nat) (l : List Byte) : Nat :=
  l.foldl (fun c b => crcBits w poly 8 (c ^^^ b.toNat * 2 ^ (w - 8))) init

/-- HCRC (R188) and the CRC-64 of ECMA-182 with initial value 0 (R341). -/
def crc16 (l : List Byte) : Nat := crcOver 16 0x1021 0xFFFF l
def crc64 (l : List Byte) : Nat := crcOver 64 0x42F0E1EBA9EA3693 0 l

/-! ### The packet header (R187, R188) -/

/-- The packet that header bytes and payload bytes spell. -/
def packetOf (h : List Byte) (data : List Byte) (poison : List Nat) : Packet :=
  let w := natOf (h.take 32)
  { opcode := bitsOf w 0 8, cls := bitsOf w 8 2, vc := bitOf w 10, mcast := bitsOf w 11 2, pf := bitOf w 13,
    terr := bitOf w 14, dstEp := bitsOf w 15 10, srcEp := bitsOf w 25 10, nsect := bitsOf w 35 6,
    dstNode := bitsOf w 41 16, srcNode := bitsOf w 57 16, jid := bitsOf w 73 16, offset := bitsOf w 89 48,
    window := bitsOf w 137 8, status := bitsOf w 145 8, tally := bitsOf w 153 17, credit := bitsOf w 170 16,
    seq := bitsOf w 186 16, mask := bitsOf w 202 36, rsvd := bitsOf w 238 2, data := data, poison := poison }

/-- The header of a packet as a number, without HCRC. -/
def headerWord (p : Packet) : Nat :=
  let b (x : Bool) : Nat := if x then 1 else 0
  p.opcode % 2 ^ 8 + p.cls % 4 * 2 ^ 8 + b p.vc * 2 ^ 10 + p.mcast % 4 * 2 ^ 11 + b p.pf * 2 ^ 13 + b p.terr * 2 ^ 14
    + p.dstEp % 2 ^ 10 * 2 ^ 15 + p.srcEp % 2 ^ 10 * 2 ^ 25 + p.nsect % 2 ^ 6 * 2 ^ 35 + p.dstNode % 2 ^ 16 * 2 ^ 41
    + p.srcNode % 2 ^ 16 * 2 ^ 57 + p.jid % 2 ^ 16 * 2 ^ 73 + p.offset % 2 ^ 48 * 2 ^ 89 + p.window % 2 ^ 8 * 2 ^ 137
    + p.status % 2 ^ 8 * 2 ^ 145 + p.tally % 2 ^ 17 * 2 ^ 153 + p.credit % 2 ^ 16 * 2 ^ 170 + p.seq % 2 ^ 16 * 2 ^ 186
    + p.mask % 2 ^ 36 * 2 ^ 202 + p.rsvd % 4 * 2 ^ 238

/-- HCRC of header bytes: over bytes 0 to 29 with bit 10 taken as 0 (R188). -/
def hcrcOf (h : List Byte) : Nat := crc16 (bytesOf 30 (putBits (natOf (h.take 30)) 10 1 0))

/-- The 32 header bytes of a packet. -/
def headerBytes (p : Packet) : List Byte :=
  let h := bytesOf 30 (headerWord p)
  h ++ bytesOf 2 (hcrcOf h)

/-- The packet that a run of flits carries: the head flit's header, and the payload after it. Flits beyond or short of
what NSECT asks leave a payload that does not fit, which R191 answers. -/
def packetOfFlits (fl : List (List Byte × Bool)) : Packet :=
  let bytes := fl.flatMap (·.1)
  let h := bytes.take 32
  let w := natOf h
  let nsect := bitsOf w 35 6
  let op := bitsOf w 0 8
  let carries := [opWR, opATOM, opSNWR, opTIME_REQ, opTIME_RSP, opRDATA].elem op
  let want := if carries then 1 + (nsect - 3 + 3) / 4 else 1
  let body := bytes.drop 32
  let data := if fl.length = want then (if carries then body.take (32 * nsect) else []) else body
  let bad := (List.range fl.length).flatMap (fun k =>
    if (fl.getD k ([], false)).2 then (if k = 0 then [0, 1, 2] else (List.range 4).map (fun j => 3 + 4 * (k - 1) + j)) else [])
  packetOf h data (bad.filter (fun k => decide (32 * k < data.length)))

/-! ### Flits -/

/-- Flits of a packet (Packet header). -/
def flitsOf (p : Packet) : Nat := 1 + (p.data.length / 32 - 3 + 3) / 4

/-- The payload sectors that flit `k` of a packet carries. -/
def flitSectors (k : Nat) : List Nat := if k = 0 then [0, 1, 2] else (List.range 4).map (fun j => 3 + 4 * (k - 1) + j)

/-- The flits of a packet on a VC of a link: the head flit's header and first sectors, then four sectors a flit. -/
def slotsOf (p : Packet) (vc : Nat) : List Slot :=
  let head := headerBytes p ++ padTo 96 (p.data.take 96)
  let all := head :: (chunksOf 128 9 (p.data.drop 96)).map (padTo 128)
  all.zipIdx.map (fun e =>
    { head := decide (e.2 = 0), tail := decide (e.2 + 1 = all.length), vc := vc,
      poison := (flitSectors e.2).any (fun i => p.poison.elem i), bytes := e.1 })

/-! ### Frames (R199, R251) -/

/-- The control byte of a slot that holds a flit. -/
def Slot.control (x : Slot) : Nat :=
  1 + (if x.head then 2 else 0) + (if x.tail then 4 else 0) + x.vc % 8 * 8 + (if x.poison then 64 else 0)

/-- The bytes of a frame of `n` slots with a link control message of `m` bytes and `z` zero bytes before its CRC-64. -/
def Frame.bytesOn (f : Frame) (n m z : Nat) : List Byte :=
  let body := padTo (128 * n) (f.slots.flatMap (·.bytes)) ++ padTo n (f.slots.map (fun x => BitVec.ofNat 8 x.control))
    ++ bytesOf 2 (f.seq % 4096) ++ bytesOf 2 (f.ack % 4096 + (if f.nak then 4096 else 0))
    ++ (List.range 8).map (fun v => BitVec.ofNat 8 (f.credits.getD v 0)) ++ padTo m f.msg ++ zeros z
  body ++ bytesOf 8 (crc64 body)

/-- The 768 bytes of a die-to-die frame and the 1,280 bytes of a Holtim frame. -/
def Frame.d2dBytes (f : Frame) : List Byte := f.bytesOn 5 0 103
def Frame.holtimBytes (f : Frame) : List Byte := f.bytesOn 9 16 83

/-- A flit slot of a received frame: its control byte and its bytes, where VALID is 1. -/
def frameFlits (frame : List Byte) (slots ctl : Nat) : List (Nat × List Byte) :=
  (List.range slots).filterMap (fun k =>
    let c := (frame.getD (ctl + k) 0).toNat
    if bitOf c 0 then some (c, slice frame (128 * k) 128) else none)

/-- The last `n` of a list. -/
def lastOf {α : Type} (n : Nat) (l : List α) : List α := l.drop (l.length - n)

/-- The frames of a store after the one with a number, in order: all where the number is not among them. -/
def framesAfter (ack : Nat) (l : List Frame) : List Frame :=
  match l.findIdx? (fun f => decide (f.seq = ack)) with
  | some i => l.drop (i + 1)
  | none => l

/-- How often in a row the frame that failed was to be replayed, with this time (R200, R255). -/
def replayTimes (failing : Option Nat) (retries : Nat) (first : Frame) : Nat :=
  if failing = some first.seq then retries + 1 else 1

/-- A counter of each VC after some of VC `v` are added. -/
def addAt (l : List Nat) (v n : Nat) : List Nat := (List.range 8).map (fun k => l.getD k 0 + (if k = v then n else 0))

/-- The counters less what one frame can return: at most 255 of each. -/
def returned (l : List Nat) : List Nat := (List.range 8).map (fun k => Nat.min 255 (l.getD k 0))
def lessReturned (l : List Nat) : List Nat := (List.range 8).map (fun k => l.getD k 0 - Nat.min 255 (l.getD k 0))

/-! ### The ends of a die-to-die link (R180, R199, R200) -/

/-- The ends of link `n` are numbered 2n, which sends in increasing position or from an endpoint to its side stop, and 2n + 1,
which sends the other way. -/
def otherEnd (e : Nat) : Nat := if e % 2 = 0 then e + 1 else e - 1

def State.link (s : State) (e : Nat) : D2d := Table.get {} s.d2d e
def State.setLink (s : State) (e : Nat) (x : D2d) : State := { s with d2d := Table.set {} s.d2d e x }

/-- Flit slots of an input buffer of a die-to-die link (R180). -/
def d2dDepth : Nat := 32

/-- The credits an end holds for a VC. -/
def D2d.credit (x : D2d) (v : Nat) : Nat := x.credits.getD v d2dDepth

/-- One frame with up to five flits goes out from an end of a die-to-die link and into its store of 64; each flit takes a
credit of its VC. -/
def D2d.sendFrame (x : D2d) (slots : List Slot) : D2d :=
  let f : Frame := { seq := x.sent, ack := (x.expect + 4095) % 4096, nak := x.nak, credits := returned x.freed, slots := slots }
  { x with
    sent := (x.sent + 1) % 4096, nak := false, store := lastOf 64 (x.store ++ [f]), wire := x.wire ++ [f],
    freed := lessReturned x.freed,
    credits := (List.range 8).map (fun v => x.credit v - (slots.filter (fun y => decide (y.vc = v))).length) }

/-- Flits leave from an end, in frames of five. Frames with nothing to carry are not formed (log entry 7). -/
def sendFlits (e : Nat) (slots : List Slot) (s : State) : State :=
  if slots.isEmpty then s else s.setLink e ((chunksOf 5 slots.length slots).foldl D2d.sendFrame (s.link e))

/-- What a good frame says of the frames sent the other way: the number acknowledged and credits returned. -/
def D2d.takeControl (x : D2d) (ack : Nat) (credits : List Nat) : D2d :=
  let open_ := (framesAfter ack x.store).any (fun f => decide (x.failing = some f.seq))
  { x with
    expect := (x.expect + 1) % 4096, nak := false, acked := ack,
    retries := if open_ then x.retries else 0, failing := if open_ then x.failing else none,
    credits := (List.range 8).map (fun v => Nat.min d2dDepth (x.credit v + credits.getD v 0)) }

end Sys2Proof.Machine
end

