-- ==== Sys2Proof/Machine/Fabric.lean ====
section
/-! DEFINITION. The package fabric (chapter 8): rings and stops, routes, the route decoder of a source stop, window
translation, plane selection, ports' sending side, multicast, penned routers and die-to-die frames, with the meanings of
their commands. -/

namespace Sys2Proof.Machine

/-! ### Rings and stops (R172 to R174) -/

def rowHasWest (y : Nat) : Bool := decide (y < 24) && decide (y % 3 ≠ 2)
def rowHasEast (y : Nat) : Bool := decide (y < 24) && decide (y ≠ 20) && decide (y ≠ 23)

/-- Port and memory stop pairs of a stack that lie in column `r` of its six. -/
def memStopsOf : Nat → List (Nat × Nat)
  | 0 => [(0, 0), (0, 1)]
  | 1 => [(1, 0)]
  | 2 => [(1, 1)]
  | 3 => [(2, 0), (2, 1)]
  | 4 => [(3, 0)]
  | _ => [(3, 1)]

/-- The stops of a ring in ring order (R173). -/
def ringStops : Ring → List Stop
  | .row y =>
    (if rowHasWest y then [.west y] else []) ++ (List.range 24).map (fun x => .tile x y)
      ++ (if rowHasEast y then [.east y] else [])
  | .col x =>
    (memStopsOf (x % 6)).map (fun m => .mem (576 + 4 * (x / 6) + m.1) m.2)
      ++ (List.range 24).flatMap (fun y =>
        .tile x y :: ((if x = 0 ∧ rowHasWest y then [.west y] else []) ++ (if x = 23 ∧ rowHasEast y then [.east y] else [])))
      ++ (memStopsOf (x % 6)).map (fun m => .mem (576 + 4 * (x / 6 + 4) + m.1) m.2)

/-- The column of a memory stop (R174). -/
def memColumn (ep k : Nat) : Nat :=
  let c := 6 * (((ep - 576) / 4) % 4)
  match (ep - 576) % 4 with
  | 0 => c
  | 1 => c + 1 + k
  | 2 => c + 3
  | _ => c + 4 + k

/-- The row ring and the column ring of a stop. -/
def Stop.row : Stop → Option Nat
  | .tile _ y => some y
  | .west y => some y
  | .east y => some y
  | .mem _ _ => none

def Stop.col : Stop → Nat
  | .tile x _ => x
  | .west _ => 0
  | .east _ => 23
  | .mem ep k => memColumn ep k

/-- Position of a stop on a ring, counted from 0. -/
def posOn (r : Ring) (a : Stop) : Nat := (ringStops r).idxOf a

/-- The half of its ring a stop lies in: 0 below the middle die boundary, 1 above it. -/
def halfOf (r : Ring) : Stop → Nat
  | .tile x y => match r with
    | .row _ => if x < 12 then 0 else 1
    | .col _ => if y < 12 then 0 else 1
  | .west y => match r with
    | .row _ => 0
    | .col _ => if y < 12 then 0 else 1
  | .east y => match r with
    | .row _ => 1
    | .col _ => if y < 12 then 0 else 1
  | .mem ep _ => if ep < 592 then 0 else 1

/-- The next stop on the shorter way round from one stop to another, the way of increasing position when both are equally
long (R177), and whether the link to it is the wrap link. -/
def nextStop (r : Ring) (a b : Stop) : Stop × Bool :=
  let l := ringStops r
  let n := l.length
  let i := posOn r a
  let j := posOn r b
  let up := (j + n - i) % n
  let k := if 2 * up ≤ n then (i + 1) % n else (i + n - 1) % n
  (l.getD k a, decide ((i = n - 1 ∧ k = 0) ∨ (i = 0 ∧ k = n - 1)))

/-- The phases of a route (R176): the ring now and the stop it ends at. A class RSP packet takes the column ring first. A side
stop and the tile of its row lie together on a row ring and a column ring: between them the class's first ring serves (DESIGN
CHOICE, log entry 55). -/
def routeOf (rsp : Bool) (src dst : Stop) : List (Ring × Stop) :=
  if src = dst then [] else
  if rsp then
    if src.col = dst.col ∧ (ringStops (.col src.col)).elem dst then [(.col src.col, dst)]
    else match src.row, dst.row with
      | some a, some b =>
        if a = b then [(.row a, dst)] else [(.col src.col, .tile src.col b), (.row b, dst)]
      | none, some b => [(.col src.col, .tile src.col b), (.row b, dst)]
      | _, none => []
  else match src.row with
    | none => []
    | some a =>
      if dst.row = some a then [(.row a, dst)]
      else if src.col = dst.col then [(.col dst.col, dst)]
      else [(.row a, .tile dst.col a), (.col dst.col, dst)]

/-- Whether a stop's router is in bypass. -/
def bypassed (s : State) : Stop → Bool
  | .tile x y => !s.tileOn (24 * y + x)
  | _ => false

/-- Cycles of one link, the sending stop's pipeline with it (R186). -/
def linkCycles (s : State) (r : Ring) (a b : Stop) (wrap : Bool) : Nat :=
  (if bypassed s a then 1 else 2) + (if wrap then 22 else if halfOf r a = halfOf r b then 1 else 14)

/-- A side stop's endpoint lies on the P or X die. -/
def sideStop : Stop → Bool
  | .west _ => true
  | .east _ => true
  | _ => false

/-- The number PFB_ERR_STATUS gives a stop: its tile, or the endpoint of an edge stop. -/
def stopNumber : Stop → Nat
  | .tile x y => 24 * y + x
  | .west y => 608 + 8 * (y / 12) + 2 * (y % 12 / 3) + y % 3
  | .east y =>
    match y with
    | 2 => 656
    | 5 => 658
    | 8 => 660
    | 11 => 659
    | 14 => 657
    | 17 => 661
    | _ => 640 + 2 * (y / 3) + y % 3
  | .mem ep _ => ep

/-- Sets a bit of PFB_ERR_STATUS, with the first stop (chapter 8, Registers). -/
def fabricError (bit stop : Nat) (s : State) : State :=
  let s := if s.field .pfbErrStatus 0 0 0 4 = 0 then s.setField .pfbErrStatus 0 0 48 16 stop else s
  s.setBit .pfbErrStatus 0 bit

/-- A response that fails its checks is discarded (R191). -/
def discardResponse (ep : Nat) (s : State) : State :=
  (fabricError 3 ep s).akmEvent 0x0020 1 ep (bytesOf 2 ep)

/-- A fatal header error at a stop (R197). -/
def headerError (stop : Nat) (s : State) : State := raiseFatal 1 (fabricError 0 stop s)

/-- Sectors poisoned by a double-bit payload error, with FLIT_UE and its event (R197, R411). -/
def flitError (stop : Nat) (s : State) : State :=
  (fabricError 1 stop s).akmEvent 0x0020 1 stop (bytesOf 2 stop)

/-! ### Responses (R187) -/

/-- The response to a request, from the endpoint that serves it. -/
def responseTo (p : Packet) (ep opcode status : Nat) (data : List Byte) : Packet :=
  { opcode, cls := clsRSP, dstEp := p.srcEp, srcEp := ep, dstNode := p.srcNode, srcNode := p.dstNode, jid := p.jid,
    seq := p.seq, nsect := data.length / 32, status, data }

/-- An endpoint answers a request through the stop that received it (R175, R261). -/
def respond (a : Arrival) (opcode status : Nat) (data : List Byte) (s : State) : State :=
  s.inject ((stopOf a.ep a.k).getD (homeStop a.ep)) (responseTo a.pkt a.ep opcode status data) false a.via

/-- An ERR, or DECLINE for a read with the prefetch bit (R84, R267). -/
def refuse (a : Arrival) (code : Nat) (s : State) : State :=
  if a.pkt.pf ∧ a.pkt.opcode = opRD then respond a opDECLINE 0 [] s else respond a opERR code [] s

def acknowledge (a : Arrival) (s : State) : State := respond a opACK 0 [] s

/-! ### Plane selection and window translation (R260, R263, R265, R266) -/

/-- The function plane of R260: none when the effective map is empty. -/
def planeOf (eff dst window offset : Nat) : Option Nat :=
  let v := bitsOf offset 12 28 ^^^ (window * 2 ^ 20 % 2 ^ 28) ^^^ dst
  let h := bitsOf v 0 7 ^^^ bitsOf v 7 7 ^^^ bitsOf v 14 7 ^^^ bitsOf v 21 7
  let set := (List.range 16).filter (fun p => bitOf eff p)
  if set.isEmpty then none else set[h % set.length]?

/-- The plane of a packet, by the inputs of R260 for its opcode. -/
def packetPlane (eff : Nat) (p : Packet) : Option Nat :=
  if p.opcode = opTIME_REQ then (List.range 16).find? (fun k => bitOf eff k)
  else if p.opcode = opCREDIT then planeOf eff p.dstNode 0 (p.tally * 4096)
  else if p.opcode = opNODE_ARRIVE ∨ p.opcode = opNODE_RELEASE then planeOf eff p.dstNode 0 (p.tally % 1024 * 4096)
  else planeOf eff p.dstNode p.window p.offset

/-- The four checks of R266, in order: 0 when a request passes. -/
def windowCheck (s : State) (p : Packet) : Nat :=
  let attr := (s.getReg (regAddr .hfiWinAttr p.window)).toNat
  let base := (s.getReg (regAddr .hfiWinBase p.window)).toNat
  let n := if p.opcode = opATOM then 1 else p.nsect
  let perm := if p.opcode = opRD ∨ p.opcode = opSNRD then 28 else if p.opcode = opATOM then 30 else 29
  if ¬ bitOf attr 32 then errNO_WINDOW
  else if p.jid = 0 ∨ p.jid ≠ bitsOf base 48 16 ∨ p.jid ≠ s.jid then errJID_MISMATCH
  else if ¬ bitOf attr perm then errWIN_PERM
  else if 0 < n ∧ bitsOf attr 0 28 * 4096 < p.offset + 32 * n then errWIN_BOUND
  else 0

/-- Whether a prefetch meets a window without PF (R267). -/
def windowNoPrefetch (s : State) (p : Packet) : Bool :=
  p.pf && !bitOf (s.getReg (regAddr .hfiWinAttr p.window)).toNat 31

/-- The request at its LPA, past the window check. It keeps the window it came through (R353). -/
def translated (s : State) (p : Packet) : Packet :=
  { p with offset := (s.field .hfiWinBase p.window 0 0 48 + p.offset) % 2 ^ 48, dstNode := s.nodeId }

/-! ### Checks of a request (R191) -/

/-- The class an opcode travels in; none for opcodes outside R189 and R242. -/
def opClass (op : Nat) : Option Nat :=
  if op = opRD ∨ op = opWR ∨ op = opATOM then some clsREQ
  else if op = opSNRD ∨ op = opSNWR then some clsSNAP
  else if opCREDIT ≤ op ∧ op ≤ opTIME_RSP then some clsSYNC
  else if opRDATA ≤ op ∧ op ≤ opDECLINE then some clsRSP
  else none

/-- A core's store through an aperture: one aligned value of 1, 2, 4 or 8 bytes in place of a whole sector (log entry 29). -/
def Packet.narrow (p : Packet) : Bool :=
  decide (608 ≤ p.srcEp) && decide (p.srcEp < 624) && [1, 2, 4, 8].elem p.data.length
    && decide (p.offset % p.data.length = 0)

/-- Whether NSECT fits the opcode and the payload. -/
def payloadFits (p : Packet) : Bool :=
  decide (p.nsect ≤ 32) &&
  (if p.opcode = opRD ∨ p.opcode = opSNRD then p.data.isEmpty
   else if p.opcode = opWR ∧ p.narrow then decide (p.nsect = 1)
   else if p.opcode = opWR ∨ p.opcode = opSNWR ∨ p.opcode = opRDATA then decide (p.data.length = 32 * p.nsect)
   else if p.opcode = opATOM ∨ p.opcode = opTIME_REQ ∨ p.opcode = opTIME_RSP then
     decide (p.nsect = 1) && decide (p.data.length = 32)
   else decide (p.nsect = 0) && p.data.isEmpty)

/-- Whether every field that the opcode does not use is zero. -/
def unusedZero (p : Packet) : Bool :=
  let addr := addressOp p.opcode
  let cred := decide (p.opcode = opCREDIT)
  (addr || decide (p.opcode = opNODE_RELEASE) || decide (p.offset = 0))
    && (addr || decide (p.window = 0))
    && (decide (p.opcode = opRD) || !p.pf)
    && (cred || !p.terr)
    && (decide (p.opcode = opATOM) || decide (p.opcode = opERR) || decide (p.status = 0))
    && (cred || decide (p.opcode = opARRIVE) || decide (p.opcode = opNODE_ARRIVE) || decide (p.opcode = opNODE_RELEASE)
        || decide (p.tally = 0))
    && (cred || decide (p.opcode = opNODE_ARRIVE) || decide (p.opcode = opNODE_RELEASE) || decide (p.credit = 0))
    && (decide (p.opcode = opWR) || cred || decide (p.mcast = 0)) && (decide (p.mcast ≠ 0) || decide (p.mask = 0))
    && decide (p.rsvd = 0)

/-- The alignment and operation rules of R191 for addressed requests. -/
def wellAddressed (p : Packet) : Bool :=
  if p.opcode = opATOM then
    let op := p.status % 8
    let sgn := bitOf p.status 3
    decide (op < 6) && (!sgn || decide (op = 4) || decide (op = 5)) && decide (p.status < 32)
      && decide (p.offset % (if bitOf p.status 4 then 8 else 4) = 0)
  else !addressOp p.opcode || (decide (p.opcode = opWR) && p.narrow) || decide (p.offset % 32 = 0)

/-- Whether a packet passes the form checks of R191. -/
def wellFormedPacket (p : Packet) : Bool :=
  decide (opClass p.opcode = some p.cls) && payloadFits p && unusedZero p && wellAddressed p

/-! ### The sending side of a Holtim port (R252, R270, R272) -/

/-- LOAD_TMO in ticks (R270). -/
def State.loadTmo (s : State) : Nat := ticksOfUs (s.field .hfiTmo 0 0 0 10)

/-- The level bit of a packet's link VC (R252). -/
def linkLevel (p : Packet) : Bool := decide (p.srcNode / 64 ≠ p.dstNode / 64)

def State.portUp (s : State) (p : Nat) : Bool := s.bit .hfiPortStatus p 0

/-- The link VC of a packet (R252). -/
def linkVc (p : Packet) : Nat := 2 * p.cls + (if linkLevel p then 1 else 0)

/-- Whether a port holds the credits of its link VC that every flit of a packet takes (R253, R254, R276; log entry 7). -/
def Port.mayBegin (x : Port) (p : Packet) : Bool := decide (flitsOf p ≤ x.credits.getD (linkVc p) 0)

/-- Which link VCs have a packet ready and not the credits for it, and since when in a row (R276). -/
def noteStall (now : Nat) (x : Port) : Port :=
  { x with stall := (List.range 8).foldl (fun m v =>
      let ready := x.out.filter (fun p => decide (linkVc p = v))
      if ready ≠ [] ∧ ready.all (fun p => !x.mayBegin p) then
        (if (Table.get none m v).isNone then Table.set none m v (some now) else m)
      else Table.set none m v none) x.stall }

/-- Hands a packet to a port for sending. -/
def sendOn (p : Nat) (pkt : Packet) (s : State) : State :=
  s.setPort p (noteStall s.now { s.port p with out := (s.port p).out ++ [pkt] })

/-- Opcodes whose request the port times (R270). -/
def timedOp (op : Nat) : Bool :=
  addressOp op || decide (op = opCREDIT) || decide (op = opNODE_ARRIVE) || decide (op = opNODE_RELEASE)

/-- The next tag of a port that no outstanding request has (R272). -/
def Port.freeTag (x : Port) : Nat :=
  let next (k : Nat) : Nat := (x.tag + k) % 65536
  next (((List.range (x.reqs.length + 1)).find? (fun k => x.reqs.all (fun r => decide (r.tag ≠ next k)))).getD 0)

/-- A request comes to a port to leave on it: its SEQ becomes the port's tag; its timer starts when its head flit is sent
(R270). No outstanding request has the tag (R272). A TIME_REQ takes the place of an unanswered earlier one. -/
def sendRequest (p : Nat) (pkt : Packet) (s : State) : State :=
  let x := s.port p
  let tag := x.freeTag
  let rq : PortReq := { tag := tag, ep := pkt.srcEp, seq := pkt.seq, node := pkt.dstNode, limit := 0, pkt := pkt }
  let old := x.reqs.filter (fun r => decide (r.pkt.opcode ≠ opTIME_REQ) || decide (pkt.opcode ≠ opTIME_REQ))
  let s := s.setPort p { x with tag := (tag + 1) % 65536, reqs := old ++ [rq], lateReads := x.lateReads.filter (fun t => decide (t ≠ tag)) }
  sendOn p { pkt with seq := tag } s

/-- A response leaves on the port its request came by, unless that port's link has gone down since (R256, R261); a frozen node answers
no request of another (R427). -/
def sendResponse (p downs : Nat) (pkt : Packet) (s : State) : State :=
  if s.portUp p ∧ (s.port p).downs = downs ∧ s.akm.frozen = false then sendOn p pkt s else s

/-- Outstanding requests of a port are full (R272). -/
def portFull (s : State) (p : Nat) : Bool := decide (4096 ≤ (s.port p).reqs.length)

/-- The port ends a request with a local ERR (R256, R270); a prefetch gets DECLINE (R84). -/
def localErr (p code : Nat) (pkt : Packet) (s : State) : State :=
  let decline := decide (pkt.pf = true) && decide (pkt.opcode = opRD)
  s.inject (homeStop (640 + p))
    (responseTo pkt (640 + p) (if decline then opDECLINE else opERR) (if decline then 0 else code) [])

/-! ### The route decoder of a source stop (R442, R443) -/

/-- What the route decoder makes of a packet. -/
inductive Decoded where
  /-- answered at the stop with an ERR code -/
  | answer (code : Nat)
  /-- discarded (R194) -/
  | drop
  /-- goes to an endpoint and memory stop -/
  | go (ep k : Nat) (pkt : Packet)
  deriving DecidableEq, Repr

/-- Whether the fabric spreads a packet: requests alone are multicast, a response with MCAST set is not (R187, R194). -/
def Packet.spreads (p : Packet) : Bool := decide (p.mcast ≠ 0) && decide (p.cls ≠ clsRSP)

/-- The endpoints that send multicast packets. -/
def multicaster (ep : Nat) : Bool := decide (656 ≤ ep) && decide (ep ≤ 660)

/-- Whether a multicast keeps R192 and R193. -/
def goodMulticast (f : Flight) (local_ : Bool) : Bool :=
  let p := f.pkt
  local_ && multicaster p.srcEp && decide (p.dstEp < 576) && decide (p.mask < 2 ^ 36)
    && (decide (p.opcode = opCREDIT) || (decide (p.opcode = opWR) && decide (p.offset < 2 ^ 23)))
    && (match p.mcast with
        | 1 => decide (p.dstEp % 24 % 6 = 0) && decide (p.dstEp / 24 % 6 = 0)
        | 2 => decide (p.mask < 2 ^ 24) && decide (f.src.row = some (p.dstEp / 24))
        | _ => decide (p.mask < 2 ^ 24))

/-- Whether a request for some bytes from an LPA up touches an LPA outside the populated ranges (R11). -/
def unpopulated (base bytes : Nat) : Bool :=
  decide (placeOf base = .nothing) || decide (placeOf (base + Nat.max 1 bytes - 1) = .nothing)

/-- The bytes an addressed request touches: a word, the bytes of a core's store, or whole sectors. -/
def Packet.bytesAsked (p : Packet) : Nat :=
  if p.opcode = opATOM then (if bitOf p.status 4 then 8 else 4)
  else if p.opcode = opWR ∧ p.narrow then p.data.length
  else 32 * Nat.max 1 p.nsect

/-- Decoding of a request that stays in the node. -/
def decodeLocal (s : State) (p : Packet) : Decoded :=
  if addressOp p.opcode then
    if unpopulated p.offset p.bytesAsked then .answer errUNMAPPED else
    match placeOf p.offset with
    | .nothing => .answer errUNMAPPED
    | .register => .answer errUNMAPPED
    | .dump =>
      if p.jid ≠ 0 then .answer errJOB_DENIED
      else .go ((s.epOf p.offset).getD 0) (bitsOf p.offset 10 1) p
    | .stacked => .go ((s.epOf p.offset).getD 0) (bitsOf p.offset 10 1) p
    | .sram t _ => .go t 0 p
    | .commons => .go ((s.epOf p.offset).getD 0) 0 p
    | .engineMem e _ => .go (624 + e) 0 p
  else if p.opcode = opCREDIT then .go (tallyEp p.tally) 0 p
  else if p.opcode = opARRIVE ∨ (opNODE_ARRIVE ≤ p.opcode ∧ p.opcode ≤ opTIME_RSP) then .go 659 0 p
  else .go p.dstEp 0 p

/-- The route decoder: responses go where their request came from; a request goes to its endpoint, to a port, or is
answered (R17, R442, R443, R259, R260, R263, R264). A multicast with MASK = 0 is discarded also where it breaks R192 or R193
(DESIGN CHOICE, log entry 55). -/
def decodeRoute (s : State) (f : Flight) : Decoded :=
  let p := f.pkt
  if p.cls = clsRSP ∨ (p.opcode = opTIME_RSP ∧ f.via.isSome ∧ p.dstNode ≠ s.nodeId) then
    match f.via with
    | some (q, _) => .go (640 + q) 0 p
    | none => .go p.dstEp 0 p
  else
  let away := f.glob && (!s.nodeValid || decide (p.dstNode ≠ s.nodeId))
  if 662 ≤ p.dstEp then .answer errUNMAPPED
  else if p.mcast ≠ 0 then
    if p.mask = 0 then .drop
    else if goodMulticast f (!f.glob) then .go p.dstEp 0 p
    else .answer errBAD_PACKET
  else if away then
    if ¬ s.nodeValid then .answer errNOT_JOINED
    else match packetPlane s.planeEff p with
      | none => .answer errNOT_JOINED
      | some q => .go (640 + q) 0 { p with dstEp := 640 + q }
  else if f.glob ∧ addressOp p.opcode then
    let c := windowCheck s p
    if c ≠ 0 then .answer c
    else if windowNoPrefetch s p then .answer errWIN_PERM
    else decodeLocal s (translated s p)
  else decodeLocal s p

/-- A packet answered at its source stop: the answer reaches its requester at once, or leaves on the port the request came
by (R442). -/
def answerAtStop (f : Flight) (code : Nat) (s : State) : State :=
  let decline := f.pkt.pf ∧ f.pkt.opcode = opRD
  let rsp := responseTo f.pkt f.pkt.dstEp (if decline then opDECLINE else opERR) (if decline then 0 else code) []
  match f.via with
  | some (q, d) => sendResponse q d rsp s
  | none => { s with delivered := s.delivered ++ [{ ep := f.pkt.srcEp, pkt := rsp }] }

/-! ### Moving and ejecting -/

/-- Whether a port still takes a request steered to it: it is up and its link has not gone down since (R256, R262). -/
def portTakes (s : State) (f : Flight) (p : Nat) : Bool :=
  s.portUp p && (match f.steer with
    | some (_, d) => decide ((s.port p).downs = d)
    | none => true)

/-- A packet that no command takes: its opcode is not one of the spec's, or belongs to class RSP where its own class is another,
or its class is RSP where its opcode's is another. A request is answered BAD_PACKET, by a penned tile PENNED; a response is
discarded (R191, R196, R242). -/
def untaken (p : Packet) : Bool :=
  decide (opClass p.opcode = none) || (decide (opClass p.opcode = some clsRSP) != decide (p.cls = clsRSP))

def answerUntaken (a : Arrival) (s : State) : State :=
  if a.pkt.cls = clsRSP then discardResponse a.ep s
  else refuse a (if a.ep < 576 ∧ s.tileOn a.ep = false then errPENNED else errBAD_PACKET) s

/-- A packet reaches the endpoint at its last stop: a local endpoint keeps it until it is taken, and answers one that none of its
rules takes; a port sends what leaves the node. -/
def eject (f : Flight) (ep k : Nat) (s : State) : State :=
  let p := f.pkt
  let port := decide (640 ≤ ep) && decide (ep < 656)
  if port ∧ f.via.isSome ∧ (p.cls = clsRSP ∨ p.opcode = opTIME_RSP) then
    match f.via with
    | some (q, d) => sendResponse q d p s
    | none => s
  else if port ∧ p.dstNode ≠ s.nodeId ∧ p.cls ≠ clsRSP then
    if portTakes s f (ep - 640) then sendRequest (ep - 640) p s else localErr (ep - 640) errNOT_JOINED p s
  else if untaken p then answerUntaken { ep := ep, k := k, via := f.via, pkt := p } s
  else noteQueue ep { s with delivered := s.delivered ++ [{ ep := ep, k := k, via := f.via, pkt := p }] }

/-- A copy of a multicast for a masked tile (R192 to R194). -/
def copyFor (p : Packet) (t : Nat) : Packet :=
  let p := { p with mcast := 0, mask := 0, dstEp := t }
  if p.opcode = opCREDIT then { p with tally := 192 * t + p.tally % 256 }
  else { p with offset := sramBase t + p.offset % 2 ^ 23 }

/-- Delivers a copy to the tile of a stop where its bit is set. -/
def deliverCopy (f : Flight) (x y bit : Nat) (s : State) : State :=
  if bitOf f.pkt.mask bit then
    { s with delivered := s.delivered ++ [{ ep := 24 * y + x, pkt := copyFor f.pkt (24 * y + x) }] }
  else s

/-- Replaces a flight, or takes it out. -/
def setFlight (n : Nat) (f : Option Flight) (s : State) : State :=
  match f with
  | some f => { s with flights := setAt s.flights n f }
  | none => { s with flights := dropAt s.flights n }

/-- The endpoint and memory stop at a packet's last stop: a response that leaves the node ends at its port. -/
def endpointAt (f : Flight) : Nat × Nat :=
  match f.dst with
  | .tile x y => (24 * y + x, 0)
  | .mem ep k => (ep, k)
  | _ =>
    match f.via with
    | some (q, _) => if f.pkt.cls = clsRSP ∨ f.pkt.opcode = opTIME_RSP then (640 + q, 0) else (f.pkt.dstEp, 0)
    | none => (f.pkt.dstEp, 0)

/-! ### Buffers and virtual channels (R178, R180, R181, R183) -/

/-- The VC number of a packet on a date-line channel (R178). -/
def vcNumber (p : Packet) (vc : Bool) : Nat := 2 * p.cls + (if vc then 1 else 0)

/-- Whether the link between two stops of a ring is its wrap link. -/
def isWrap (r : Ring) (a b : Stop) : Bool :=
  let n := (ringStops r).length
  let i := posOn r a
  let j := posOn r b
  decide ((i + 1 = n ∧ j = 0) ∨ (i = 0 ∧ j + 1 = n))

/-- The number of the die-to-die link that a link of a ring crosses (chapter 8, Registers). -/
def crossing (r : Ring) (a b : Stop) : Option Nat :=
  let base := match r with
    | .row y => 2 * y
    | .col x => 48 + 2 * x
  if isWrap r a b then some (base + 1) else if halfOf r a ≠ halfOf r b then some base else none

/-- The number of the die-to-die link between a side stop and one of its endpoints. -/
def sideLink (ep : Nat) : Option Nat :=
  if 608 ≤ ep ∧ ep < 624 then some (96 + (ep - 608))
  else if 624 ≤ ep ∧ ep < 640 then some (96 + (ep - 624))
  else if 640 ≤ ep ∧ ep < 656 then some (112 + (ep - 640))
  else if 656 ≤ ep ∧ ep < 662 then some (128 + (ep - 656))
  else none

/-- Flits a buffer holds at most (R180, R181). -/
def Buf.depth : Buf → Nat
  | .link r a b _ => if (crossing r a b).isSome then d2dDepth else 4
  | .inject ep _ _ => if (sideLink ep).isSome then d2dDepth else 9
  | .turn _ _ _ => 9

/-- The end of a die-to-die link that sends into a buffer, with the VC: the buffer at the far end of a link that crosses dies,
or at a side stop for its endpoint (R180, R198). -/
def Buf.sender : Buf → Option (Nat × Nat)
  | .link r a b v => (crossing r a b).map (fun n => (2 * n + (if posOn r b = (posOn r a + 1) % (ringStops r).length then 0 else 1), v))
  | .inject ep _ v => (sideLink ep).map (fun n => (2 * n, v))
  | .turn _ _ _ => none

/-- Flits that lie in a buffer now. -/
def occupied (s : State) (b : Buf) : Nat :=
  (s.flights.map (fun f => (f.held.map (fun e => if e.1 = b then e.2 else 0)).sum)).sum

/-- Flits that a buffer can still take: its free slots, as far as the sender holds credits for them (R180). -/
def room (s : State) (b : Buf) : Nat :=
  match b.sender with
  | some (e, v) => Nat.min (b.depth - occupied s b) ((s.link e).credit v)
  | none => b.depth - occupied s b

/-- Whether some packet has sent its head over a link and not yet its tail: it holds the link's VC (R180). -/
def vcHeld (s : State) (b : Buf) : Bool := s.flights.any (fun g => g.held.dropLast.any (fun e => decide (e.1 = b)))

/-- Whether a packet may start into a buffer: a link needs its VC free and a credit for the head flit, a turn or injection
buffer room for every flit (R180, R181). -/
def mayEnter (s : State) (p : Packet) (b : Buf) : Bool :=
  match b with
  | .link _ _ _ _ => decide (0 < room s b) && !vcHeld s b
  | _ => decide (flitsOf p ≤ room s b)

/-- Flits dealt to buffers in order, to each as many as it can take. -/
def dealFlits : List Nat → Nat → List Nat
  | [], _ => []
  | c :: l, n => Nat.min c n :: dealFlits l (n - Nat.min c n)

/-- The flits of a packet drawn forward through the buffers it occupies, as far as each has room. -/
def drawn (s : State) (held : List (Buf × Nat)) (total : Nat) : List (Buf × Nat) :=
  let caps := held.map (fun e => e.2 + room s e.1)
  ((held.map (·.1)).zip (dealFlits caps total)).filter (fun e => decide (e.2 ≠ 0))

/-- The place behind the packets whose head already lies in a buffer. -/
def placeIn (s : State) (b : Buf) : Nat :=
  s.flights.foldl (fun m g => match g.held.head? with
    | some e => if e.1 = b then Nat.max m (g.since + 1) else m
    | none => m) 0

/-- A packet's head enters a buffer: a link draws its flits after it, a turn or injection buffer takes them all. -/
def entering (s : State) (b : Buf) (f : Flight) : Flight :=
  let n := flitsOf f.pkt
  { f with
    since := placeIn s b,
    held := match b with
      | .link _ _ _ _ => drawn s ((b, 0) :: f.held) n
      | _ => [(b, n)] }

/-- Whether no other packet lies before this one's head in its buffer. -/
def atFront (s : State) (f : Flight) : Bool :=
  match f.held.head? with
  | none => true
  | some b => !s.flights.any (fun g =>
      g.held.tail.any (fun e => decide (e.1 = b.1))
        || (match g.held.head? with
            | some e => decide (e.1 = b.1) && decide (g.since < f.since)
            | none => false))

/-- The input and date-line channel by which a packet waits at an output, as a number for the rotating order of R183: the two
ways of the row ring and of the column ring, a turn buffer, the stop's endpoints (the order among them is a DESIGN CHOICE, log
entry 46). -/
def inputSlot (f : Flight) : Nat :=
  match f.held.head? with
  | some (.link r a b v, _) =>
    (match r with
      | .row _ => 0
      | .col _ => 4) + (if posOn r b = (posOn r a + 1) % (ringStops r).length then 0 else 2) + v % 2
  | some (.turn _ _ v, _) => 8 + v % 2
  | some (.inject ep _ v, _) => (if 624 ≤ ep ∧ ep < 640 then 12 else 10) + v % 2
  | none => 0

/-- The output that leads into a buffer. -/
def Buf.output : Buf → Output
  | .link r a b _ => .link r a b
  | .turn at_ r _ => .turn at_ r
  | .inject _ at_ _ => .eject at_

/-! ### The next stop of a packet -/

/-- Where a multicast packet starts its tree or line, once it is there. -/
def treeLeg (f : Flight) : Leg :=
  if f.pkt.mcast = 1 then .foldRow
  else if f.pkt.mcast = 2 then .line ((ringStops (.row (f.pkt.dstEp / 24))).length - 1)
  else .line ((ringStops (.col (f.pkt.dstEp % 24))).length - 1)

/-- The stop a multicast packet heads for first: the fold origin, the stop it is at, or the column's entry. -/
def treeHead (f : Flight) : Stop :=
  if f.pkt.mcast = 1 then .tile (f.pkt.dstEp % 24) (f.pkt.dstEp / 24)
  else if f.pkt.mcast = 2 then f.src
  else if f.src.col = f.pkt.dstEp % 24 then f.src
  else .tile (f.pkt.dstEp % 24) (f.src.row.getD 0)

/-- The ring that a tree's row or a line runs on. -/
def treeRing (f : Flight) : Ring :=
  if f.pkt.mcast = 3 then .col (f.pkt.dstEp % 24) else .row (f.pkt.dstEp / 24)

/-- The turn that a multicast takes into its tree or line, where it comes to it by another ring. -/
def treeTurn (f : Flight) : Option Buf :=
  let same := match treeRing f with
    | .row y => decide (f.src.row = some y)
    | .col x => decide (f.src.col = x) && decide (f.stop = f.src)
  if same then none else some (.turn f.stop (treeRing f) (vcNumber f.pkt false))

/-- Whether a fold multicast in its row at column offset `j` has masked tiles below it, and further on. -/
def foldBelow (p : Packet) (j : Nat) : Bool := (List.range 6).any (fun i => decide (0 < i) && bitOf p.mask (6 * i + j))
def foldOn (p : Packet) (j : Nat) : Bool :=
  (List.range 6).any (fun k => decide (j < k) && (List.range 6).any (fun i => bitOf p.mask (6 * i + k)))

/-- Whether a fold multicast at row offset `i` of column offset `j` has masked tiles further down. -/
def foldDown (p : Packet) (i j : Nat) : Bool := (List.range 6).any (fun k => decide (i < k) && bitOf p.mask (6 * k + j))

/-- The next stop of a line in increasing position. -/
def lineNext (f : Flight) : Stop :=
  let l := ringStops (treeRing f)
  l.getD ((posOn (treeRing f) f.stop + 1) % l.length) f.stop

/-- The link that a packet on a ring takes towards a stop, and its VC there. -/
def linkTo (f : Flight) (r : Ring) (nx : Stop) : Buf :=
  .link r f.stop nx (vcNumber f.pkt (f.pkt.vc || isWrap r f.stop nx))

/-- The buffers that a packet's head goes into next: none where it leaves the fabric at its stop. -/
def nextBufs (f : Flight) : List Buf :=
  match f.leg with
  | .source => []
  | .foldRow => match f.stop with
    | .tile x y =>
      let j := x - f.pkt.dstEp % 24
      (if foldOn f.pkt j then [linkTo f (.row y) (.tile (x + 1) y)] else [])
        ++ (if foldBelow f.pkt j then [.turn f.stop (.col x) (vcNumber f.pkt false)] else [])
    | _ => []
  | .foldCol => match f.stop with
    | .tile x y =>
      if foldDown f.pkt (y - f.pkt.dstEp / 24) (x - f.pkt.dstEp % 24) then [linkTo f (.col x) (.tile x (y + 1))] else []
    | _ => []
  | .line k => if k = 0 then [] else [linkTo f (treeRing f) (lineNext f)]
  | leg =>
    if f.stop = f.dst then (if f.pkt.spreads then (treeTurn f).toList else []) else
    match routeOf (decide (f.pkt.cls = clsRSP)) f.src f.dst with
    | [] => []
    | [(r, b)] => [linkTo f r (nextStop r f.stop b).1]
    | (r, b) :: (r', b') :: _ =>
      if leg = .first then
        (if f.stop = b then [.turn b r' (vcNumber f.pkt false)] else [linkTo f r (nextStop r f.stop b).1])
      else [linkTo f r' (nextStop r' f.stop b').1]

/-- The outputs a packet asks for. -/
def outputsOf (f : Flight) : List Output :=
  match nextBufs f with
  | [] => [.eject f.stop]
  | l => l.map Buf.output

/-- The endpoint whose injection buffer a packet at its source stop goes through: the port it came by, or its sender. -/
def injector (f : Flight) : Nat :=
  match f.rx with
  | some (p, _, _) => 640 + p
  | none => f.pkt.srcEp

/-- The injection buffer of a packet at its source stop. -/
def injectBuf (f : Flight) : Buf := .inject (injector f) f.stop (vcNumber f.pkt false)

/-! ### Moving -/

/-- A receive buffer of a port is freed when its packet goes on into the fabric, and its credits are owed (R254). -/
def releaseRx (f : Flight) (s : State) : State :=
  match f.rx with
  | some (p, v, n) =>
    let x := s.port p
    s.setPort p { x with rxUsed := (List.range 8).map (fun k => x.rxUsed.getD k 0 - (if k = v then n else 0)), freed := addAt x.freed v n }
  | none => s

/-- Of a packet's flits, those that lie in a buffer or have passed it, and those that have passed it: all of them once it has left
the buffer. -/
def reached (held : List (Buf × Nat)) (b : Buf) (total : Nat) : Nat :=
  match held.findIdx? (fun e => decide (e.1 = b)) with
  | some i => ((held.take (i + 1)).map (·.2)).sum
  | none => total

def passed (held : List (Buf × Nat)) (b : Buf) (total : Nat) : Nat :=
  match held.findIdx? (fun e => decide (e.1 = b)) with
  | some i => ((held.take i).map (·.2)).sum
  | none => total

/-- The end that receives a die-to-die link's flits sends a frame of its own, with the buffers it has freed and the NAK it owes,
and the far end takes it (R199). -/
def sendControl (e : Nat) (s : State) : State :=
  let s := s.setLink e ((s.link e).sendFrame [])
  match (s.link e).wire.getLast? with
  | some f => s.setLink (otherEnd e) ((s.link (otherEnd e)).takeControl f.ack f.credits)
  | none => s

/-- Flit slots of a VC are freed at the receiving end of a die-to-die link and return to the sending end as credits (R180). -/
def freeSlots (e v n : Nat) (s : State) : State :=
  if n = 0 then s else
  let r := otherEnd e
  sendControl r (s.setLink r { s.link r with freed := addAt (s.link r).freed v n })

/-- What goes over die-to-die links as a packet's flits move from the buffers they lay in to others: the flits that now cross one
leave in frames, and the slots that they free at its far end return as credits (R180, R199). -/
def crossFlits (p : Packet) (old new : List (Buf × Nat)) (s : State) : State :=
  let total := flitsOf p
  let was (f : List (Buf × Nat) → Buf → Nat → Nat) (b : Buf) : Nat := if old.any (fun e => decide (e.1 = b)) then f old b total else 0
  forEach ((old.map (·.1) ++ new.map (·.1)).eraseDups) (fun b s =>
    match b.sender with
    | some (e, v) =>
      let sent := slice (slotsOf p v) (was reached b) (reached new b total - was reached b)
      freeSlots e v (passed new b total - was passed b) (sendFlits e sent s)
    | none => s) s

/-- A flight goes on with what it holds now. -/
def moveFlight (n : Nat) (f g : Flight) (s : State) : State := setFlight n (some g) (crossFlits f.pkt f.held g.held s)

/-- A flight has left the fabric. -/
def endFlight (n : Nat) (f : Flight) (s : State) : State := setFlight n none (crossFlits f.pkt f.held [] s)

/-- A packet leaves a side stop for its endpoint: over the die-to-die link between them, whose buffer the endpoint empties at
once. -/
def overSide (ep : Nat) (p : Packet) (s : State) : State :=
  match sideLink ep with
  | some n => freeSlots (2 * n + 1) (vcNumber p p.vc) (flitsOf p) (sendFlits (2 * n + 1) (slotsOf p (vcNumber p p.vc)) s)
  | none => s

/-- One step of a fold multicast in its row (R192): a copy for its tile, a branch that turns into the column, and the way on
along the row. -/
def foldRowStep (n x y : Nat) (f : Flight) (s0 : State) : State :=
  let j := x - f.pkt.dstEp % 24
  let nx := Stop.tile (x + 1) y
  let on := entering s0 (linkTo f (.row y) nx) { f with stop := nx, cycles := f.cycles + linkCycles s0 (.row y) f.stop nx false }
  let s := crossFlits f.pkt f.held (if foldOn f.pkt j then on.held else []) s0
  let s := deliverCopy f x y j (setFlight n none s)
  let turn : Buf := .turn f.stop (.col x) (vcNumber f.pkt false)
  let s := if foldBelow f.pkt j then
      { s with flights := s.flights ++ [entering s0 turn { f with leg := .foldCol, cycles := f.cycles + 2, pkt := { f.pkt with vc := false } }] }
    else s
  if foldOn f.pkt j then { s with flights := s.flights ++ [on] } else s

/-- One step of a fold multicast down a column (R192). -/
def foldColStep (n x y : Nat) (f : Flight) (s : State) : State :=
  let j := x - f.pkt.dstEp % 24
  let i := y - f.pkt.dstEp / 24
  let s := if i = 0 then s else deliverCopy f x y (6 * i + j) s
  if foldDown f.pkt i j then
    let nx := Stop.tile x (y + 1)
    moveFlight n f (entering s (linkTo f (.col x) nx)
      { f with stop := nx, cycles := f.cycles + linkCycles s (.col x) f.stop nx false }) s
  else endFlight n f s

/-- One step of a line multicast (R193): the copy at this stop, then the next stop in increasing position. -/
def lineStep (n left : Nat) (f : Flight) (s : State) : State :=
  let ring := treeRing f
  let s := match f.stop with
    | .tile x y => deliverCopy f x y (if f.pkt.mcast = 2 then x else y) s
    | _ => s
  match left with
  | 0 => endFlight n f s
  | k + 1 =>
    let nx := lineNext f
    let wrap := isWrap ring f.stop nx
    let vc := f.pkt.vc || wrap
    moveFlight n f (entering s (linkTo f ring nx) { f with
      stop := nx, leg := .line k, pkt := { f.pkt with vc := vc },
      cycles := f.cycles + linkCycles s ring f.stop nx wrap }) s

/-- Moves a flight to the next stop of a ring towards a stop (R177, R178, R180). -/
def hop (n : Nat) (r : Ring) (b : Stop) (f : Flight) (s : State) : State :=
  let (nx, wrap) := nextStop r f.stop b
  let vc := f.pkt.vc || wrap
  moveFlight n f (entering s (linkTo f r nx) { f with
    stop := nx, cycles := f.cycles + linkCycles s r f.stop nx wrap, pkt := { f.pkt with vc := vc } }) s

/-- A packet enters the turn buffer at the end of its first phase: its second phase begins, on VC 0 (R176, R178, R181). -/
def turnInto (n : Nat) (r : Ring) (f : Flight) (s : State) : State :=
  moveFlight n f (entering s (.turn f.stop r (vcNumber f.pkt false)) { f with
    leg := .second, cycles := f.cycles + 2, pkt := { f.pkt with vc := false } }) s

/-- A packet at its last stop: a multicast starts its tree or line, on VC 0 also where that goes on along the ring the packet came
by (DESIGN CHOICE, log entry 55); any other packet leaves the fabric. -/
def arriveAt (n : Nat) (f : Flight) (s : State) : State :=
  if f.pkt.spreads then
    let g := { f with leg := treeLeg f, pkt := { f.pkt with vc := false } }
    moveFlight n f (match treeTurn f with
      | some b => entering s b { g with cycles := g.cycles + 2 }
      | none => g) s
  else
    let (ep, k) := endpointAt f
    eject f ep k (overSide ep f.pkt (endFlight n f s))

/-- A packet moves one stop on its way (R176 to R178), turns, or ends its way at its last stop. -/
def moveOn (n : Nat) (f : Flight) (s : State) : State :=
  if f.stop = f.dst then arriveAt n f s else
  match routeOf (decide (f.pkt.cls = clsRSP)) f.src f.dst with
  | [] => arriveAt n f s
  | [(r, b)] => hop n r b f s
  | (r, b) :: (r', b') :: _ =>
    if f.leg = .first then (if f.stop = b then turnInto n r' f s else hop n r b f s) else hop n r' b' f s

/-- The stop a request or response starts from and heads for, once its source stop has decoded it. A request to another
node keeps the port it is steered to. Its VC is that of its first phase, whatever its header held (R178, R252). -/
def launchFlight (n : Nat) (f : Flight) (s : State) : State :=
  match decodeRoute s f with
  | .drop => releaseRx f (setFlight n none s)
  | .answer code => answerAtStop f code (releaseRx f (setFlight n none s))
  | .go ep k p =>
    let p := if p.spreads = false ∧ p.cls ≠ clsRSP ∧ p.dstNode = s.nodeId then { p with dstEp := ep } else p
    let p := { p with vc := false }
    let f' := { f with pkt := p }
    let d := if p.spreads then treeHead f' else (stopOf ep k).getD f.src
    let steered := decide (640 ≤ ep) && decide (ep < 656) && decide (p.dstNode ≠ s.nodeId) && decide (p.cls ≠ clsRSP)
    let g := entering s (injectBuf f) { f' with
      dst := d, leg := if (routeOf (decide (p.cls = clsRSP)) f.src d).length = 2 then .first else .second,
      cycles := 2 + (if sideStop f.src then 14 else 0), glob := false,
      steer := if steered then some (ep - 640, (s.port (ep - 640)).downs) else none, rx := none }
    setFlight n (some g) (releaseRx f (crossFlits p [] g.held s))

/-- Whether a quiesce holds what has arrived from another node at its port (R336). -/
def quiesced (s : State) (f : Flight) : Bool :=
  s.ckp.quiesce.isSome && f.via.isSome && decide (f.leg = .source) && [opRD, opWR, opATOM, opCREDIT].elem f.pkt.opcode

/-- Whether a flight could move but for the packets it shares its next output with: no quiesce holds it; no earlier flight
of its class, source and destination is at its stop (R179) and none lies before it in its buffer; the buffers it goes into
take it (R180, R181); a port that it leaves by has room for another outstanding request (R272), and a memory port it enters
has room (R217). -/
def ready (s : State) (n : Nat) (f : Flight) : Bool :=
  !quiesced s f &&
  !((s.flights.take n).any (fun g =>
      decide (g.pkt.cls = f.pkt.cls) && decide (g.src = f.src) && decide (g.stop = f.stop) && decide (g.leg = f.leg)
        && !quiesced s g && (decide (f.leg = .source) || decide (g.dst = f.dst))))
    && atFront s f
    && (if f.leg = .source then
          (match decodeRoute s f with
            | .go _ _ _ => mayEnter s f.pkt (injectBuf f)
            | _ => true)
        else (nextBufs f).all (mayEnter s f.pkt))
    && (match f.dst with
        | .east y =>
          let p := stopNumber (.east y) - 640
          !(decide (f.leg ≠ .source) && decide (f.stop = f.dst) && decide (f.pkt.dstNode ≠ s.nodeId)
            && decide (f.pkt.cls ≠ clsRSP) && decide (f.pkt.opcode ≠ opTIME_RSP) && portTakes s f p && portFull s p)
        | .mem ep _ => !(decide (f.stop = f.dst) && decide (f.leg ≠ .source) && portStalled s ep)
        | _ => true)

/-- The input served last at an output in a class. -/
def servedLast (s : State) (o : Output) (cls : Nat) : Nat :=
  ((s.arb.find? (fun e => decide (e.1 = (o, cls)))).map (·.2)).getD 13

/-- How far on in the rotating order an input is from the one served last. -/
def rotationOf (s : State) (o : Output) (f : Flight) : Nat := (inputSlot f + 13 - servedLast s o f.pkt.cls) % 14

/-- Whether another packet that is ready goes first at one of the outputs a packet asks for: one of a higher class, or in
its class one that comes earlier in the rotating order (R183). -/
def outranked (s : State) (n : Nat) (f : Flight) : Bool :=
  s.flights.zipIdx.any (fun e =>
    let g := e.1
    decide (e.2 ≠ n) && decide (g.leg ≠ .source) && (outputsOf f).any (fun o =>
      (outputsOf g).elem o && (decide (g.pkt.cls < f.pkt.cls)
        || (decide (g.pkt.cls = f.pkt.cls) && decide (rotationOf s o g < rotationOf s o f))))
      && ready s e.2 g)

/-- Whether a flight may move. -/
def mayMove (s : State) (n : Nat) (f : Flight) : Bool :=
  ready s n f && (decide (f.leg = .source) || !outranked s n f)

/-- The outputs a packet has taken note whom they served (R183). -/
def noteServed (f : Flight) (s : State) : State :=
  if f.leg = .source then s
  else
    let os := outputsOf f
    { s with arb := s.arb.filter (fun e => !(os.elem e.1.1 && decide (e.1.2 = f.pkt.cls))) ++ os.map (fun o => ((o, f.pkt.cls), inputSlot f)) }

/-- A penned tile's router injects nothing of its tile's (R195). -/
def injectionStopped (s : State) (f : Flight) : Bool :=
  decide (f.leg = .source) && decide (f.pkt.cls ≠ clsRSP) && decide (f.pkt.srcEp < 576) && f.via.isNone
    && decide (f.pkt.opcode ≠ opCREDIT) && !s.tileOn f.pkt.srcEp

/-- What a link error does to a packet as it moves (R197), and the move. -/
def routeStep (n : Nat) (err : FlitError) (f : Flight) (s : State) : State :=
  let at_ := stopNumber f.stop
  let go (f : Flight) (s : State) : State :=
    match f.leg with
    | .source => launchFlight n f s
    | .foldRow => match f.stop with
      | .tile x y => foldRowStep n x y f s
      | _ => endFlight n f s
    | .foldCol => match f.stop with
      | .tile x y => foldColStep n x y f s
      | _ => endFlight n f s
    | .line k => lineStep n k f s
    | _ => moveOn n f s
  let go (g : Flight) (s : State) : State := go g (noteServed f s)
  match err with
  | .none => go f s
  | .corrected => go f (s.bump .pfbErrStatus 0 16 32)
  | .payload k =>
    if k < (f.pkt.data.length + 31) / 32 then
      go { f with pkt := { f.pkt with poison := if f.pkt.poison.elem k then f.pkt.poison else f.pkt.poison ++ [k] } }
        (flitError at_ s)
    else go f s
  | .header => headerError at_ (releaseRx f (endFlight n f s))

/-- PACKET_ROUTE (R176 to R183, R192 to R197, R442). Where a packet's head waits, its body flits close up. -/
def packetRouteStep (n : Nat) (err : FlitError) (s : State) : State :=
  match s.flights[n]? with
  | some f =>
    if mayMove s n f = false then moveFlight n f { f with held := drawn s f.held (flitsOf f.pkt) } s
    else if injectionStopped s f then
      setFlight n none { s with requests := s.requests.filter (fun r => !(decide (r.ep = f.pkt.srcEp) && decide (r.seq = f.pkt.seq))) }
    else routeStep n err f s
  | none => s

def execPacketRoute (n : Nat) (err : FlitError) (s : State) : Host.Outcome State Fault Refusal :=
  .next (packetRouteStep n err s)

/-! ### Die-to-die frames (R199, R200) -/

/-- A die-to-die link has failed (R200): it is down for good. The error is fatal after P2; in P2 the boot fails (R380, R426). -/
def linkFailed (n : Nat) (s : State) : State :=
  let t := (s.setBit .pfbD2dStatus n 1).clearBit .pfbD2dStatus n 0
  let t := (fabricError 2 (0x8000 + n) t).linkEvent 2 n 0 660
  if 3 ≤ s.bootPhase then raiseFatal 2 t else if s.bootPhase = 2 ∧ s.bootState = 0 then bootFail 2 t else t

/-- A NAK comes to an end of a link (R200): every frame after the acknowledged one goes out again in order, counted in REPLAYS;
when the same frame has failed 16 replays in a row the link has failed. -/
def linkReplay (e : Nat) (s : State) : State :=
  let n := e / 2
  let x := s.link e
  match framesAfter x.acked x.store with
  | [] => s
  | first :: rest =>
    let times := replayTimes x.failing x.retries first
    if 16 < times then linkFailed n s
    else (s.setLink e { x with retries := times, failing := some first.seq, wire := x.wire ++ first :: rest }).bump
      .pfbD2dStatus n 16 32 (rest.length + 1)

/-- The ends of a die-to-die link of a ring, in increasing position. -/
def linkEnds (n : Nat) : Ring × Stop × Stop :=
  let r : Ring := if n < 48 then .row (n / 2) else .col ((n - 48) / 2)
  let l := ringStops r
  let first := l.headD (.tile 0 0)
  if n % 2 = 1 then (r, l.getLastD first, first)
  else
    match (l.zip (l.drop 1)).find? (fun e => decide (halfOf r e.1 ≠ halfOf r e.2)) with
    | some e => (r, e.1, e.2)
    | none => (r, first, first)

/-- The stop a packet heads for, by its header. -/
def headedFor (p : Packet) : Stop :=
  (stopOf p.dstEp (if addressOp p.opcode then bitsOf p.offset 10 1 else 0)).getD (homeStop p.dstEp)

/-- Where a packet that a link of a ring carries comes in, by its route: its source and destination stops, the stop at the far
end of the link and its leg. -/
def linkEntry (n : Nat) (p : Packet) : Option (Stop × Stop × Stop × Leg) :=
  let (r, a, b) := linkEnds n
  let dst := headedFor p
  [0, 1].findSome? (fun k =>
    let src := (stopOf p.srcEp k).getD (homeStop p.srcEp)
    let route := routeOf (decide (p.cls = clsRSP)) src dst
    route.zipIdx.findSome? (fun e =>
      if e.1.1 ≠ r then none
      else
        let leg : Leg := if e.2 = 0 ∧ route.length = 2 then .first else .second
        if (nextStop r a e.1.2).1 = b ∧ a ≠ e.1.2 then some (src, dst, b, leg)
        else if (nextStop r b e.1.2).1 = a ∧ b ≠ e.1.2 then some (src, dst, a, leg) else none))

/-- Whether two packets are the same packet of the same sender. -/
def samePacket (p q : Packet) : Bool :=
  decide (p.srcEp = q.srcEp) && decide (p.srcNode = q.srcNode) && decide (p.seq = q.seq) && decide (p.cls = q.cls)
    && decide (p.opcode = q.opcode) && decide (p.dstEp = q.dstEp)

/-- A packet that no flight shows comes in at the far end of a link of a ring: its flits lie in the buffer there, and their sender's
credits are spent. -/
def landAt (e : Nat) (p : Packet) (src dst at_ : Stop) (leg : Leg) (s : State) : State :=
  let (r, a, b) := linkEnds (e / 2)
  let v := vcNumber p p.vc
  let buf : Buf := if at_ = b then .link r a b v else .link r b a v
  let x := s.link (otherEnd e)
  let s := s.setLink (otherEnd e) { x with
    credits := (List.range 8).map (fun k => x.credit k - (if k = v then flitsOf p else 0)) }
  let f : Flight :=
    { pkt := p, src := src, dst := dst, stop := at_, leg := leg, held := [(buf, flitsOf p)], since := placeIn s buf }
  { s with flights := s.flights ++ [f] }

/-- A whole packet comes to an end of a die-to-die link (log entry 46). One that stands before the link crosses it now; one that
has crossed already stays where it is; any other comes in at the far end of the link. A bad HCRC, or a route that does not take
the link, is a fatal header error (R188, R197). -/
def takeFromLink (e : Nat) (fl : List (List Byte × Bool)) (s : State) : State :=
  let n := e / 2
  let h := (fl.flatMap (·.1)).take 32
  let p := packetOfFlits fl
  if hcrcOf h ≠ natOf (slice h 30 2) then headerError (0x8000 + n) s else
  match s.flights.findIdx? (fun f => samePacket f.pkt p) with
  | some m =>
    match s.flights[m]? with
    | some f =>
      let f := { f with pkt := { f.pkt with poison := f.pkt.poison ++ p.poison.filter (fun k => !f.pkt.poison.elem k) } }
      if f.leg = .source then (if sideLink (injector f) = some n then launchFlight m f s else s)
      else if f.pkt.spreads then s
      else if f.stop = f.dst then (if sideLink (endpointAt f).1 = some n then arriveAt m f s else s)
      else
        match nextBufs f with
        | [.link r a b _] => if crossing r a b = some n then moveOn m f s else s
        | _ => s
    | none => s
  | none =>
    if 96 ≤ n then
      if sideLink p.dstEp = some n then
        eject { pkt := p, src := homeStop p.srcEp, dst := homeStop p.dstEp, stop := homeStop p.dstEp, leg := .second } p.dstEp 0 s
      else s.inject (homeStop p.srcEp) p
    else
      match linkEntry n p with
      | some (src, dst, at_, leg) => landAt e p src dst at_ leg s
      | none => headerError (0x8000 + n) s

/-- The flits of a frame taken in order: on each VC a HEAD starts a packet and a TAIL ends it. -/
def takeLinkFlits (e : Nat) (fl : List (Nat × List Byte)) (s : State) : State :=
  forEach fl (fun f s =>
    let x := s.link e
    let vc := bitsOf f.1 3 3
    let old := Table.get [] x.rx vc
    let flit := (f.2, bitOf f.1 6)
    let got := if bitOf f.1 1 then [flit] else if old.isEmpty then [] else old ++ [flit]
    if bitOf f.1 2 ∧ ¬ got.isEmpty then takeFromLink e got (s.setLink e { x with rx := Table.set [] x.rx vc [] })
    else s.setLink e { x with rx := Table.set [] x.rx vc got }) s

/-- The end of a link that a packet comes to, by its route. -/
def endFor (n : Nat) (p : Packet) : Option Nat :=
  if 96 ≤ n then (if sideLink p.dstEp = some n then some (2 * n) else if sideLink p.srcEp = some n then some (2 * n + 1) else none)
  else (linkEntry n p).map (fun e => if e.2.2.1 = (linkEnds n).2.2 then 2 * n + 1 else 2 * n)

/-- The end of a link that a frame comes to: where its first packet goes, or where a packet on the VC of its first flit has begun,
or the one that expects its number. A frame that says nothing of it comes to either, by a free choice (log entry 46). -/
def frameEnd (s : State) (n : Nat) (frame : List Byte) : Nat :=
  let fl := frameFlits frame 5 640
  let one (l : List Nat) : Option Nat := match l with
    | [e] => some e
    | _ => none
  let ends := [2 * n, 2 * n + 1]
  let byHead := (fl.find? (fun f => bitOf f.1 1)).bind (fun f => endFor n (packetOfFlits [(f.2, false)]))
  let byOpen := fl.head?.bind (fun f => one (ends.filter (fun e => !(Table.get [] (s.link e).rx (bitsOf f.1 3 3)).isEmpty)))
  let byNum := one (ends.filter (fun e => decide ((s.link e).expect = natOf (slice frame 645 2) % 4096)))
  ((byHead.orElse (fun _ => byOpen)).orElse (fun _ => byNum)).getD (if Config.freeBool s.freeCtr then 2 * n + 1 else 2 * n)

/-- A frame received at an end of a die-to-die link: a bad CRC or a gap is answered with NAK, in a frame that goes out at once and
has the far end send again; a good one is taken in order, with its acknowledgement, NAK, credit returns and flits. -/
def takeEndFrame (e : Nat) (frame : List Byte) (s : State) : State :=
  let x := s.link e
  let seq := natOf (slice frame 645 2) % 4096
  let good := decide (crc64 (frame.take 760) = natOf (slice frame 760 8)) && decide (seq = x.expect)
  if good = false then linkReplay (otherEnd e) (sendControl e (s.setLink e { x with nak := true }))
  else
    let word := natOf (slice frame 647 2)
    let s := s.setLink e (x.takeControl (word % 4096) ((List.range 8).map (fun v => (frame.getD (649 + v) 0).toNat)))
    let s := if bitOf word 12 then linkReplay e s else s
    takeLinkFlits e (frameFlits frame 5 640) s

/-- A frame received on a die-to-die link. -/
def takeD2d (n : Nat) (frame : List Byte) (s : State) : State := takeEndFrame (frameEnd s n frame) frame s.fresh

/-- D2D_FRAME (R199, R200): on a link that is up. -/
def execD2dFrame (n : Nat) (frame : List Byte) (s : State) : Host.Outcome State Fault Refusal :=
  act (decide (n < 134) && decide (frame.length = 768) && s.bit .pfbD2dStatus n 0) (takeD2d n frame) s

/-! ### Penning a router (R195) -/

/-- PFB_PEN_REQ: AKM pens a tile; a tile of 576 and above does nothing. -/
def penRequest (v : Word) (s : State) : State := s.duePen 0 (bitsOf v.toNat 0 10) none

def pfbPenReq (src : Requester) (v : Word) (s : State) : State :=
  guardedWrite src (decide (src ≠ .akm)) (penRequest v) s

def execPfbPenReq (src : Requester) (v : Word) (s : State) : Host.Outcome State Fault Refusal :=
  .next (pfbPenReq src v s)

end Sys2Proof.Machine
end

