-- ==== Sys2Proof/Machine/Crypto.lean ====
section
/-! DEFINITION. SHA-512 and HMAC-SHA-512 (FIPS 180-4, FIPS 198-1) and AES-256-GCM (FIPS 197, SP 800-38D), which chapters 14
to 18 name. -/

namespace Sys2Proof.Machine

/-! ### SHA-512 -/

/-- The 64-bit words that numbers of 256 bits spell, the most significant word of each first. -/
def wordsIn (rows : List Nat) : List Word :=
  rows.flatMap (fun r => [3, 2, 1, 0].map (fun k => BitVec.ofNat 64 (r / 2 ^ (64 * k))))

/-- The round constants: the first 64 bits of the fractional parts of the cube roots of the first 80 primes, four to a row. -/
def cubeRootRows : List Nat := [
  0x428a2f98d728ae227137449123ef65cdb5c0fbcfec4d3b2fe9b5dba58189dbbc,
  0x3956c25bf348b53859f111f1b605d019923f82a4af194f9bab1c5ed5da6d8118,
  0xd807aa98a303024212835b0145706fbe243185be4ee4b28c550c7dc3d5ffb4e2,
  0x72be5d74f27b896f80deb1fe3b1696b19bdc06a725c71235c19bf174cf692694,
  0xe49b69c19ef14ad2efbe4786384f25e30fc19dc68b8cd5b5240ca1cc77ac9c65,
  0x2de92c6f592b02754a7484aa6ea6e4835cb0a9dcbd41fbd476f988da831153b5,
  0x983e5152ee66dfaba831c66d2db43210b00327c898fb213fbf597fc7beef0ee4,
  0xc6e00bf33da88fc2d5a79147930aa72506ca6351e003826f142929670a0e6e70,
  0x27b70a8546d22ffc2e1b21385c26c9264d2c6dfc5ac42aed53380d139d95b3df,
  0x650a73548baf63de766a0abb3c77b2a881c2c92e47edaee692722c851482353b,
  0xa2bfe8a14cf10364a81a664bbc423001c24b8b70d0f89791c76c51a30654be30,
  0xd192e819d6ef5218d69906245565a910f40e35855771202a106aa07032bbd1b8,
  0x19a4c116b8d2d0c81e376c085141ab532748774cdf8eeb9934b0bcb5e19b48a8,
  0x391c0cb3c5c95a634ed8aa4ae3418acb5b9cca4f7763e373682e6ff3d6b2b8a3,
  0x748f82ee5defb2fc78a5636f43172f6084c87814a1f0ab728cc702081a6439ec,
  0x90befffa23631e28a4506cebde82bde9bef9a3f7b2c67915c67178f2e372532b,
  0xca273eceea26619cd186b8c721c0c207eada7dd6cde0eb1ef57d4f7fee6ed178,
  0x06f067aa72176fba0a637dc5a2c898a6113f9804bef90dae1b710b35131c471b,
  0x28db77f523047d8432caab7b40c724933c9ebe0a15c9bebc431d67c49c100d4c,
  0x4cc5d4becb3e42b6597f299cfc657e2a5fcb6fab3ad6faec6c44198c4a475817]

/-- The first hash value: the same of the square roots of the first 8 primes. -/
def squareRootRows : List Nat := [
  0x6a09e667f3bcc908bb67ae8584caa73b3c6ef372fe94f82ba54ff53a5f1d36f1,
  0x510e527fade682d19b05688c2b3e6c1f1f83d9abfb41bd6b5be0cd19137e2179]

/-- The sum without carry of a word turned right by each of some distances. -/
def turned (by_ : List Nat) (x : Word) : Word := by_.foldl (fun y n => y ^^^ x.rotateRight n) 0

/-- The word of the schedule that follows 16 of them. -/
def nextWord (w : List Word) : Word :=
  let near := w.getD 14 0
  let far := w.getD 1 0
  w.headD 0 + w.getD 9 0 + (turned [19, 61] near ^^^ (near >>> 6)) + (turned [1, 8] far ^^^ (far >>> 7))

/-- A round: the working words a to h, and the 16 words of the schedule from its own on; its constant is `k`. -/
def shaRound (st : List Word × List Word) (k : Word) : List Word × List Word :=
  match st with
  | ([a, b, c, d, e, f, g, h], w) =>
    let chosen := g ^^^ (e &&& (f ^^^ g))
    let most := (a &&& b) ||| (c &&& (a ||| b))
    let t := h + k + w.headD 0 + chosen + turned [14, 18, 41] e
    ([t + most + turned [28, 34, 39] a, a, b, c, d + t, e, f, g], w.tail ++ [nextWord w])
  | _ => st

/-- The hash value after one block of 128 bytes. -/
def shaBlock (h : List Word) (b : List Byte) : List Word :=
  let first := (chunksOf 8 16 b).map (fun x => BitVec.ofNat 64 (natBE x))
  List.zipWith (· + ·) h ((wordsIn cubeRootRows).foldl shaRound (h, first)).1

/-- The message with the bit 1, zeros and its length in bits, in whole blocks. -/
def shaPadded (m : List Byte) : List Byte :=
  let filled := 128 * ((m.length + 17 + 127) / 128)
  padTo (filled - 16) (m ++ [0x80]) ++ bytesBE 16 (8 * m.length)

/-- SHA-512 of bytes. -/
def sha512 (m : List Byte) : List Byte :=
  ((chunksOf 128 ((m.length + 144) / 128) (shaPadded m)).foldl shaBlock (wordsIn squareRootRows)).flatMap (fun w => bytesBE 8 w.toNat)

/-- HMAC-SHA-512. -/
def hmac512 (key msg : List Byte) : List Byte :=
  let k := padTo 128 (if 128 < key.length then sha512 key else key)
  sha512 (k.map (· ^^^ 0x5C) ++ sha512 (k.map (· ^^^ 0x36) ++ msg))

/-- The bytes of an ASCII label. -/
def ascii (s : String) : List Byte := s.toList.map (fun c => BitVec.ofNat 8 c.toNat)

/-! ### AES-256 -/

/-- Product in GF(2^8) with polynomial 0x11B; `n` bits of the second factor. -/
def gf8 : Nat → Nat → Nat → Nat
  | 0, _, _ => 0
  | n + 1, a, b =>
    let a' := if 128 ≤ a then (2 * a) ^^^ 0x11B else 2 * a
    (if b % 2 = 1 then a else 0) ^^^ gf8 n a' (b / 2)

def gfMul (a b : Nat) : Nat := gf8 8 a b

/-- The S-box of FIPS 197: row x / 16, the entry of column 0 most significant. -/
def sboxRows : List Nat := [
  0x637c777bf26b6fc53001672bfed7ab76, 0xca82c97dfa5947f0add4a2af9ca472c0,
  0xb7fd9326363ff7cc34a5e5f171d83115, 0x04c723c31896059a071280e2eb27b275,
  0x09832c1a1b6e5aa0523bd6b329e32f84, 0x53d100ed20fcb15b6acbbe394a4c58cf,
  0xd0efaafb434d338545f9027f503c9fa8, 0x51a3408f929d38f5bcb6da2110fff3d2,
  0xcd0c13ec5f974417c4a77e3d645d1973, 0x60814fdc222a908846eeb814de5e0bdb,
  0xe0323a0a4906245cc2d3ac629195e479, 0xe7c8376d8dd54ea96c56f4ea657aae08,
  0xba78252e1ca6b4c6e8dd741f4bbd8b8a, 0x703eb5664803f60e613557b986c11d9e,
  0xe1f8981169d98e949b1e87e9ce5528df, 0x8ca1890dbfe6426841992d0fb054bb16]

def sbox (x : Nat) : Nat := sboxRows.getD (x / 16) 0 / 2 ^ (8 * (15 - x % 16)) % 256

/-- The expanded key, newest word of four bytes first, from word `i` on. -/
def aesExpand : Nat → Nat → List (List Nat) → List (List Nat)
  | 0, _, w => w
  | n + 1, i, w =>
    let t := w.getD 0 []
    let rcon := (List.range (i / 8 - 1)).foldl (fun r _ => gfMul r 2) 1
    let t := if i % 8 = 0 then
        let r := (t.drop 1 ++ t.take 1).map sbox
        (r.getD 0 0 ^^^ rcon) :: r.drop 1
      else if i % 8 = 4 then t.map sbox else t
    aesExpand n (i + 1) (List.zipWith (· ^^^ ·) (w.getD 7 []) t :: w)

/-- The 15 round keys of 16 bytes. -/
def aesKeys (key : List Byte) : List (List Nat) :=
  let w := chunksOf 4 8 (key.map (·.toNat))
  chunksOf 16 15 ((aesExpand 52 8 w.reverse).reverse.flatten)

def shiftRows (s : List Nat) : List Nat := (List.range 16).map (fun i => s.getD ((i + 4 * (i % 4)) % 16) 0)

def mixColumns (s : List Nat) : List Nat :=
  (List.range 16).map (fun i =>
    let c := i / 4 * 4
    let at_ (k : Nat) : Nat := s.getD (c + (i + k) % 4) 0
    gfMul 2 (at_ 0) ^^^ gfMul 3 (at_ 1) ^^^ at_ 2 ^^^ at_ 3)

def xorList (a b : List Nat) : List Nat := List.zipWith (· ^^^ ·) a b

/-- One block encrypted with round keys. -/
def aesBlock (keys : List (List Nat)) (b : List Nat) : List Nat :=
  let s := xorList b (keys.getD 0 [])
  let s := (List.range 13).foldl (fun s i =>
    xorList (mixColumns (shiftRows (s.map sbox))) (keys.getD (i + 1) [])) s
  xorList (shiftRows (s.map sbox)) (keys.getD 14 [])

/-! ### GCM -/

/-- Product in GF(2^128), bit 127 first: `n` bits of `x` still to come from the top. -/
def ghashMul : Nat → Nat → Nat → Nat → Nat
  | 0, _, _, z => z
  | n + 1, x, v, z =>
    ghashMul n x (if v % 2 = 1 then (v / 2) ^^^ (0xE1 * 2 ^ 120) else v / 2) (if bitOf x n then z ^^^ v else z)

/-- GHASH over a byte string cut into blocks padded with zeros. -/
def ghash (h y : Nat) (l : List Byte) : Nat :=
  (chunksOf 16 (l.length / 16 + 1) l).foldl (fun y b => ghashMul 128 (y ^^^ natBE (padTo 16 b)) h 0) y

/-- The key stream of a nonce from counter 2 on, over a byte string. -/
def gcmStream (keys : List (List Nat)) (nonce l : List Byte) : List Byte :=
  let blocks := chunksOf 16 (l.length / 16 + 1) l
  (blocks.zipIdx).flatMap (fun x =>
    let ctr := nonce ++ bytesBE 4 (x.2 + 2)
    List.zipWith (fun (a : Byte) (k : Nat) => a ^^^ BitVec.ofNat 8 k) x.1 (aesBlock keys (ctr.map (·.toNat))))

/-- The tag of a ciphertext with associated data. -/
def gcmTag (keys : List (List Nat)) (nonce aad c : List Byte) : List Byte :=
  let h := natBE ((aesBlock keys (List.replicate 16 0)).map (fun x => BitVec.ofNat 8 x))
  let y := ghash h (ghash h 0 aad) c
  let y := ghashMul 128 (y ^^^ (8 * aad.length * 2 ^ 64 + 8 * c.length)) h 0
  let e := aesBlock keys ((nonce ++ bytesBE 4 1).map (·.toNat))
  List.zipWith (fun (a : Byte) (k : Nat) => a ^^^ BitVec.ofNat 8 k) (bytesBE 16 y) e

/-- AES-256-GCM: ciphertext and tag. -/
def gcmSeal (key nonce aad p : List Byte) : List Byte :=
  let keys := aesKeys key
  let c := gcmStream keys nonce p
  c ++ gcmTag keys nonce aad c

/-- The plaintext of a ciphertext followed by its tag; none where the tag fails. -/
def gcmOpen (key nonce aad ct : List Byte) : Option (List Byte) :=
  let keys := aesKeys key
  let c := ct.take (ct.length - 16)
  if 16 ≤ ct.length ∧ gcmTag keys nonce aad c = ct.drop c.length then some (gcmStream keys nonce c) else none

end Sys2Proof.Machine
end

