-- ==== Sys2Proof/Machine/Image.lean ====
section
/-! DEFINITION. The image in the boot flash (R376 to R378, R392): header, sections, validity of a slot, and the identity it
holds (R394, R395). -/

namespace Sys2Proof.Machine

/-- First flash byte of an image slot, 0 A and 1 B. -/
def slotBase (k : Nat) : Nat := k * 0x2000000

/-- End of the flash layout. -/
def flashEnd : Nat := 0x4400000

/-- A little-endian field of a slot. -/
def imageField (s : State) (k off n : Nat) : Nat := natOf (s.readFlash (slotBase k + off) n)

/-- The section entries of a slot: type, offset, length, reserved. -/
def sectionEntries (s : State) (k : Nat) : List (Nat × Nat × Nat × Nat) :=
  (List.range 8).map (fun i =>
    let b := 64 + 16 * i
    (imageField s k b 4, imageField s k (b + 4) 4, imageField s k (b + 8) 4, imageField s k (b + 12) 4))

/-- The bytes of a section of a slot, by type; empty where the slot lists none. -/
def sectionBytes (s : State) (k type : Nat) : List Byte :=
  match (sectionEntries s k).find? (fun e => decide (e.1 = type)) with
  | some e => s.readFlash (slotBase k + e.2.1) e.2.2.1
  | none => []

/-- LENGTH: the signed bytes of a slot. -/
def imageLength (s : State) (k : Nat) : Nat := imageField s k 36 4

/-- The root key and signing certificate of a slot's signature block (R392). -/
def rootKey (s : State) (k : Nat) : List Byte :=
  let b := slotBase k + imageLength s k
  s.readFlash (b + 516) (natOf (s.readFlash (b + 512) 2))

def signingCert (s : State) (k : Nat) : List Byte :=
  let b := slotBase k + imageLength s k
  s.readFlash (b + 516 + natOf (s.readFlash (b + 512) 2)) (natOf (s.readFlash (b + 514) 2))

/-- Whether the signature of an image verifies (R392). -/
def imageSigned (s : State) (k : Nat) : Bool :=
  let n := imageLength s k
  let root := rootKey s k
  let cert := signingCert s k
  decide (sha512 root = Config.romRootHash) && Config.certVerifies root cert
    && (match Config.certKey cert with
        | some key => Config.rsaVerify key (s.readFlash (slotBase k) n) (s.readFlash (slotBase k + n) 512)
        | none => false)

/-- The grade minimum of R1: none for a GRADE the header table does not list. -/
def gradeMinimum (grade : Nat) : Option Nat := if grade = 1 then some 544 else if grade = 2 then some 512 else none

/-- How many tiles a map enables. -/
def tilesEnabled (m : BitVec 576) : Nat := ((List.range 576).filter (fun t => m.getLsbD t)).length

/-- The sections stand on 4 KiB boundaries, within LENGTH, apart from one another, each type once (R377). -/
def sectionsGood (s : State) (k : Nat) : Bool :=
  let es := sectionEntries s k
  let n := imageLength s k
  (List.range 8).all (fun t => decide ((es.filter (fun e => decide (e.1 = t + 1))).length = 1))
    && es.all (fun e => decide (e.2.2.2 = 0) && decide (e.2.1 % 4096 = 0) && decide (e.2.1 < n) && decide (e.2.1 + e.2.2.1 ≤ n))
    && (List.range 8).all (fun i => (List.range i).all (fun j =>
      let a := es.getD i (0, 0, 0, 0)
      let b := es.getD j (0, 0, 0, 0)
      decide (a.2.1 + a.2.2.1 ≤ b.2.1) || decide (b.2.1 + b.2.2.1 ≤ a.2.1)))

/-- Whether a slot is valid (R377). -/
def slotValid (s : State) (k : Nat) : Bool :=
  decide (imageField s k 0 4 = 0x0D011A6E) && decide (imageField s k 4 2 = 1) && decide (imageField s k 6 2 = 0x0D01)
    && decide (imageField s k 8 1 = 0xA1) && decide (imageField s k 16 8 = s.aks.serial)
    && decide (imageField s k 32 4 = 8) && decide (imageField s k 10 6 = 0) && decide (imageField s k 40 24 = 0)
    && decide (imageLength s k % 4096 = 0) && decide (imageLength s k ≤ 0x1FFF000)
    && sectionsGood s k && imageSigned s k
    && (match gradeMinimum (imageField s k 9 1) with
        | some n => decide (n ≤ tilesEnabled (Config.repairTiles (sectionBytes s k 2)))
        | none => false)

/-- The VERSION of a slot. -/
def imageVersion (s : State) (k : Nat) : Nat := imageField s k 24 8

/-- The slot the node boots (R378). -/
def bootSlot (s : State) : Option Nat :=
  match slotValid s 0, slotValid s 1 with
  | true, true => some (if imageVersion s 0 < imageVersion s 1 then 1 else 0)
  | true, false => some 0
  | false, true => some 1
  | false, false => none

/-- The slot the node booted (BRC_BOOT_STATUS.SLOT). -/
def State.bootedSlot (s : State) : Nat := s.field .brcBootStatus 0 0 5 1

/-- A section of the booted image. -/
def State.section_ (s : State) (type : Nat) : List Byte := sectionBytes s s.bootedSlot type

/-! ### Measurements (R397) -/

/-- M_m. -/
def measurement (s : State) (m : Nat) : List Byte :=
  (List.range 8).flatMap (fun k => bytesOf 8 (s.getReg (regAddr .aksMeas m k)).toNat)

/-- A quote captured in this tick takes an extension of the same tick as if it had come first (R398). -/
def recapture (m : Nat) (v : List Byte) (s : State) : State :=
  let now (x : Nat × Nat × SignFor × List Byte) : Bool := decide (x.1 = s.now) && decide (x.2.2.1 = .quote)
  if s.aks.signing.any now = false then s else
  let put (b : List Byte) : List Byte := spliced b (128 + 64 * m) v
  { s with aks := { s.aks with
    quote := s.aks.quote.map put,
    signing := s.aks.signing.map (fun x => if now x then (x.1, x.2.1, x.2.2.1, put x.2.2.2) else x) } }

/-- M_m becomes SHA-512(M_m ‖ d), d the SHA-512 of the bytes measured. -/
def extendMeas (m : Nat) (bytes : List Byte) (s : State) : State :=
  let v := sha512 (measurement s m ++ sha512 bytes)
  recapture m v (forEach (List.range 8) (fun k s =>
    s.setReg (regAddr .aksMeas m k) (BitVec.ofNat 64 (natOf (slice v (8 * k) 8)))) s)

/-- A signature is asked for: after every earlier request, and among those of one tick after the lower endpoints (R396). -/
def requestSignature (ep : Nat) (who : SignFor) (msg : List Byte) (s : State) : State :=
  let before (x : Nat × Nat × SignFor × List Byte) : Bool := decide (x.1 < s.now) || decide (x.2.1 ≤ ep)
  { s with aks := { s.aks with
    signing := s.aks.signing.filter before ++ [(s.now, ep, who, msg)] ++ s.aks.signing.filter (fun x => !before x) } }

/-! ### The identity (R394, R395) -/

/-- The 32 bytes of K_puf that the booted slot's helper data gives (R394). -/
def pufValue (s : State) : List Byte := (padTo 32 (Config.pufSecret ((s.section_ 7).take 4096))).take 32

/-- K_puf; none where its check fails. -/
def pufKey (s : State) : Option (List Byte) :=
  if sha512 (pufValue s) = Config.pufDigest ((s.section_ 7).take 4096) then some (pufValue s) else none

/-- A key derived from K_puf. -/
def derivedKey (k : List Byte) (label : String) : List Byte := (hmac512 k (ascii label)).take 32

/-- The unsealed identity: private key, public key, identity certificate, CA certificate; none where R395 fails. -/
def unsealIdentity (s : State) : Option (List Byte × List Byte × List Byte × List Byte) :=
  let id := s.section_ 7
  let c := natOf (slice id 4108 4)
  match pufKey s with
  | none => none
  | some k =>
    match gcmOpen (derivedKey k "blob") (slice id 4096 12) [] (slice id 4112 (c + 16)) with
    | none => none
    | some plain =>
      match Config.identityParts plain with
      | none => none
      | some (priv, pub, cert, ca) =>
        match Config.certKey ca with
        | none => none
        | some caKey =>
          if sha512 caKey = Config.romCaHash ∧ Config.certVerifies caKey cert
              ∧ Config.certSerial cert = some s.aks.serial ∧ Config.certKey cert = some pub then
            some (priv, pub, cert, ca)
          else none

end Sys2Proof.Machine
end

