-- ==== Sys2Proof/Machine/TileOps.lean ====
section
/-! DEFINITION. Shared operations of a tile: exceptions (R136, R137), its SRAM with sector tags and bounds (R34, R35, R70,
R110), queues, local credits and completions (R75 to R78), and the sync unit's waits (R115 to R117). -/

namespace Sys2Proof.Machine

/-- Bits of TIL_EXC_STATUS (R136). -/
def excILLEGAL_OP : Nat := 0
def excPROG_BOUND : Nat := 1
def excSEQ_OVERFLOW : Nat := 2
def excMISALIGNED : Nat := 3
def excLOAD_ERR : Nat := 8
def excSTORE_ERR : Nat := 9
def excWRITE_CONFLICT : Nat := 10
def excTALLY_ERR : Nat := 11
def excSYNC_ERR : Nat := 12
def excSYNC_ORDER : Nat := 13
def excLOCAL_BOUND : Nat := 14
def excBANK_OPEN : Nat := 15
def excCREDIT_RESIDUE : Nat := 16
def excPROG_LOCKED : Nat := 17

/-- The code of an exception bit (R136). -/
def excCode (bit : Nat) : Nat := if bit < 8 then 1 + bit else 0x10 + (bit - 8)

/-- The writer identity of an endpoint of a node (R35). -/
def writerOf (node ep : Nat) : Nat := node * 1024 + ep

/-- A tile raises an exception at a word index, with a dispatch number and an address (R136, R137): status bit, record of
the first while all bits were clear (within one tick the lowest dispatch number, then the lowest code), halt, event. A tile
that halts keeps of its staged data what LOADs await that have issued (R71, R85). -/
def raiseExc (t bit word disp addr : Nat) (s : State) : State :=
  let status := (s.getReg (regAddr .tilExcStatus t)).toNat
  let info := excCode bit + word % 2 ^ 20 * 2 ^ 8 + disp % 2 ^ 32 * 2 ^ 28
  let x := s.tile t
  let same := decide (x.excAt = s.now + 1)
  let old := if same then x.excOld else status
  let seen := (if same then x.excSeen else []) ++ [(bit, info, addr, disp)]
  let s := s.modTile t (fun x => { x with excAt := s.now + 1, excOld := old, excSeen := seen })
  let s := if old = 0 then s.recordExc t (firstExc seen) else s
  let s := s.setBit .tilExcStatus t bit
  let data := bytesOf 2 t ++ bytesOf 1 (excCode bit)
  if bit < 4 then
    let s := s.modTile t (fun x => if x.state = .running then
        { x with state := .halted, staged := x.staged.filter (fun p =>
            x.inflight.any (fun f => decide (f.unit = .load) && decide (f.entry.disp = p.disp))) }
      else x)
    s.akmEvent 0x0010 1 t data
  else if ¬ bitOf status bit ∧ s.bit .tilExcEvent t bit then s.akmEvent 0x0011 1 t data
  else s

/-- The sticky flags of TIL_FLAGS (R65). -/
def raiseFlags (t inv ovf unf inx mis : Bool) (tile : Nat) (s : State) : State :=
  let v := (if inv then 1 else 0) + (if ovf then 2 else 0) + (if unf then 4 else 0) + (if inx then 8 else 0)
    + (if mis then 16 else 0)
  if t then
    let a := regAddr .tilFlags tile
    s.setReg a (BitVec.ofNat 64 ((s.getReg a).toNat ||| v))
  else s

/-! ### Tile SRAM -/

/-- First sector and length of a tile's program region (R68). -/
def progBase (s : State) (t : Nat) : Nat := s.field .tilSeqProg t 0 0 18
def progSectors (s : State) (t : Nat) : Nat := s.field .tilSeqProg t 0 18 18

/-- Whether a sector of SRAM lies in the program region. -/
def inProgram (s : State) (t sector : Nat) : Bool :=
  decide (progBase s t ≤ sector) && decide (sector < progBase s t + progSectors s t)

/-- Records a WRITE_CONFLICT (R35, R93). -/
def recordConflict (t sector w w' : Nat) (s : State) : State :=
  let s := if s.bit .tilConflictSector t 63 then s else
    let s := s.setReg (regAddr .tilConflictSector t) (BitVec.ofNat 64 (sector + 2 ^ 63))
    s.setReg (regAddr .tilConflictWriters t) (BitVec.ofNat 64 (Nat.min w w' + Nat.max w w' * 2 ^ 26))
  s.bump .tilConflictCount t 0 32

/-- One sector of tile SRAM written by a writer, with its tag (R34, R35), by the instruction at a word index with a dispatch
number. On a conflict the tag keeps the first writer of the interval (log entry 49). -/
def writeSector (t sector writer word disp : Nat) (b : List Byte) (s : State) : State :=
  let a := sramBase t + 32 * sector
  match Table.get none (s.tile t).tags sector with
  | none =>
    (s.writeSectorMem a b).modTile t (fun x => { x with tags := Table.set none x.tags sector (some writer) })
  | some w =>
    if w = writer then s.writeSectorMem a b
    else
      let s := s.writeSectorMem a (List.replicate 32 0xFF)
      raiseExc t excWRITE_CONFLICT word disp (32 * sector) (recordConflict t sector w writer s)

/-- Whole sectors of SRAM written from an offset up, by a writer that is not the tile: no instruction of the tile is named,
word index and dispatch number count as 0 (log entry 49). -/
def writeSectors (t sector writer : Nat) : List Byte → Nat → State → State
  | _, 0, s => s
  | b, n + 1, s => writeSectors t (sector + 1) writer (b.drop 32) n (writeSector t sector writer 0 0 (b.take 32) s)

/-- The tile's own identity as a writer. -/
def selfWriter (s : State) (t : Nat) : Nat := writerOf s.nodeId t

/-- Where a unit of a tile names an offset that SRAM lacks: LOCAL_BOUND once for the instruction (R110). -/
def boundCheck (t : Nat) (e : Entry) (off n : Nat) (s : State) : State :=
  if n ≠ 0 ∧ 0x600000 < off + n then raiseExc t excLOCAL_BOUND e.at_ e.disp off s else s

/-- A unit of a tile reads `n` bytes of its SRAM: LOCAL_BOUND for what SRAM lacks (R110), and the double-bit errors that lie
there are met (R410). -/
def boundRead (t : Nat) (e : Entry) (off n : Nat) (s : State) : State :=
  bytesMet (sramBase t + off) (Nat.min n (0x600000 - off)) t (boundCheck t e off n s)

/-- Bytes of the tile's own SRAM; beyond its end they read zero (R110). -/
def localBytes (s : State) (t off : Nat) : Nat → List Byte
  | 0 => []
  | n + 1 => (if off < 0x600000 then Table.get 0 s.mem (sramBase t + off) else 0) :: localBytes s t (off + 1) n

/-- The tile's wait is satisfied: its instruction is ready to complete in this tick (R77, R115, R117). -/
def syncWaitOver (t : Nat) (e : Entry) (s : State) : State :=
  s.modTile t (fun x => { x with
    wait := none,
    inflight := x.inflight.map (fun f =>
      if f.unit = .sync ∧ f.entry.disp = e.disp then { f with left := 0, due := s.now } else f) })

/-- A hurdle's pending bit of a tile clears, and an HWAIT on it completes in this tick (R117). -/
def clearPendingTile (t h : Nat) (s : State) : State :=
  let s := s.modTile t (fun x => { x with pendingH := Table.set false x.pendingH h false })
  match (s.tile t).wait with
  | some (.hurdle h' e) => if h' = h then syncWaitOver t e s else s
  | _ => s

/-- Whether a hurdle's release falls in this tick, or is due: it has its T_release, and the timebase is there (R237). -/
def releaseDue (h : Nat) (s : State) : Bool :=
  s.armed h && (s.hurdle h).trel.isSome && decide ((s.hurdle h).relAt ≤ s.time) && decide (h < 1024)

/-- What a release does at a participating tile (R34, R92, R117): its sector tags are clear, and the pending bit is. -/
def releaseTile (h t : Nat) (s : State) : State :=
  clearPendingTile t h (s.modTile t (fun x => { x with tags := [] }))

/-- A tile follows the releases that fall in this tick before it takes a write or sends an arrival: a write that lands in the
tick of a release belongs to the new interval, and an arrival finds the pending bit clear (R92, R117). -/
def aheadOfRelease (t : Nat) (s : State) : State :=
  forEach ((s.hurdles.map (·.1)).filter (fun h => releaseDue h s && s.inMap h t && !(s.tile t).early.elem h && !s.akm.frozen))
    (fun h s => (releaseTile h t s).modTile t (fun x => { x with early := x.early ++ [h] })) s

/-- One sector written by the tile's own unit: beyond the end it is discarded, in the program region of a RUNNING tile
discarded with PROG_LOCKED (R110). -/
def ownSector (t : Nat) (e : Entry) (off : Nat) (b : List Byte) (s : State) : State :=
  if 0x600000 ≤ off then s
  else if (s.tile t).state = .running ∧ inProgram s t (off / 32) then raiseExc t excPROG_LOCKED e.at_ e.disp off s
  else writeSector t (off / 32) (selfWriter s t) e.at_ e.disp b s

/-- Whole sectors written by the tile's own unit, from an offset up. -/
def ownSectors (t : Nat) (e : Entry) (off : Nat) : List Byte → Nat → State → State
  | _, 0, s => s
  | b, n + 1, s => ownSectors t e (off + 32) (b.drop 32) n (ownSector t e off (b.take 32) s)

/-- A write of whole sectors by the tile's own unit, in the interval of its tick (R92, R110). -/
def localSectors (t : Nat) (e : Entry) (off : Nat) (b : List Byte) (n : Nat) (s : State) : State :=
  ownSectors t e off b n (aheadOfRelease t s)

/-! ### Queues and credits (R75 to R78) -/

/-- The bit of a unit in WAIT and POST (R105). -/
def unitIndex : TileUnit → Nat
  | .load => 0
  | .matrix => 1
  | .vector => 2
  | .store => 3
  | .sync => 4

/-- The queue of a unit. -/
def Queues.of (q : Queues) : TileUnit → List Entry
  | .load => q.load
  | .matrix => q.matrix
  | .vector => q.vector
  | .store => q.store
  | .sync => q.sync

/-- The queues with one unit's replaced. -/
def Queues.put (q : Queues) (u : TileUnit) (l : List Entry) : Queues :=
  match u with
  | .load => { q with load := l }
  | .matrix => { q with matrix := l }
  | .vector => { q with vector := l }
  | .store => { q with store := l }
  | .sync => { q with sync := l }

/-- Every queued entry of a tile. -/
def Queues.all (q : Queues) : List Entry := q.load ++ q.matrix ++ q.vector ++ q.store ++ q.sync

/-- The opcode, wait set and post set of an instruction (R105). -/
def Entry.opcode (e : Entry) : Nat := bitsOf e.word 56 8
def Entry.waits (e : Entry) : Nat := bitsOf e.word 51 5
def Entry.posts (e : Entry) : Nat := bitsOf e.word 46 5

/-- An address an instruction named, as computed at dispatch. -/
def Entry.addr (e : Entry) (i : Nat) : Addr := e.addrs.getD i ⟨0, false⟩

/-- A local credit counter from one unit to another. -/
def Tile.credit (x : Tile) (from_ to_ : Nat) : Nat := Table.get 0 x.credits (5 * from_ + to_)

/-- Whether every counter an instruction waits for stands at 1 or more (R76). -/
def creditsReady (x : Tile) (u : TileUnit) (e : Entry) : Bool :=
  (List.range 5).all (fun k => !bitOf e.waits k || decide (0 < x.credit k (unitIndex u)))

/-- The counters after an instruction issues: one less from each unit it waited for. -/
def takeCredits (x : Tile) (u : TileUnit) (e : Entry) : Tile :=
  { x with credits := (List.range 5).foldl (fun m k =>
      if bitOf e.waits k then Table.modify 0 m (5 * k + (unitIndex u)) (· - 1) else m) x.credits }

/-- Whether a completion would push a counter past 255 (R78). -/
def postsHeld (x : Tile) (u : TileUnit) (e : Entry) : Bool :=
  (List.range 5).any (fun k => bitOf e.posts k && decide (255 ≤ x.credit (unitIndex u) k))

/-- The counters after an instruction completes: one more to each unit it posts to (R76). -/
def postCredits (x : Tile) (u : TileUnit) (e : Entry) : Tile :=
  { x with credits := (List.range 5).foldl (fun m k =>
      if bitOf e.posts k then Table.modify 0 m (5 * (unitIndex u) + k) (· + 1) else m) x.credits }

/-- The in-flight instructions of a unit. -/
def Tile.inFlightOf (x : Tile) (u : TileUnit) : List InFlight := x.inflight.filter (fun f => decide (f.unit = u))

/-- The lowest dispatch number of an arrival at the cut hurdle that has not issued (R336); the barrier holds every
instruction above it. -/
def cutBarrier (s : State) (t : Nat) : Option Nat :=
  ((s.tile t).queues.sync.find? (fun e =>
    (decide (e.opcode = 0x11) || decide (e.opcode = 0x13)) && decide (bitsOf e.word 0 10 = s.cutHurdle)
      && s.armed s.cutHurdle)).map (·.disp)

/-- The addresses of the group CKP_CUT. -/
def cutAddrs : List Nat :=
  [regAddr .ckpCutCfg, regAddr .ckpEpoch] ++ (List.range 8).map (fun k => regAddr .ckpScope k)
    ++ (List.range 2).map (fun d => regAddr .ckpDest d)

/-- The rejection rule of CKP_CUT (R339). -/
def cutBad (v : Nat → Word) (_ : State) : Bool :=
  let cfg := (v (regAddr .ckpCutCfg)).toNat
  let first := bitsOf cfg 23 9
  let count := bitsOf cfg 32 10
  let kind (d : Nat) : Nat := bitsOf (v (regAddr .ckpDest d)).toNat 0 2
  let share := bitsOf cfg 16 6
  let inScope (r : Nat) : Bool := bitOf (v (regAddr .ckpScope (r / 64))).toNat (r % 64)
  decide (kind 0 = 3) || decide (kind 1 = 3)
    || ((List.range count).any (fun i => inScope (first + i)))
    || (decide (count ≠ 0) && decide (508 < first + count))
    || (decide (bitsOf cfg 0 16 ≠ 0) && decide (kind 0 = 0))
    || decide (share = 0) || decide (64 < share)

/-- EVERY as it will stand at the next cut release: a captured commit of CKP_CUT that is not to be rejected is applied first
(R333, R389). -/
def cutEvery (s : State) : Nat :=
  if s.bit .ckpCutCommit 0 1 ∧ cutBad s.capturedValue s = false then
    bitsOf (s.capturedValue (regAddr .ckpCutCfg)).toNat 0 16
  else s.field .ckpCutCfg 0 0 0 16

/-- Whether the current round of the cut hurdle will be a cut (R333): EVERY divides the step as it stands after the
release. -/
def willCut (s : State) : Bool :=
  let every := cutEvery s
  let c := (s.stepNo + if s.cutHurdle = s.stepHurdle then 1 else 0) % 2 ^ 64
  decide (every ≠ 0) && decide (c % every = 0)

/-- Whether a unit may issue the head of its queue as far as the tile goes: RUNNING, unpenned, not held, credits there,
no earlier arrival at the cut hurdle waiting, and none whose cut is still to come, though the tile has followed its release
already (R75, R76, R336). -/
def canIssue (s : State) (t : Nat) (u : TileUnit) (e : Entry) : Bool :=
  let x := s.tile t
  decide (x.state = .running) && s.tileOn t && !x.held && creditsReady x u e
    && !(willCut s && (Table.get false x.pendingH s.cutHurdle || x.early.elem s.cutHurdle))
    && (match cutBarrier s t with
        | some d => decide (e.disp ≤ d)
        | none => true)

/-- The head of a unit's queue when it has one of the given opcodes. -/
def headIs (s : State) (t : Nat) (u : TileUnit) (op : Nat) : Option Entry :=
  match (s.tile t).queues.of u with
  | e :: _ => if e.opcode = op ∧ canIssue s t u e then some e else none
  | [] => none

/-- Takes the head of a unit's queue as issued: its credits are spent, it is in flight with `left` pieces to come, and it
cannot complete before the tick `due`. -/
def issued (t : Nat) (u : TileUnit) (e : Entry) (left due : Nat) (s : State) : State :=
  s.modTile t (fun x =>
    let x := takeCredits x u e
    { x with queues := x.queues.put u ((x.queues.of u).drop 1),
             inflight := x.inflight ++ [{ unit := u, entry := e, left := left, due := due }] })

/-! ### Issue under the power cap (R434) -/

/-- Of the ticks before `n`, how many the power cap leaves to the MXU and VXU at skip level `k`: in every block of 64 all but the
first `k`. -/
def powered (k n : Nat) : Nat := n / 64 * (64 - k) + (n % 64 - k)

/-- The tick after the last of `n` issue ticks, of which the first is `a` or, where that is skipped, the next one that is not. -/
def issueEnd (k a n : Nat) : Nat :=
  if n = 0 then a else
  let m := powered k a + n - 1
  m / (64 - k) * 64 + k + m % (64 - k) + 1

/-- The skip level in force. -/
def State.skip (s : State) : Nat := s.field .pwrStatus 0 0 32 6

/-- Where an issue that was to end before `free` ends once the level changes from `old` to `new` in tick `now`. -/
def laterEnd (old new now free : Nat) : Nat :=
  if free ≤ now + 1 then free else issueEnd new (now + 1) (powered old free - powered old (now + 1))

/-- A bank with the compute of a dispatch number final so many ticks from `free` on as before from `was`. -/
def Bank.later (b : Bank) (disp was free : Nat) : Bank :=
  { b with finals := b.finals.map (fun p => if p.disp = disp then { p with due := p.due + free - was } else p) }

/-- Whether an instruction in flight feeds the MXU. -/
def InFlight.feeds (f : InFlight) : Bool := decide (f.unit = .matrix) && (decide (f.entry.opcode = 0x40) || decide (f.entry.opcode = 0x49))

/-- The instruction in hand of the VXU, and the compute in hand of the MXU, of a tile whose skip level changes: what it has left to
issue moves, and with it the ticks of its completion and of its bank (R434). -/
def Tile.later (x : Tile) (old new now : Nat) : Tile :=
  let v := laterEnd old new now x.vxuFree
  let m := laterEnd old new now x.mxuFree
  let vd := if v = x.vxuFree then none else ((x.inflight.filter (fun f => decide (f.unit = .vector))).getLast?).map (·.entry.disp)
  let md := if m = x.mxuFree then none else ((x.inflight.filter InFlight.feeds).getLast?).map (·.entry.disp)
  { x with
    vxuFree := v, mxuFree := m,
    inflight := x.inflight.map (fun f =>
      if f.unit = .vector ∧ vd = some f.entry.disp then { f with due := f.due + v - x.vxuFree }
      else if f.feeds ∧ md = some f.entry.disp then { f with due := f.due + m - x.mxuFree } else f),
    bank0 := (match md with
      | some d => x.bank0.later d x.mxuFree m
      | none => x.bank0),
    bank1 := (match md with
      | some d => x.bank1.later d x.mxuFree m
      | none => x.bank1) }

/-- The skip level changes: in every tile what is still to be issued follows it. -/
def State.setSkip (s : State) (new : Nat) : State :=
  let old := s.skip
  let s := s.setField .pwrStatus 0 0 32 6 new
  if old = new then s else forEach (s.tiles.map (·.1)) (fun t s => s.modTile t (fun x => x.later old new s.now)) s

/-- One piece of an in-flight instruction has come. -/
def pieceDone (t : Nat) (u : TileUnit) (disp : Nat) (s : State) : State :=
  s.modTile t (fun x => { x with inflight := x.inflight.map (fun f =>
    if f.unit = u ∧ f.entry.disp = disp then { f with left := f.left - 1 } else f) })

end Sys2Proof.Machine
end

