-- ==== Sys2Proof/Machine/Sync.lean ====
section
/-! DEFINITION. Tallies, hurdles and the node timebase (chapter 10): credits and waits, arrivals, releases and what a
release does at every agent, node messages, time exchange and quiet windows, with the meanings of their commands. -/

namespace Sys2Proof.Machine

/-! ### Releases -/

/-- The smallest multiple of 256 that is at least `n` (R236). -/
def roundUp256 (n : Nat) : Nat := (n + 255) / 256 * 256

/-- The children of this node in the hurdle tree (SYN_TREE, SYN_CHILD_k). -/
def State.children (s : State) : List Nat :=
  (List.range (Nat.min 16 (s.field .synTree 0 0 32 5))).map (fun k =>
    s.field .synChild (k / 4) 0 (16 * (k % 4)) 16)

def State.isRoot (s : State) : Bool := s.bit .synTree 0 37
def State.parent (s : State) : Nat := s.field .synTree 0 0 16 16
def State.bell (s : State) : Nat := s.field .synTree 0 0 0 16

/-- NODE_RELEASE to every child (R236, R242). -/
def forwardRelease (h trel : Nat) (s : State) : State :=
  forEach s.children (fun child s =>
    s.send 659 (.nodeRelease h child)
      { opcode := opNODE_RELEASE, cls := clsSYNC, tally := h, credit := (s.hurdle h).round % 65536,
        offset := trel % 2 ^ 48, dstNode := child } true) s

/-- The node's own arrival to its parent (R234, R242). -/
def sendNodeArrive (h : Nat) (s : State) : State :=
  let s := s.setHurdle h { s.hurdle h with sent := true, resend := none, arriveSeq := some (Table.get 0 s.seqs 659) }
  s.send 659 (.nodeArrive h)
    { opcode := opNODE_ARRIVE, cls := clsSYNC, tally := h, credit := (s.hurdle h).round % 65536,
      dstNode := s.parent } true

/-- Whether the local arrivals of a round are complete: every participant, and for a launch round the image or a restore
(R354), for a round that will be a cut the previous fleece done (R334). -/
def localDone (h : Nat) (s : State) : Bool :=
  let x := s.hurdle h
  (s.participants h).all (fun a => x.arrived.elem a)
    && (decide (h ≠ s.launchHurdle) || ((s.bit .ckpLaunchStatus 0 0 || s.ckp.restored) && !s.ckp.blocked))
    && (decide (h ≠ s.cutHurdle) || !willCut s || (s.ckp.fleece.isNone && s.ckp.quiesce.isNone))

/-- T_local of a round whose arrivals are complete now: with an empty participant map the tick in which the round began, or the later
one in which the launch image or the restore was ready (R354) or the fleece that a cut waited for ended (R234, R239, R334). -/
def localTick (h : Nat) (s : State) : Nat :=
  let began := (s.hurdle h).began
  if ¬ (s.participants h).isEmpty then s.time
  else if h = s.launchHurdle then Nat.max began s.ckp.readyAt
  else if h = s.cutHurdle ∧ willCut s then Nat.max began s.ckp.endedAt
  else began

/-- Moves an armed hurdle's round on as far as its conditions allow (R234, R236): T_local, the node arrival, which a frozen node does
not send (R427), T_release. -/
def progressHurdle (h : Nat) (s : State) : State :=
  if ¬ s.armed h ∨ (s.hurdle h).trel.isSome then s else
  let x := s.hurdle h
  let s := if x.tlocal.isNone ∧ localDone h s then s.setHurdle h { x with tlocal := some (localTick h s) } else s
  let x := s.hurdle h
  match x.tlocal with
  | none => s
  | some tl =>
    if ¬ s.xnode h then
      let t := roundUp256 (tl + 128)
      s.setHurdle h { x with trel := some t, relAt := t }
    else if s.children.all (fun c => x.children.elem c) then
      if s.isRoot then
        let t := roundUp256 ((if s.children.isEmpty then tl else s.time) + s.field .synHcfg h 0 8 16)
        forwardRelease h t (s.setHurdle h { x with trel := some t, relAt := t })
      else if x.sent ∨ s.akm.frozen then s else sendNodeArrive h s
    else s

/-- Every armed hurdle moved on; used where a condition shared by hurdles changes (a seal, a held image). -/
def progressAll (s : State) : State := forEach (List.range 1024) progressHurdle s

/-- A new round of a hurdle begins (R232, R237). -/
def beginRound (h round last : Nat) (late : Bool) (s : State) : State :=
  progressHurdle h (s.setHurdle h { round := round, began := s.time, last := last, late := late })

/-- What a release does at one participant (R237): pending bit, tags, waits. -/
def releaseAgent (h a : Nat) (s : State) : State :=
  onAgent a
    (fun t => if (s.tile t).early.elem h then s.modTile t (fun x => { x with early := x.early.filter (fun k => decide (k ≠ h)) })
      else releaseTile h t s)
    (fun c => s.modCore c (fun x =>
      let x := { x with pendingH := Table.set false x.pendingH h false }
      match x.wait with
      | some (.hurdle h') => if h' = h then { x with wait := none }.retire 4 else x
      | _ => x))
    (fun e => s.modEngine e (fun x =>
      let x := if x.early.elem h then { x with early := x.early.filter (fun k => decide (k ≠ h)) }
        else { x with pendingH := Table.set false x.pendingH h false }
      match x.wait with
      | some (.hurdle h') => if h' = h then { x with wait := none, cmd := x.cmd + 1, next := s.now + 16 } else x
      | _ => x))
    s

/-- Whether an agent that runs can be frozen at a cut (R335): a participant of the cut hurdle, or blocked in a wait. -/
def freezable (s : State) (h : Nat) : Bool :=
  (s.tiles.all (fun e => decide (e.2.state ≠ .running) || s.inMap h e.1 || e.2.wait.isSome || !s.tileOn e.1))
    && (s.cores.all (fun e => !e.2.started || s.corePenned e.1 || s.inMap h (576 + e.1)
        || (match e.2.wait with
            | some (.tally _ _) => true
            | some (.hurdle _) => true
            | _ => false)))
    && (s.engines.all (fun e => !e.2.started || s.enginePenned e.1 || s.inMap h (640 + e.1)
        || (match e.2.wait with
            | some (.tally _ _) => true
            | some (.hurdle _) => true
            | _ => false)))

/-- Tiles, cores and engines whose state a cut holds (R338): RUNNING tiles, started cores, started engines. -/
def runningTiles (s : State) : List Nat :=
  (s.tiles.filter (fun e => decide (e.2.state = .running) && s.tileOn e.1)).map (·.1)
def runningCores (s : State) : List Nat :=
  (s.cores.filter (fun e => e.2.started && !s.corePenned e.1)).map (·.1)
def runningEngines (s : State) : List Nat :=
  (s.engines.filter (fun e => e.2.started && !s.enginePenned e.1)).map (·.1)

/-- Pages of the state items of a cut (R338). -/
def statePageCount (s : State) : Nat :=
  1 + 105 * (runningTiles s).length + (runningCores s).length + 97 * (runningEngines s).length + 512 + 1

/-- Refuses a cut (R335, R339, R395). -/
def refuseCut (s : State) : State := (s.raiseBit .ckpStatus 0 0).ckpEvent

/-- The cut at a release (R333 to R336): refused, or every agent and the HEC held and the dirty PRIVATE lines written back. The
pages of the scope are marked once the transfers that the HEC had started have ended (steps 3 to 5 of R336). -/
def takeCut (h : Nat) (s : State) : State :=
  if ¬ freezable s h ∨ s.reservePages < statePageCount s ∨ ¬ s.bit .aksStatus 0 0 then refuseCut s else
  let s := pauseAgents true s
  let s := s.writeBackAll (fun _ l => l.dirty && !l.shared)
  { s with hec := { s.hec with held := true }, ckp := { s.ckp with quiesce := some s.stepNo } }

/-- A tile, core or engine starts at the launch release, or resumes from the state a restore wrote (R68, R295, R331,
R350). An IDLE tile is looked at again in the tick after the release, when commits of the release's own tick count (R139); a
STOPPED engine stays so (R326). -/
def launchTile (t : Nat) (s : State) : State :=
  if s.ckp.resume.elem t ∧ s.tileOn t then s.modTile t (fun x => { x with state := .running, held := false })
  else if s.tileOn t ∧ (s.tile t).state = .idle then
    s.modTile t (fun x => { x with startAt := some (s.now + 1) }) else s

def launchCore (c : Nat) (s : State) : State :=
  if s.corePenned c then s
  else if s.ckp.resume.elem (576 + c) then
    s.modCore c (fun x => { x with held := false, started := true, paused := false })
  else if s.bit .prcStart c 0 then startCore c s else s

def launchEngine (e : Nat) (s : State) : State :=
  if s.enginePenned e then s
  else if s.ckp.resume.elem (640 + e) then
    s.modEngine e (fun x => { x with
      state := if x.state = .stopped then .stopped else .running, started := true, next := s.now + 16, paused := false })
  else if s.bit .marStart e 0 ∧ (s.engine e).state = .idle then startEngine e s else s

/-- The tiles whose tick of start has come and that have a program start RUNNING (R68, R139). -/
def startTiles (s : State) : State :=
  forEach ((s.tiles.filter (fun e => match e.2.startAt with
      | some k => decide (k ≤ s.now)
      | none => false)).map (·.1))
    (fun t s => if s.tileOn t ∧ (s.tile t).state = .idle ∧ progSectors s t ≠ 0 then startTile t s else s.modTile t (fun x => { x with startAt := none })) s

/-- An engine follows the releases that fall in this tick before it sends an arrival (R117, R327). -/
def aheadEngine (e : Nat) (s : State) : State :=
  forEach ((s.hurdles.map (·.1)).filter (fun h =>
      releaseDue h s && s.inMap h (640 + e) && !(s.engine e).early.elem h && !s.akm.frozen))
    (fun h s => s.modEngine e (fun x => { x with pendingH := Table.set false x.pendingH h false, early := x.early ++ [h] })) s

/-- What the launch hurdle's release does (R241, R68, R295, R331). -/
def launchRelease (trel : Nat) (s : State) : State :=
  let s := s.setReg (regAddr .synStepBase) (BitVec.ofNat 64 trel)
  let s := forEach (List.range 576) launchTile s
  let s := forEach (List.range 64) launchCore s
  let s := forEach (List.range 16) launchEngine s
  { s with ckp := { s.ckp with resume := [] } }

/-- The captured groups whose safe point is the step hurdle's release (R389), and CKP_CUT's before the cut hurdle's. -/
def qwinAddrs : List Nat := (List.range 8).map (fun k => regAddr .synQwin k)
def planeAddrs : List Nat := [regAddr .hfiPlane]
def applyQwin (s : State) : State := commitApply .synQwinCommit 1 2 5 6 qwinAddrs (fun _ _ => false) id s
def applyPlane (s : State) : State :=
  commitApply .hfiPlaneCommit 9 10 6 7 planeAddrs
    (fun v _ => decide (bitsOf (v (regAddr .hfiPlane)).toNat 0 16 = 0)) id s

def applyCut (s : State) : State := commitApply .ckpCutCommit 1 2 8 0xD cutAddrs cutBad id s

/-- The waiting messages gated on the step that SYN_STEP has now come to may begin from here on (R369). -/
def openGates (s : State) : State :=
  let openAt (m : Message) : Message := if m.step = s.stepNo then { m with opened := true } else m
  let session (x : Session) : Session := { x with queues := x.queues.map (fun q => (q.1, q.2.map openAt)) }
  { s with hec := { s.hec with sessions := s.hec.sessions.map (fun e => (e.1, e.2.map session)) } }

/-- The whole release of a hurdle in its tick (R237, R241): captured groups first, then the participants, the caches, the
designations, and the next round. -/
def releaseHurdle (h : Nat) (s : State) : State :=
  let x := s.hurdle h
  let trel := x.trel.getD 0
  let isStep := decide (h = s.stepHurdle)
  let s := if h = s.cutHurdle then applyCut s else s
  let s := if isStep then applyPlane (applyQwin s) else s
  let parts := s.participants h
  let s := forEach parts (fun a s => releaseAgent h a s) s
  let s := s.dropShared ((parts.filter (fun a => decide (576 ≤ a) && decide (a < 640))).map (· - 576))
  let s := if h = s.launchHurdle then launchRelease trel s else s
  let s := if isStep then
      let s := s.setReg (regAddr .synStep) (BitVec.ofNat 64 (s.stepNo + 1))
      let s := s.setReg (regAddr .synStepBase) (BitVec.ofNat 64 trel)
      openGates { s with qwins := 0 }
    else s
  let every := s.field .ckpCutCfg 0 0 0 16
  let s := if h = s.cutHurdle ∧ every ≠ 0 ∧ s.stepNo % every = 0 then takeCut h s else s
  beginRound h ((x.round + 1) % 2 ^ 32) trel x.late s

/-- HURDLE_RELEASE (R237). -/
def execHurdleRelease (h : Nat) (s : State) : Host.Outcome State Fault Refusal :=
  act (releaseDue h s && !s.akm.frozen) (releaseHurdle h) s

/-! ### Tally credits and waits -/

/-- A credit applied to a tally of this node (R225). -/
def State.applyCredit (s : State) (i c : Nat) (terr : Bool) : State :=
  s.setTally i ((s.tally i).credit c terr)

/-- The tally, mark and distance an agent waits on (R226, R230): tiles, cores, engines. -/
def tallyWaitOf (s : State) (a : Nat) : Option (Nat × Nat × Nat) :=
  onAgent a
    (fun t => match (s.tile t).wait with
      | some (.tally i d _) => some (192 * t + i, Table.get 0 (s.tile t).marks i, d)
      | _ => none)
    (fun c => match (s.core c).wait with
      | some (.tally i d) => some (110592 + 192 * c + i, Table.get 0 (s.core c).marks i, d)
      | _ => none)
    (fun e => match (s.engine e).wait with
      | some (.tally i d) => some (122880 + 256 * e + i, Table.get 0 (s.engine e).marks i, d)
      | _ => none)
    none

/-- The new mark after a wait (R115). -/
def advanceMark (marks : Table Nat) (i d : Nat) : Table Nat := Table.set 0 marks i ((Table.get 0 marks i + d) % 2 ^ 32)

/-- A tally wait of a tile completes: the mark advances, TALLY_ERR is raised when the error bit is set (R115, R116). -/
def tileTallyDone (t : Nat) (s : State) : State :=
  match (s.tile t).wait with
  | some (.tally i d e) =>
    let s := s.modTile t (fun x => { x with marks := advanceMark x.marks i d })
    let s := if (s.tally (192 * t + i)).err then raiseExc t excTALLY_ERR e.at_ e.disp 0 s else s
    syncWaitOver t e s
  | _ => s

/-- A tally wait of a core completes (R226, R291): the next instruction follows. -/
def coreTallyDone (c : Nat) (s : State) : State :=
  match (s.core c).wait with
  | some (.tally i d) =>
    s.modCore c (fun x => { x with wait := none, marks := advanceMark x.marks i d }.retire 4)
  | _ => s

/-- The Marionette event (R332, R411). -/
def marEvent (e : Nat) (s : State) : State :=
  (s.akmEvent 0x001B 1 (624 + e) (bytesOf 1 e ++ bytesOf 2 (s.field .marStatus e 0 0 13))).raiseSource 4

/-- Sets bits of MAR_STATUS_e, with the first-error record and the event of newly set, enabled bits (R332). -/
def marStatusAt (e cmd bits sys code : Nat) (s : State) : State :=
  let old := s.field .marStatus e 0 0 13
  let new := old ||| bits
  let fresh := new ^^^ old
  let cand := (List.range 9).filter (fun k => bitOf bits (k + 3))
  let s := if bitsOf old 3 9 = 0 ∧ ¬ cand.isEmpty then
      let b := cand.headD 0 + 3
      s.setReg (regAddr .marErrInfo e) (BitVec.ofNat 64
        (b + cmd % 512 * 2 ^ 4 + (if b < 6 then sys else 0) * 2 ^ 13
          + (if b = 5 ∨ b = 7 then code else 0) * 2 ^ 19))
    else s
  let s := (s.setField .marStatus e 0 0 13 new).noteRaised (regAddr .marStatus e) bits
  if fresh &&& (s.getReg (regAddr .marEventEn e)).toNat ≠ 0 then marEvent e s else s

/-- As `marStatusAt`, for the current command. -/
def marStatus (e bits sys code : Nat) (s : State) : State := marStatusAt e (s.engine e).cmd bits sys code s

/-- A tally wait of an engine completes (R327, R330). -/
def engineTallyDone (e : Nat) (s : State) : State :=
  match (s.engine e).wait with
  | some (.tally i d) =>
    let s := if (s.tally (122880 + 256 * e + i)).err then marStatus e (2 ^ 8) 0 0 s else s
    s.modEngine e (fun x => { x with
      wait := none, marks := advanceMark x.marks i d, cmd := x.cmd + 1, next := s.now + 16 })
  | _ => s

/-- Whether an agent is let go on: not held by a cut, a restore or a freeze. -/
def notHeld (s : State) (a : Nat) : Bool :=
  onAgent a (fun t => !(s.tile t).held && decide ((s.tile t).state = .running))
    (fun c => !(s.core c).paused && !(s.core c).held)
    (fun e => !(s.engine e).paused && decide ((s.engine e).state = .running)) false

/-- Whether an agent's tally wait is satisfied (R226). -/
def tallyWaitReady (a : Nat) (s : State) : Bool :=
  match tallyWaitOf s a with
  | some (i, mark, d) => s.waitMet (s.tally i).count mark d && notHeld s a
  | none => false

/-- The completion of an agent's tally wait. -/
def tallyWaitFinish (a : Nat) (s : State) : State :=
  onAgent a (fun t => tileTallyDone t s) (fun c => coreTallyDone c s) (fun e => engineTallyDone e s) s |>.fresh

/-- TALLY_WAIT_COMPLETE (R226, R116). -/
def execTallyWaitComplete (a : Nat) (s : State) : Host.Outcome State Fault Refusal :=
  act (tallyWaitReady a s) (tallyWaitFinish a) s

/-! ### Register commands -/

/-- SYN_TALLY_WRITE (R224, R229). -/
def writeTally (i : Nat) (v : Word) (s : State) : State :=
  s.setTally i { count := v.toNat % 2 ^ 32, err := bitOf v.toNat 32 }

def synTallyWrite (i : Nat) (src : Requester) (v : Word) (s : State) : State :=
  if 131072 ≤ i then answering errUNMAPPED 0 s
  else if mayAddress src ∧ s.tallyOwnerOff i then answering errPENNED 0 s
  else guardedWrite src (decide (s.jid ≠ 0)) (writeTally i v) s

def execSynTallyWrite (i : Nat) (src : Requester) (v : Word) (s : State) : Host.Outcome State Fault Refusal :=
  .next (synTallyWrite i src v s)

/-- The addresses of the group SYN_HURDLE of a hurdle. -/
def hurdleAddrs (h : Nat) : List Nat := regAddr .synHcfg h :: (List.range 11).map (fun w => regAddr .synHmap h w)

/-- The rejection rule of SYN_HURDLE (R232), over the staged values. An arrival at this node is one of a local participant: a child's
NODE_ARRIVE that is held for the round does not count (DESIGN CHOICE, log entry 57). -/
def hurdleBad (h : Nat) (s : State) : Bool :=
  let cfg := (s.getShadow (regAddr .synHcfg h)).toNat
  let x := s.hurdle h
  decide (bitsOf (s.getShadow (regAddr .synHmap h 10)).toNat 16 48 ≠ 0)
    || (bitOf cfg 1 && decide (bitsOf cfg 8 16 < 512))
    || (s.armed h && (!x.arrived.isEmpty || x.sent))

/-- A captured group whose safe point is a release of the step or cut hurdle is applied at once while that hurdle is not armed
(R248, R262, R339, R389): so too when it is disarmed (DEDUCED, log entry 57). -/
def applyFree (s : State) : State :=
  let s := if s.armed s.stepHurdle then s else applyPlane (applyQwin s)
  if s.armed s.cutHurdle then s else applyCut s

/-- What an accepted commit of SYN_HURDLE does besides its fields: round 0 begins, or the round ends (R232). A round that already has
its T_release keeps it (DESIGN CHOICE, log entry 57). -/
def hurdleCommitted (h : Nat) (wasArmed : Bool) (s : State) : State :=
  let x := s.hurdle h
  if s.armed h then
    if wasArmed then progressHurdle h (s.setHurdle h { x with tlocal := none })
    else beginRound h 0 x.last x.late s
  else applyFree (s.setHurdle h { ({} : Hurdle) with round := x.round, last := x.last, late := x.late })

def synHcommit (v : Word) (s : State) : State :=
  let h := bitsOf v.toNat 0 10
  let was := s.armed h
  commitNow .synHcommit 0 10 12 5 3 h (hurdleAddrs h) v (hurdleBad h) (hurdleCommitted h was) s

/-- SYN_HCOMMIT (R232). -/
def execSynHcommit (src : Requester) (v : Word) (s : State) : Host.Outcome State Fault Refusal :=
  .next (guardedWrite src false (synHcommit v) s)

def treeAddrs : List Nat := regAddr .synTree :: (List.range 4).map (fun k => regAddr .synChild k)

/-- The rejection rules under SYN_TREE. -/
def treeBad (s : State) : Bool :=
  let v := (s.getShadow (regAddr .synTree)).toNat
  decide (16 < bitsOf v 32 5) || (bitOf v 37 && decide (bitsOf v 0 16 ≠ s.nodeId))
    || (List.range 1024).any (fun h => s.armed h && s.xnode h)

/-- An accepted tree: the node is to join (R243), and the bellwether is always LOCKED (R245). -/
def treeCommitted (s : State) : State :=
  let s := { s with tstate := { s.tstate with joining := true, joined := true, nextAt := s.now, good := 0, missed := 0, t1 := none } }
  if s.isRoot then s.setBit .synTimeStatus 0 0 else s

def synTreeCommit (v : Word) (s : State) : State :=
  commitNow .synTreeCommit 0 0 2 5 4 0 treeAddrs v treeBad treeCommitted s

/-- SYN_TREE_COMMIT. -/
def execSynTreeCommit (src : Requester) (v : Word) (s : State) : Host.Outcome State Fault Refusal :=
  .next (guardedWrite src false (synTreeCommit v) s)

def desigAddrs : List Nat := [regAddr .synDesig, regAddr .synStep]

/-- The rejection rule of SYN_DESIG (R241): the names now and to be. -/
def desigBad (s : State) : Bool :=
  let v := (s.getShadow (regAddr .synDesig)).toNat
  let l := bitsOf v 0 10
  let st := bitsOf v 10 10
  let c := bitsOf v 20 10
  decide (l = st) || decide (l = c)
    || [l, st, c, s.launchHurdle, s.stepHurdle, s.cutHurdle].any (fun h => s.armed h)

def synDesigCommit (v : Word) (s : State) : State := commitNow .synDesigCommit 0 0 2 5 5 0 desigAddrs v desigBad id s

/-- SYN_DESIG_COMMIT (R241). -/
def execSynDesigCommit (src : Requester) (v : Word) (s : State) : Host.Outcome State Fault Refusal :=
  .next (guardedWrite src false (synDesigCommit v) s)

/-- A write of the commit register of a captured group: nothing without GO or while PENDING is 1, else the capture, and the group at
once where its hurdle is not armed (R389). -/
def commitLater (n : RegName) (goBit pendBit rejBit : Nat) (addrs : List Nat) (waits : Bool) (apply : State → State) (v : Word)
    (s : State) : State :=
  if ¬ bitOf v.toNat goBit ∨ s.bit n 0 pendBit then s else
  let s := commitCapture n goBit pendBit rejBit addrs v s
  if waits then s else apply s

def synQwinCommit (v : Word) (s : State) : State :=
  commitLater .synQwinCommit 0 1 2 qwinAddrs (s.armed s.stepHurdle) applyQwin v s

/-- SYN_QWIN_COMMIT (R248): applied at the next step release, or at once while no step hurdle is armed. -/
def execSynQwinCommit (src : Requester) (v : Word) (s : State) : Host.Outcome State Fault Refusal :=
  .next (guardedWrite src false (synQwinCommit v) s)

/-! ### Quiet windows (R248) -/

def qwinField (s : State) (k lo n : Nat) : Nat := s.field .synQwin k 0 lo n

/-- Whether step phase lies in a window. -/
def inWindow (s : State) (k : Nat) : Bool :=
  let start := qwinField s k 8 24
  let len := qwinField s k 32 16
  decide (k < 8) && decide (qwinField s k 0 1 = 1) && decide (256 * start ≤ s.phase)
    && decide (s.phase < 256 * (start + len))

def isOpen (s : State) (k : Nat) : Bool := bitOf s.qwins k

/-- QWIN_OPEN (R248). -/
def openWindow (k : Nat) (s : State) : State :=
  { s with qwins := s.qwins ||| 2 ^ k, akm := { s.akm with calDone := s.akm.calDone.filter (fun d => decide (d.1 ≠ k)) } }
def execQwinOpen (k : Nat) (s : State) : Host.Outcome State Fault Refusal :=
  act (inWindow s k && !isOpen s k) (openWindow k) s

/-- QWIN_CLOSE (R248): at the window's end; a step release closes every window by itself. -/
def closeWindow (k : Nat) (s : State) : State := { s with qwins := s.qwins ^^^ (s.qwins &&& 2 ^ k) }
def execQwinClose (k : Nat) (s : State) : Host.Outcome State Fault Refusal :=
  act (isOpen s k && !inWindow s k) (closeWindow k) s

/-! ### The timebase (R243 to R246) -/

/-- Eighths of a tick (R242). -/
def eighths (s : State) : Nat := 8 * s.time

/-- INTERVAL in ticks: values 0 and 1 act as 2 (SYN_TIME_CFG). -/
def exchangeInterval (s : State) : Nat := Nat.max 2 (s.field .synTimeCfg 0 0 0 8) * 65536

/-- TIME_UNLOCK (R245). -/
def unlockTime (s : State) : State :=
  if s.bit .synTimeStatus 0 0 ∧ ¬ s.isRoot then
    let s := (s.clearBit .synTimeStatus 0 0).raiseBit .synTimeStatus 0 3
    (s.akmEvent 0x0018 1 659 (bytesOf 1 0)).raiseSource 5
  else s

/-- Whether the node is joined to a job's tree: from its first accepted commit of SYN_TREE until reset, job changes included, unless it
is the bellwether (R244; DESIGN CHOICE, log entry 57). -/
def joinedTree (s : State) : Bool := !s.isRoot && s.tstate.joined

/-- An accepted tsync edge (R438): the first sets the master to EPOCH × 1,250,000, a later one steers it to a multiple of 1,250,000
while the node is bellwether or not joined (R244). -/
def tsyncAccepted (s : State) : State :=
  let s := { s with tstate := { s.tstate with edgeAt := some s.now } }
  if s.bit .synTimeStatus 0 1 then
    if joinedTree s then s else
    let r := s.time % 1250000
    let d : Int := if 2 * r ≤ 1250000 then -(r : Int) else 1250000 - (r : Int)
    { s with tstate := { s.tstate with slew := d } }
  else
    let s := s.setBit .synTimeStatus 0 1
    { s with time := s.field .synTimeCfg 0 0 32 32 * 1250000 }

/-- TSYNC_LOST (R244): no edge for 2,500,000 ticks. -/
def tsyncLostDue (s : State) : Bool :=
  decide (s.tstate.edgeAt.getD 0 + 2500000 ≤ s.now) && !s.bit .synTimeStatus 0 2

/-- The master runs freely from now on; what it still had to slew after the last edge it goes on slewing (DESIGN CHOICE, log entry 57). -/
def tsyncLose (s : State) : State :=
  (s.setBit .synTimeStatus 0 2).akmEvent 0x0018 1 659 (bytesOf 1 1)

def execTsyncLost (s : State) : Host.Outcome State Fault Refusal := act (tsyncLostDue s && s.working) tsyncLose s

/-- The node sends TIME_REQ to the bellwether (R245); an unanswered earlier exchange counts as missed, and four in a row
unlock. The plane is the lowest of PLANE_EFF (R260). -/
def timeExchangeDue (s : State) : Bool :=
  joinedTree s && s.nodeValid && decide (s.tstate.nextAt ≤ s.now) && !s.akm.frozen

def startExchange (s : State) : State :=
  let missed := if s.tstate.t1.isSome then s.tstate.missed + 1 else s.tstate.missed
  let s := if 4 ≤ missed then unlockTime s else s
  let s := { s with tstate := { s.tstate with
    missed := missed, good := (if s.tstate.t1.isSome then 0 else s.tstate.good), t1 := some (eighths s), nextAt := s.now + exchangeInterval s } }
  let s := { s with requests := s.requests.filter (fun r => decide (r.purpose ≠ Purpose.timeReq)) }
  s.send 659 .timeReq
    { opcode := opTIME_REQ, cls := clsSYNC, nsect := 1, dstNode := s.bell, data := padTo 32 (bytesOf 8 (eighths s)) } true

/-- TIME_EXCHANGE (R245). -/
def execTimeExchange (s : State) : Host.Outcome State Fault Refusal := act (timeExchangeDue s) startExchange s

/-- A completed exchange (R245, R243): offset and delay, lock state, rate correction, the joining set or the slew, which moves the
count by whole ticks. Stamps are eighths. -/
def finishExchange (t1 t2 t3 t4 : Nat) (s : State) : State :=
  let o : Int := (((t1 : Int) - t2) + ((t4 : Int) - t3)).tdiv 2
  let d : Int := (((t4 : Int) - t1) - ((t3 : Int) - t2)).tdiv 2
  let s := s.setField .synTimeStatus 0 0 16 24 (wrapNat 24 o)
  let s := s.setField .synTimeStatus 0 0 40 24 (wrapNat 24 d)
  let good := if o.natAbs ≤ 8 then s.tstate.good + 1 else 0
  let s := { s with tstate := { s.tstate with
    t1 := none, missed := 0, good := good, rate := Config.rateCorrection s.tstate.rate o } }
  let s := if 2 ≤ good then s.setBit .synTimeStatus 0 0 else s
  let s := if 16 < o.natAbs then unlockTime s else s
  let ticks : Int := o.tdiv 8
  if s.tstate.joining ∧ ¬ s.anyArmed then
    { s with time := wrapNat 64 ((s.time : Int) - ticks), tstate := { s.tstate with joining := false, slew := 0 } }
  else { s with tstate := { s.tstate with joining := false, slew := -ticks } }

/-- Whether the timebase slews in this tick (R243): by the slew still to be made, else by the rate correction; at most once in
2,048 ticks. -/
def slewDue (s : State) : Bool :=
  let x := s.tstate
  if x.slew ≠ 0 then decide (x.slewAt + 2048 ≤ s.now)
  else decide (x.rate ≠ 0) && decide (x.slewAt + Nat.max 2048 (exchangeInterval s / x.rate.natAbs) ≤ s.now)

/-- One tick of the clock (log entry 3): the timebase advances by one, by none or by two where it slews (R243). -/
def tickTime (s : State) : State :=
  let x := s.tstate
  let up := if x.slew ≠ 0 then decide (0 < x.slew) else decide (0 < x.rate)
  let step := if slewDue s then (if up then 2 else 0) else 1
  let slew : Int := if slewDue s ∧ x.slew ≠ 0 then (if up then x.slew - 1 else x.slew + 1) else x.slew
  { s with
    now := s.now + 1,
    raised := [],
    time := (s.time + step) % 2 ^ 64,
    tstate := { x with slew := slew, slewAt := (if slewDue s then s.now else x.slewAt) } }

end Sys2Proof.Machine
end

