-- ==== Sys2Proof/Machine/Reset.lean ====
section
/-! DEFINITION. Reset and the boot phases (R375 to R385, R447), and the logs in the boot flash (R394, R425). -/

namespace Sys2Proof.Machine

/-! ### Reset sources and the hold (R382 to R385) -/

def causeCOLD : Nat := 0x01
def causePIN : Nat := 0x02
def causePOWER : Nat := 0x03
def causeCROOK : Nat := 0x04
def causeI3C : Nat := 0x05
def causeWATCHDOG : Nat := 0x06
def causeTHERMAL : Nat := 0x07
def causeSECURITY : Nat := 0x08
def causeFATAL_ESC : Nat := 0x09
def causeHOLD_EXPIRY : Nat := 0x0A

/-- The dump area's contents, which stay until P3 (R447). -/
def dumpCells (s : State) : List Host.Cell :=
  s.mem.filter (fun c => decide (0x7F00000000 ≤ c.1) && decide (c.1 < 0x8000000000))

/-- Whether DUMP_READ messages covered every byte of the dump that stands (R430). -/
def dumpCovered (s : State) : Bool :=
  decide (s.field .akmFatal 0 0 32 2 = 3)
    && (List.range (natOf (s.readMem 0x7F00000038 8) / 32)).all (fun i => Table.get false s.akm.dumpRead i)

/-- The register state of a node whose reset has been recognised with a cause, a phase and a detail. -/
def causeWord (cause phase detail : Nat) : Word :=
  BitVec.ofNat 64 (cause + phase * 2 ^ 8 + detail % 2 ^ 16 * 2 ^ 16)

/-- Ticks of operation: those before the last reset, and those since P0 began (R425). -/
def State.operated (s : State) : Nat := s.brc.operated + (if s.brc.hold.isSome || s.brc.off then 0 else s.now)

/-- Everything but what outlasts a reset is as right after reset: the flash and the operation in it, the dump area, the pins and
what drives them, the hot junctions, the TAP, the reset-cause register, and what the ageing log counts by operation stay. -/
def nodeReset (hold : List Nat) (cause : Word) (s : State) : State :=
  let inHold := s.brc.hold.isSome
  let brc : Brc := {
    hold := some hold, holdFrom := 0, dumpCovered := (if inHold then s.brc.dumpCovered else dumpCovered s),
    flashOp := s.brc.flashOp,
    eraseSuspended := (match s.brc.flashOp with
      | some (.erase _) => true
      | _ => false),
    off := s.brc.off, vstby := s.brc.vstby, pwrOk := s.brc.pwrOk, rstN := s.brc.rstN, pinUntil := s.brc.pinUntil - s.now,
    pgUntil := s.brc.pgUntil - s.now, hot := s.brc.hot, operated := s.operated, tapInstr := s.brc.tapInstr,
    tapDrive := s.brc.tapDrive, tapFloat := s.brc.tapFloat, tapCapture := s.brc.tapCapture, bypass := s.brc.bypass,
    boundary := s.brc.boundary, preload := s.brc.preload }
  { State.reset with
    pending := s.pending, freeCtr := s.freeCtr, answer := s.answer, flash := s.flash, mem := dumpCells s, brc := brc,
    akm := { dayAt := s.akm.dayAt, logHour := s.akm.logHour },
    regs := [(regAddr .brcResetCause, cause)] }

/-- The sources still asserted that end by a command: POWER while pwr_ok is low, THERMAL while a junction stands at 115 °C. Those
of a length, rst_n and the other power-good conditions, end by the clock (`holdOver`). -/
def assertedNow (s : State) : List Nat :=
  (if s.brc.pwrOk then [] else [causePOWER]) ++ (if s.brc.hot.isEmpty then [] else [causeTHERMAL])

/-- A source is recognised in this tick (R383, R384): among sources of one tick the lower code is recorded (R385). An OFF
node recognises none. -/
def recognise (cause detail : Nat) (s : State) : State :=
  if s.brc.off then s else
  let old := s.getReg (regAddr .brcResetCause)
  let sameTick := s.brc.hold.isSome && decide (s.now = 0)
  if sameTick ∧ bitsOf old.toNat 0 8 ≤ cause then nodeReset (assertedNow s) old s
  else
    let phase := if s.fatalHold then 7 else if sameTick then bitsOf old.toNat 8 3 else s.bootPhase
    nodeReset (assertedNow s) (causeWord cause phase detail) s

/-- VSTBY_RISING (R382, R385): an OFF node, with vstby present again, records COLD. -/
def powerOn (s : State) : State :=
  let s := { s with brc := { s.brc with off := false, vstby := true, tapInstr := 0xFF, tapDrive := false, tapFloat := false } }
  nodeReset (assertedNow s) (causeWord causeCOLD 0 0) s

def execVstbyRising (s : State) : Host.Outcome State Fault Refusal := act (!s.brc.vstby) powerOn s

/-- VSTBY_FALLING (R433): the node is OFF; what a flash operation in progress leaves in its page or block is free
(log entry 28). -/
def tornFlash (s : State) : State :=
  match s.brc.flashOp with
  | some (.program a d) =>
    let torn := List.zipWith (· ||| ·) (d.take 256) (Config.freeBytes s.freeCtr ++ zeros 256)
    (s.programFlash a torn).fresh
  | some (.erase a) =>
    { s with flash := Memory.write flashErased s.flash a ((padTo 0x10000 (Config.freeBytes s.freeCtr)).take 0x10000) }.fresh
  | none => s

def powerOff (s : State) : State :=
  let s := tornFlash s
  let s := nodeReset [] 0 { s with brc := { s.brc with flashOp := none } }
  { s with mem := [], regs := [], brc := { s.brc with hold := some [], off := true, vstby := false, dumpCovered := false, hot := [] } }

def execVstbyFalling (s : State) : Host.Outcome State Fault Refusal := act s.brc.vstby powerOff s

/-- Ticks of a time in ns, rounded up. -/
def ticksOfNs (ns : Nat) : Nat := (5 * ns + 3) / 4

/-- RST_N (R383): one low pulse of the pin, taken at its 10 µs, from where on it is a reset, whatever rest of the pulse holds the
reset. A shorter one is taken as it ends: from 1 µs to 10 µs it is a reset or is ignored. -/
def pinPulse (lowNs : Nat) (s : State) : State :=
  if lowNs < 1000 then s
  else if lowNs < 10000 then (if Config.freeBool s.freeCtr then recognise causePIN 0 s.fresh else s.fresh)
  else recognise causePIN 0 { s with brc := { s.brc with pinUntil := Nat.max s.brc.pinUntil (s.now + ticksOfNs (lowNs - 10000)) } }

def execRstN (lowNs : Nat) (s : State) : Host.Outcome State Fault Refusal := .next (pinPulse lowNs s)

/-- The TAP stops as power-good does: BYPASS is its instruction again and the boundary register lets go of the pins (R439, R440). -/
def tapStops (s : State) : State := { s with brc := { s.brc with tapInstr := 0xFF, tapDrive := false, tapFloat := false } }

/-- POWER_GOOD_FAIL (R432): a condition false for more than 10 µs is cause POWER; a falling pwr_ok stays low until it rises,
the other two conditions for the rest of the time given (log entry 28). -/
def powerGoodFail (cond : PowerCondition) (ns : Nat) (s : State) : State :=
  if ns ≤ 10000 then s else
  match cond with
  | .pwrOk => if s.brc.pwrOk then recognise causePOWER 0 (tapStops { s with brc := { s.brc with pwrOk := false } }) else s
  | _ => recognise causePOWER 0 (tapStops { s with brc := { s.brc with
      pgUntil := Nat.max s.brc.pgUntil (s.now + ticksOfNs (ns - 10000)) } })

def execPowerGoodFail (cond : PowerCondition) (ns : Nat) (s : State) : Host.Outcome State Fault Refusal :=
  .next (powerGoodFail cond ns s)

/-- PWR_OK_RISE (R432): the source POWER ends. -/
def pwrOkRise (s : State) : State :=
  { s with brc := { s.brc with
    pwrOk := true, holdFrom := s.now, hold := s.brc.hold.map (fun l => l.filter (fun c => decide (c ≠ causePOWER))) } }

def execPwrOkRise (s : State) : Host.Outcome State Fault Refusal := act (!s.brc.pwrOk) pwrOkRise s

/-- Whether a page program is in its pulse. -/
def programming (s : State) : Bool :=
  match s.brc.flashOp with
  | some (.program _ _) => true
  | _ => false

/-- Whether the hold may end (R383 step 4). -/
def holdOver (s : State) : Bool :=
  let from_ := Nat.max s.brc.holdFrom (Nat.max s.brc.pinUntil s.brc.pgUntil)
  !s.brc.off && decide (s.brc.hold = some []) && !programming s && decide (from_ + ticksOfUs 100 ≤ s.now)

/-- RESET_HOLD_END: P0 begins with every register at its after-reset value (R8) and a suspended erase resumed, and waits while a
junction is above 105 °C (R379). -/
def beginP0 (hot : Bool) (s : State) : State :=
  let s := nodeReset [] (s.getReg (regAddr .brcResetCause)) s
  let s := { s with brc := { s.brc with hold := none, eraseSuspended := false } }
  if hot then s.setBit .brcBootStatus 0 7 else s

def execResetHoldEnd (hot : Bool) (s : State) : Host.Outcome State Fault Refusal := act (holdOver s) (beginP0 hot) s

/-! ### Phases (R379 to R381) -/

/-- Whether the node is in a boot phase, outside the hold. -/
def inPhase (s : State) (p : Nat) : Bool :=
  !s.brc.off && s.brc.hold.isNone && decide (s.bootState = 0) && decide (s.bootPhase = p)

/-- The limit of a phase in ticks. -/
def phaseLimit (p : Nat) : Nat :=
  match p with
  | 0 => 1375000000
  | 1 => 2 * ticksPerSecond
  | 2 => 3 * ticksPerSecond
  | 3 => 20 * ticksPerSecond
  | 4 => 10 * ticksPerSecond
  | _ => 15 * ticksPerSecond

/-- The phase ends within its limit. -/
def phaseEnds (s : State) (p : Nat) : Bool := inPhase s p && decide (s.now ≤ s.brc.phaseStart + phaseLimit p)

/-- The next phase begins. -/
def enterPhase (p : Nat) (s : State) : State :=
  { s.setField .brcBootStatus 0 0 0 3 p with brc := { s.brc with phaseStart := s.now } }

/-- THERMAL_WAIT_END (R379): the limit of P0 counts without the wait. -/
def thermalWaitEnd (s : State) : State :=
  { s.clearBit .brcBootStatus 0 7 with brc := { s.brc with phaseStart := s.now } }

def execThermalWaitEnd (s : State) : Host.Outcome State Fault Refusal :=
  act (inPhase s 0 && s.bit .brcBootStatus 0 7) thermalWaitEnd s

/-- BOOT_PHASE_TIMEOUT (R380): P5 ends at its limit instead (R381, `tickP5`). -/
def phaseOverdue (s : State) : Bool :=
  !s.brc.off && s.brc.hold.isNone && decide (s.bootState = 0) && decide (s.bootPhase < 5) && !s.bit .brcBootStatus 0 7
    && decide (s.brc.phaseStart + phaseLimit s.bootPhase < s.now)

def execBootPhaseTimeout (s : State) : Host.Outcome State Fault Refusal := act (phaseOverdue s) (bootFail 5) s

/-! ### Records in the flash (R376, R394, R425) -/

/-- The tag of a record under K_log. -/
def recordTag (s : State) (body : List Byte) : List Byte := (hmac512 s.aks.kLog body).take 32

/-- Bytes 0 to 223 of a record at a flash address; none where its tag fails or no K_log stands. -/
def validRecord (s : State) (a : Nat) : Option (List Byte) :=
  let b := s.readFlash a 256
  if s.aks.kLog.isEmpty ∨ b.all (fun x => decide (x = flashErased)) then none
  else if recordTag s (b.take 224) = b.drop 224 then some (b.take 224) else none

/-- A record written at a place of a log; the block it is the first of is erased before (R376). -/
def writeRecord (base slot : Nat) (body : List Byte) (s : State) : State :=
  let s := if slot % 256 = 0 then s.eraseFlash (base + 256 * slot) else s
  let b := (padTo 224 body).take 224
  s.programFlash (base + 256 * slot) (b ++ recordTag s b)

def causeRing : Nat := 0x4000000
def ageingLog : Nat := 0x4040000
def ageingSlots : Nat := 15360

/-- Bytes 0 to 223 of a record of the ring: its number, the cause register and whether the dump was read whole (R385, R430), and the
CRC-64 of R376 over bytes 0 to 215. The spec gives no places; these are the model's (log entry 41). -/
def causeRecord (n cause : Nat) (covered : Bool) : List Byte :=
  let b := padTo 216 (bytesOf 8 n ++ bytesOf 8 cause ++ bytesOf 1 covered.toNat)
  b ++ bytesOf 8 (crc64 b)

/-- The number of a valid record of the ring: its tag and its CRC-64 hold (R376, R394). -/
def causeNumber (s : State) (slot : Nat) : Option Nat :=
  match validRecord s (causeRing + 256 * slot) with
  | some b => if natOf (b.drop 216) = crc64 (b.take 216) then some (natOf (b.take 8)) else none
  | none => none

/-- The number after that of the newest valid record of the reset-cause ring. -/
def nextCause (s : State) : Nat :=
  (List.range 1024).foldl (fun n i => match causeNumber s i with
    | some k => Nat.max n (k + 1)
    | none => n) 0

/-- AKM writes the reset's cause into a new record of the ring (R385, R430). -/
def recordCause (s : State) : State :=
  if s.aks.kLog.isEmpty then s else
  let n := nextCause s
  writeRecord causeRing (n % 1024) (causeRecord n (s.getReg (regAddr .brcResetCause)).toNat s.brc.dumpCovered) s

/-- The fold of a tile, and tile `j` of a fold in the mask order of R192. -/
def foldOf (t : Nat) : Nat := 4 * (t / 24 / 6) + t % 24 / 6
def foldTile (f j : Nat) : Nat := 24 * (6 * (f / 4) + j / 6) + 6 * (f % 4) + j % 6

/-- The valid records of the ageing log. -/
def ageingRecords (s : State) : List (List Byte) :=
  (List.range ageingSlots).filterMap (fun i => validRecord s (ageingLog + 256 * i))

/-- The newest of some records of a fold. -/
def newestOf (l : List (List Byte)) (f : Nat) : Option (List Byte) :=
  (l.filter (fun b => decide ((b.getD 16 0).toNat = f))).foldl (fun m b => match m with
    | some x => if natOf (x.take 8) < natOf (b.take 8) then some b else m
    | none => some b) none

/-! ### P0 to P1 -/

/-- The provisioned ID (R387). -/
def provisionedId (serial : Nat) : Nat := 0x12D4 * 2 ^ 33 + 2 ^ 32 + serial % 2 ^ 32

/-- The MAC of a link (R357), or the image's. -/
def linkMac (s : State) (k : Nat) : Nat :=
  match Config.policyMac (s.section_ 6) k with
  | some m => m.toNat
  | none => 0x0A * 2 ^ 40 + s.aks.serial % 2 ^ 32 * 2 ^ 8 + k

/-- A new debug nonce (R406): free bytes. -/
def newDebugNonce (s : State) : State :=
  let b := padTo 32 (Config.freeBytes s.freeCtr)
  (forEach (List.range 4) (fun k s =>
    s.setReg (regAddr .aksDebugNonce k) (BitVec.ofNat 64 (natOf (slice b (8 * k) 8)))) s).fresh

/-- The identity is unsealed, or IDENTITY_FAIL is raised (R395); K_log follows from K_puf whatever its check says (R394). -/
def loadIdentity (s : State) : State :=
  let s := { s with aks := { s.aks with kLog := derivedKey (pufValue s) "log" } }
  match unsealIdentity s with
  | some id =>
    let s := { s with aks := { s.aks with identity := some id } }
    let cert := id.2.2.1
    let s := forEach (List.range 512) (fun k s =>
      s.setReg (regAddr .aksCert k) (BitVec.ofNat 64 (natOf (slice cert (8 * k) 8)))) s
    s.setBit .aksStatus 0 0
  | none => s.akmEvent 0x001D 1 661 []

/-- The policy of the booted image (HEC_CFG, BRC_WDOG, links). -/
def loadPolicy (s : State) : State :=
  let p := s.section_ 6
  let s := s.setReg (regAddr .hecCfg) (BitVec.ofNat 64 ((Config.policyPort p).toNat
    + (if Config.policyMaxData p then 2 ^ 16 else 0) + (if Config.policyPfc p then 2 ^ 17 else 0)
    + (Config.policyRto p).toNat * 2 ^ 18 + (Config.policyIdle p).toNat * 2 ^ 32))
  let s := s.setReg (regAddr .brcWdog) (BitVec.ofNat 64 (Config.policyWdog p).toNat)
  let s := { s with brc := { s.brc with wdogAt := s.now + 1250000 * (Config.policyWdog p).toNat } }
  forEach (List.range 4) (fun k s =>
    s.setReg (regAddr .hecLinkStatus k)
      (BitVec.ofNat 64 ((Config.linkMode (s.section_ 4) k).toNat * 2 + linkMac s k * 2 ^ 16))) s

/-- The registers that P1 loads from the booted slot (R5, R377, R378). -/
def loadImage (slot : Nat) (s : State) : State :=
  let other := 1 - slot
  let map := Config.repairTiles (sectionBytes s slot 2)
  let s := s.setField .brcBootStatus 0 0 5 1 slot
  let s := s.setField .brcBootStatus 0 0 6 1 (if slotValid s other then 1 else 0)
  let s := s.setReg (regAddr .brcImageVer 0) (BitVec.ofNat 64 (imageVersion s slot))
  let s := s.setReg (regAddr .brcImageVer 1) (BitVec.ofNat 64 (if slotValid s other then imageVersion s other else 0))
  let s := s.setField .brcPartId 0 0 8 8 (imageField s slot 9 1)
  let s := s.setField .brcPartId 0 0 16 10 (tilesEnabled map)
  forEach (List.range 9) (fun k s =>
    s.setReg (regAddr .brcTileEn k) (BitVec.ofNat 64 (map.toNat / 2 ^ (64 * k)))) s

/-- The measurements of P1 (R397). -/
def measureImage (slot : Nat) (s : State) : State :=
  let s := extendMeas 1 (s.readFlash (slotBase slot) 192 ++ signingCert s slot) s
  let s := extendMeas 2 (sectionBytes s slot 1) s
  let s := extendMeas 3 ([2, 3, 4, 5, 8].flatMap (fun t => sectionBytes s slot t)) s
  extendMeas 4 (sectionBytes s slot 6) s

/-- The node serial and the provisioned ID are formed in P0 (R379, R387, R393). -/
def formSerial (s : State) : State :=
  let s := { s with aks := { s.aks with serial := Config.nodeSerial.toNat } }
  let s := s.setReg (regAddr .aksSerial) Config.nodeSerial
  s.setField .brcI3c 0 0 8 48 (provisionedId Config.nodeSerial.toNat)

/-- Whether P0 has formed the provisioned ID, whose manufacturer part is not zero. -/
def State.idFormed (s : State) : Bool := decide (s.field .brcI3c 0 0 8 48 ≠ 0)

/-- What P0 does by itself in a tick: the serial and the ID are formed in its first one, whatever wait follows (R379; log entry 41). -/
def tickP0 (s : State) : State := if inPhase s 0 && !s.idFormed then formSerial s else s

/-- P0 ends (R379, R397), and P1 does its work, or fails for want of an image (R378). -/
def endP0 (s : State) : State :=
  let s := if s.idFormed then s else formSerial s
  let s := extendMeas 0 (Config.romBytes ++ Config.romRootHash ++ Config.romCaHash ++ Config.romDebugHash) s
  let s := enterPhase 1 s
  match bootSlot s with
  | none => bootFail 1 s
  | some slot => recordCause (newDebugNonce (loadPolicy (loadIdentity (measureImage slot (loadImage slot s)))))

/-- BOOT_P0_DONE: a resumed flash operation has completed. -/
def execBootP0Done (s : State) : Host.Outcome State Fault Refusal :=
  act (phaseEnds s 0 && !s.bit .brcBootStatus 0 7 && s.brc.flashOp.isNone) endP0 s

/-! ### P1 to P2 -/

/-- The grade maximum of the input power (R1). -/
def gradeWatts (s : State) : Nat := if s.field .brcPartId 0 0 8 8 = 1 then 4000 else 3800

/-- A die-to-die link's training in P2 (R198): how many of its lanes it replaced by redundant ones is free (log entry 2). One that
cannot train has failed, with D2D_FAIL (R200); in BOOT_FAIL it is no fatal error (R426). -/
def trainLink (failed : Bool) (n : Nat) (s : State) : State :=
  if failed then (fabricError 2 (0x8000 + n) (s.setBit .pfbD2dStatus n 1)).linkEvent 2 n 0 660
  else ((s.setField .pfbD2dStatus n 0 2 6 (Config.freeNat s.freeCtr % 64)).setBit .pfbD2dStatus n 0).fresh

/-- P1 ends: PWR_CAP takes the grade maximum; P2 trains the die-to-die links and sets the folds' voltages (R198, R425). -/
def endP1 (failed : List Nat) (s : State) : State :=
  let s := enterPhase 2 (s.setReg (regAddr .pwrCap) (BitVec.ofNat 64 (gradeWatts s)))
  let bad := failed.filter (fun n => decide (n < 134))
  let s := forEach (List.range 134) (fun n s => trainLink (bad.elem n) n s) s
  if bad.isEmpty = false then bootFail 2 s
  else
    let recs := ageingRecords s
    let s := { s with akm := { s.akm with
      logSeq := recs.foldl (fun n b => Nat.max n (natOf (b.take 8) + 1)) 0 } }
    forEach (List.range 16) (fun f s =>
      let v := match newestOf recs f with
        | some b => natOf (slice b 18 2)
        | none => Config.trimVolt (s.section_ 3) f
      s.setField .akmFold f 0 0 12 v) s

def execBootP1Done (failed : List Nat) (s : State) : Host.Outcome State Fault Refusal :=
  act (phaseEnds s 1) (endP1 failed) s

/-! ### P2 to P3 -/

/-- P2 ends; P3 pens the pseudo-channels that fail their training and those of the REPAIR section, and zeroes stacked
memory with the dump area (R379, R430, R447). -/
def endP2 (failed : List Nat) (s : State) : State :=
  let s := enterPhase 3 s
  let s := { s with mem := [], poison := [], wrong := [] }
  if (List.range 8).any (fun k => (List.range 64).all (fun i => failed.elem (64 * k + i))) then bootFail 3 s
  else forEach (failed ++ Config.repairPcs (s.section_ 2)) (fun n s => penUnit 3 n 2 s) s

def execBootP2Done (failed : List Nat) (s : State) : Host.Outcome State Fault Refusal :=
  act (phaseEnds s 2) (endP2 failed) s

/-! ### P3 to P4 -/

/-- The tiles that valid ageing records list as margin-penned (R425). -/
def marginPenned (s : State) : List Nat :=
  (ageingRecords s).flatMap (fun b =>
    let f := (b.getD 16 0).toNat
    ((List.range 36).filter (fun j => bitOf (natOf (slice b 56 5)) j)).map (fun j => foldTile f j))

/-- P3 ends; in P4 the enabled tiles leave bypass, failing units are penned, and fewer tiles than the grade minimum fail
the boot (R379, R380, R412, R425). -/
def endP3 (tiles cores engines : List Nat) (s : State) : State :=
  let s := enterPhase 4 s
  let s := forEach (List.range 9) (fun k s =>
    s.setReg (regAddr .pfbPenMap k) (~~~ s.getReg (regAddr .brcTileEn k))) s
  let s := forEach tiles (fun t s => penUnit 0 t 1 s) s
  let s := forEach cores (fun c s => penUnit 1 c 1 s) s
  let s := forEach engines (fun e s => penUnit 2 e 1 s) s
  let s := { s with akm := { s.akm with marginPens := marginPenned s } }
  let s := forEach (marginPenned s) (fun t s => penUnit 0 t 4 s) s
  if unitsLeft s 0 < (gradeMinimum (s.field .brcPartId 0 0 8 8)).getD 544 then bootFail 4 s else s

def execBootP3Done (tiles cores engines : List Nat) (s : State) : Host.Outcome State Fault Refusal :=
  act (phaseEnds s 3) (endP3 tiles cores engines) s

/-! ### P4 to READY -/

/-- BOOT_P4_DONE: P5 trains the Holtim and Ethernet links. -/
def execBootP4Done (s : State) : Host.Outcome State Fault Refusal := act (phaseEnds s 4) (enterPhase 5) s

/-- BOOT_P5_DONE (R381). -/
def endP5 (s : State) : State := (enterPhase 6 s).setField .brcBootStatus 0 0 3 2 1

/-- P5 ends by itself at its limit (R381). -/
def tickP5 (s : State) : State := if inPhase s 5 && decide (s.brc.phaseStart + phaseLimit 5 ≤ s.now) then endP5 s else s

def execBootP5Done (s : State) : Host.Outcome State Fault Refusal := act (phaseEnds s 5) endP5 s

/-! ### Other sources -/

/-- WATCHDOG_EXPIRY (R382). -/
def watchdogDue (s : State) : Bool :=
  !s.brc.off && s.brc.hold.isNone && decide (s.field .brcWdog 0 0 0 16 ≠ 0) && decide (s.brc.wdogAt ≤ s.now)

def execWatchdogExpiry (s : State) : Host.Outcome State Fault Refusal := act (watchdogDue s) (recognise causeWATCHDOG 0) s

/-- BRC_WDOG KICK restarts the period. -/
def kickWatchdog (v : Word) (s : State) : State :=
  if bitOf v.toNat 16 then { s with brc := { s.brc with wdogAt := s.now + 1250000 * s.field .brcWdog 0 0 0 16 } } else s

def execBrcWdogKick (src : Requester) (v : Word) (s : State) : Host.Outcome State Fault Refusal :=
  .next (guardedWrite src (decide (src ≠ .akm)) (kickWatchdog v) s)

/-- The reading of a sensor and its peak (PWR_TEMP_s): signed bytes. -/
def noteTemp (sensor : Nat) (celsius : Int) (s : State) : State :=
  let peak := signedOf 8 (s.field .pwrTemp sensor 0 8 8)
  let s := s.setField .pwrTemp sensor 0 0 8 (wrapNat 8 celsius)
  if peak < celsius then s.setField .pwrTemp sensor 0 8 8 (wrapNat 8 celsius) else s

/-- A junction sensor reads below 115 °C again: the source THERMAL ends with the last such sensor (R383). -/
def coolJunction (sensor : Nat) (s : State) : State :=
  if s.brc.hot.elem sensor then
    let left := s.brc.hot.filter (fun k => decide (k ≠ sensor))
    let s := { s with brc := { s.brc with hot := left } }
    if left.isEmpty then
      { s with brc := { s.brc with holdFrom := s.now, hold := s.brc.hold.map (fun l => l.filter (fun c => decide (c ≠ causeTHERMAL))) } }
    else s
  else s

/-- A junction sensor at 115 °C is a reset with cause THERMAL (R382). -/
def tripReading (sensor : Nat) (celsius : Int) (s : State) : State :=
  if 115 ≤ celsius then
    recognise causeTHERMAL 0 { s with brc := { s.brc with hot := if s.brc.hot.elem sensor then s.brc.hot else sensor :: s.brc.hot } }
  else coolJunction sensor s

/-- THERMAL_TRIP (R382): what a junction sensor reads about its trip point. -/
def execThermalTrip (sensor : Nat) (celsius : Int) (s : State) : Host.Outcome State Fault Refusal :=
  act (decide (sensor < 30) && !s.brc.off) (tripReading sensor celsius) s

/-- THERMAL_ALERT (R411): a junction at 105 °C, or the lid at 85 °C. -/
def thermalAlert (sensor : Nat) (celsius : Int) (s : State) : State :=
  s.akmEvent 0x001F 1 660 (bytesOf 1 sensor ++ bytesOf 1 (wrapNat 8 celsius)) sensor

def execThermalAlert (sensor : Nat) (celsius : Int) (s : State) : Host.Outcome State Fault Refusal :=
  act (decide (sensor < 31) && decide ((if sensor = 30 then 85 else 105) ≤ celsius) && s.working)
    (thermalAlert sensor celsius) s

/-- GLITCH_DETECT (R408): AKS erases its keys, and the node resets with cause SECURITY. -/
def execGlitchDetect (detail : Nat) (s : State) : Host.Outcome State Fault Refusal :=
  act (decide (1 ≤ detail) && decide (detail ≤ 3)) (recognise causeSECURITY detail) s

end Sys2Proof.Machine
end

