-- ==== Sys2Proof/Machine/Fleece.lean ====
section
/-! DEFINITION. The fleece of a cut as its destinations see it (R341 to R345): pages and their acknowledgements, sealing,
and the failure of a destination. -/

namespace Sys2Proof.Machine

/-- M and P of a fleece (R341). -/
def Fleece.scopeCount (f : Fleece) : Nat := f.scopePages.length
def Fleece.pageCount (f : Fleece) : Nat := f.scopePages.length + f.statePages

/-- The page numbers under which the zeroes, the page list and the seal are awaited. -/
def Fleece.zeroPage (f : Fleece) : Nat := f.pageCount
def Fleece.listPage (f : Fleece) : Nat := f.pageCount + 1
def Fleece.sealPage (f : Fleece) : Nat := f.pageCount + 2

/-- The destinations that have not failed. -/
def Fleece.live (f : Fleece) : List DestRun := f.dests.filter (fun d => !d.failed)

/-- Changes one destination. -/
def Fleece.modDest (f : Fleece) (d : Nat) (g : DestRun → DestRun) : Fleece :=
  { f with dests := f.dests.map (fun x => if x.d = d then g x else x) }

/-- Whether something of a page is still awaited at a live destination. -/
def Fleece.pageAwaited (f : Fleece) (page : Nat) : Bool :=
  f.awaited.any (fun w => decide (w.1 = page) && f.live.any (fun d => decide (d.d = w.2.1)))

/-- Whether a destination still awaits an acknowledgement. -/
def Fleece.destAwaits (f : Fleece) (d : Nat) : Bool := f.awaited.any (fun w => decide (w.2.1 = d))

/-- A page begun at a destination with a number of writes. -/
def Fleece.await (f : Fleece) (page d n : Nat) : Fleece :=
  if n = 0 then f else { f with awaited := f.awaited ++ [(page, d, n)] }

/-- One write of a page acknowledged at a destination. -/
def Fleece.acked (f : Fleece) (page d : Nat) : Fleece :=
  { f with awaited := f.awaited.filterMap (fun w =>
      if w.1 = page ∧ w.2.1 = d then (if w.2.2 ≤ 1 then none else some (w.1, w.2.1, w.2.2 - 1)) else some w) }

def State.setFleece (s : State) (f : Option Fleece) : State := { s with ckp := { s.ckp with fleece := f } }

/-- The fleece ends, sealed or failed at every destination (R334). -/
def State.endFleece (s : State) : State :=
  { s with snap := [], ckp := { s.ckp with fleece := none, endedAt := s.time } }.releaseHeld

/-- A scope page that every live destination has acknowledged loses its bit (R342). -/
def settlePage (page : Nat) (s : State) : State :=
  match s.ckp.fleece with
  | none => s
  | some f =>
    if page < f.scopeCount ∧ (Table.get none f.crcs page).isSome ∧ f.pageAwaited page = false then
      let s := { s with snap := Table.set false s.snap (f.scopePages.getD page 0) false }
      s.releaseHeld
    else s

/-- The newest sealed slot of a destination, where it holds one of this job. -/
def State.sealedSlot (s : State) (d : Nat) : Option Nat :=
  if s.bit .ckpStatus 0 (5 + 2 * d) then some (s.field .ckpStatus 0 0 (6 + 2 * d) 1) else none

/-- The seal of a destination is acknowledged (R343): its slot is the newest sealed one. The fleece ends once every live
destination is sealed, and the next cut round may complete (R334). -/
def sealDone (d : Nat) (s : State) : State :=
  match s.ckp.fleece with
  | none => s
  | some f =>
    let slot := ((f.dests.find? (fun x => decide (x.d = d))).map (·.slot)).getD 0
    let f := f.modDest d (fun x => { x with stage := 6 })
    let s := (s.setField .ckpStatus 0 0 (5 + 2 * d) 1 1).setField .ckpStatus 0 0 (6 + 2 * d) 1 slot
    let s := s.setReg (regAddr .ckpSealed d) (BitVec.ofNat 64 f.step)
    if f.live.all (fun x => decide (x.stage = 6)) then
      progressHurdle s.cutHurdle s.endFleece
    else s.setFleece (some f)

/-- An acknowledged write of a destination (R342, R343). -/
def shearAcked (page d : Nat) (s : State) : State :=
  match s.ckp.fleece with
  | none => s
  | some f =>
    let f := f.acked page d
    let s := s.setFleece (some f)
    if page = f.sealPage ∧ (f.dests.any (fun x => decide (x.d = d) && decide (x.stage = 5) && !x.failed)) ∧ f.destAwaits d = false
    then sealDone d s
    else settlePage page s

/-- A write of a cut to a destination ends in ERR, or the slot is too small (R341, R345). A destination that has failed or
is sealed already changes no more. -/
def failDestination (d : Nat) (s : State) : State :=
  match s.ckp.fleece with
  | none => s
  | some f =>
    if f.live.any (fun x => decide (x.d = d) && decide (x.stage ≠ 6)) = false then s else
    let pages := (f.awaited.filter (fun w => decide (w.2.1 = d))).map (·.1)
    let f := f.modDest d (fun x => { x with failed := true })
    let f := { f with awaited := f.awaited.filter (fun w => decide (w.2.1 ≠ d)) }
    let s := { s with hec := { s.hec with shears := s.hec.shears.filter (fun x => decide (x.1 ≠ d)) } }
    let s := ((s.setFleece (some f)).forgetShears (some d)).raiseBit .ckpStatus 0 (1 + d)
    let s := if f.live.isEmpty then abandonFleece s
      else if f.live.all (fun x => decide (x.stage = 6)) then s.endFleece
      else forEach pages settlePage s
    progressHurdle s.cutHurdle s.ckpEvent

end Sys2Proof.Machine
end

