-- ==== Sys2Proof/Machine/Float.lean ====
section
/-! DEFINITION. Exact binary arithmetic and every rounding the node performs: the formats of R41, the rounding modes of
R62, out-of-range results of R64, the sticky flags of R65, seeded stochastic rounding of R66 and the Philox generator
of R67. The same values carry the cores' F and D operations (R280). -/

namespace Sys2Proof.Machine

/-- How a format answers what lies beyond its largest finite value (R64). -/
inductive Special where
  /-- infinities and NaN, as IEEE 754 -/
  | ieee
  /-- NaN but no infinity: FP8 E4M3 -/
  | nanOnly
  /-- neither: FP4 and FP6 -/
  | none
  deriving DecidableEq, Repr

/-- One floating-point format of R41: exponent bits, mantissa bits, bias, the largest finite value as
`maxM × 2^maxE`, and the canonical NaN of R43 (unused where there is none). -/
structure Fmt where
  ebits : Nat
  mbits : Nat
  bias : Nat
  special : Special
  maxM : Nat
  maxE : Int
  canonNan : Nat
  deriving DecidableEq, Repr

def fmtFp4 : Fmt := ⟨2, 1, 1, .none, 3, 1, 0⟩
def fmtFp6e2m3 : Fmt := ⟨2, 3, 1, .none, 15, -1, 0⟩
def fmtFp6e3m2 : Fmt := ⟨3, 2, 3, .none, 7, 2, 0⟩
def fmtFp8e4m3 : Fmt := ⟨4, 3, 7, .nanOnly, 14, 5, 0x7F⟩
def fmtFp8e5m2 : Fmt := ⟨5, 2, 15, .ieee, 7, 13, 0x7E⟩
def fmtFp16 : Fmt := ⟨5, 10, 15, .ieee, 2047, 5, 0x7E00⟩
def fmtBf16 : Fmt := ⟨8, 7, 127, .ieee, 255, 120, 0x7FC0⟩
def fmtFp32 : Fmt := ⟨8, 23, 127, .ieee, 16777215, 104, 0x7FC00000⟩
def fmtFp64 : Fmt := ⟨11, 52, 1023, .ieee, 9007199254740991, 971, 0x7FF8000000000000⟩

/-- The width of a format in bits. -/
def Fmt.width (f : Fmt) : Nat := 1 + f.ebits + f.mbits

/-- The exponent of the smallest normal value. -/
def Fmt.emin (f : Fmt) : Int := 1 - (f.bias : Int)

/-- An exact value: NaN, an infinity, or a finite number. A finite number has magnitude `m × 2^e`, increased by less
than one unit of `2^e` when `tail` is set (the quotients, roots and functions that have no finite expansion). -/
inductive Exact where
  | nan
  | inf (neg : Bool)
  | fin (neg : Bool) (m : Nat) (e : Int) (tail : Bool)
  deriving DecidableEq, Repr

/-- The sticky flags an operation raises (R65; `divZero` is the cores' fflags.DZ alone). -/
structure Flags where
  invalid : Bool := false
  overflow : Bool := false
  underflow : Bool := false
  inexact : Bool := false
  divZero : Bool := false
  accMismatch : Bool := false
  deriving DecidableEq, Repr

def Flags.clear : Flags := {}

/-- Flags of two operations together: a sticky flag stays set. -/
def Flags.or (a b : Flags) : Flags :=
  ⟨a.invalid || b.invalid, a.overflow || b.overflow, a.underflow || b.underflow, a.inexact || b.inexact,
    a.divZero || b.divZero, a.accMismatch || b.accMismatch⟩

def flagInvalid : Flags := { invalid := true }
def flagOverflow : Flags := { overflow := true }
def flagInexact : Flags := { inexact := true }
def flagMismatch : Flags := { accMismatch := true }

/-- The rounding modes of R62; `sr` carries the element's 24-bit random value of R66; `rmm` is the cores' frm code 4. -/
inductive Rm where
  | rne | rtz | rdn | rup
  | sr (r : Nat)
  | rmm
  deriving DecidableEq, Repr

/-- The value a pattern of a format stands for (R41, R42: subnormals are kept). -/
def decodeFloat (f : Fmt) (x : Nat) : Exact :=
  let neg := bitOf x (f.ebits + f.mbits)
  let ef := bitsOf x f.mbits f.ebits
  let m := x % 2 ^ f.mbits
  let top := 2 ^ f.ebits - 1
  let finite : Exact :=
    if ef = 0 then .fin neg m (1 - (f.bias : Int) - f.mbits) false
    else .fin neg (2 ^ f.mbits + m) ((ef : Int) - f.bias - f.mbits) false
  match f.special with
  | .ieee => if ef = top then (if m = 0 then .inf neg else .nan) else finite
  | .nanOnly => if ef = top ∧ m = 2 ^ f.mbits - 1 then .nan else finite
  | .none => finite

/-- The exact value of an integer scaled by `2^e`. -/
def exactOfInt (n : Int) (e : Int) : Exact := .fin (decide (n < 0)) n.natAbs e false

/-- True for a finite value that is zero. -/
def Exact.isZero : Exact → Bool
  | .fin _ 0 _ false => true
  | _ => false

def Exact.isNan : Exact → Bool
  | .nan => true
  | _ => false

def Exact.isInf : Exact → Bool
  | .inf _ => true
  | _ => false

/-- The sign of a value; NaN counts as positive. -/
def Exact.neg : Exact → Bool
  | .nan => false
  | .inf n => n
  | .fin n _ _ _ => n

/-- The value with its sign reversed. -/
def Exact.negate : Exact → Exact
  | .nan => .nan
  | .inf n => .inf (!n)
  | .fin n m e t => .fin (!n) m e t

/-- A finite value as a signed integer over a power of two (no tail). -/
def Exact.signed : Exact → Int × Int
  | .fin neg m e _ => (if neg then -(m : Int) else (m : Int), e)
  | _ => (0, 0)

/-- Whether the discarded part of a magnitude rounds it up: `rem` of `2^d` units, `tail` for anything more. -/
def roundsUp (rm : Rm) (neg odd : Bool) (rem d : Nat) (tail : Bool) : Bool :=
  let any := decide (rem ≠ 0) || tail
  let half := 2 ^ d
  match rm with
  | .rtz => false
  | .rdn => neg && any
  | .rup => !neg && any
  | .rne => decide (half < 2 * rem) || (decide (half = 2 * rem) && (tail || odd))
  | .rmm => decide (half ≤ 2 * rem) && any
  | .sr r => any && decide (2 ^ (24 + d) ≤ rem * 2 ^ 24 + r * 2 ^ d)

/-- A magnitude rounded to a multiple of `2^q`: the multiple, and whether the value changed. Where the value's own
unit is not below `2^q` it is exact. -/
def roundAt (rm : Rm) (neg : Bool) (m : Nat) (e q : Int) (tail : Bool) : Nat × Bool :=
  if q ≤ e then
    let k := m * 2 ^ (e - q).toNat
    (if roundsUp rm neg (decide (k % 2 = 1)) 0 0 tail then k + 1 else k, tail)
  else
    let d := (q - e).toNat
    let k := m / 2 ^ d
    let rem := m % 2 ^ d
    (if roundsUp rm neg (decide (k % 2 = 1)) rem d tail then k + 1 else k, decide (rem ≠ 0) || tail)

/-- The pattern of an infinity or of the largest finite magnitude, with its sign. -/
def signBit (f : Fmt) (neg : Bool) : Nat := if neg then 2 ^ (f.ebits + f.mbits) else 0

def infPattern (f : Fmt) (neg : Bool) : Nat := signBit f neg + (2 ^ f.ebits - 1) * 2 ^ f.mbits

/-- The pattern of a finite magnitude `k × 2^q` that the format holds exactly. -/
def packFinite (f : Fmt) (neg : Bool) (k : Nat) (q : Int) : Nat :=
  signBit f neg + (((q + f.mbits + f.bias - 1).toNat) * 2 ^ f.mbits + k)

def maxPattern (f : Fmt) (neg : Bool) : Nat :=
  let s := Nat.log2 f.maxM
  packFinite f neg (f.maxM * 2 ^ (f.mbits - s)) (f.maxE - ((f.mbits - s : Nat) : Int))

/-- `a × 2^x ≤ b × 2^y`. -/
def leScaled (a : Nat) (x : Int) (b : Nat) (y : Int) : Bool :=
  if x ≤ y then decide (a ≤ b * 2 ^ (y - x).toNat) else decide (a * 2 ^ (x - y).toNat ≤ b)

/-- The result of a finite value out of range, by rounding mode (the table of R64). -/
def outOfRange (f : Fmt) (rm : Rm) (neg : Bool) : Nat :=
  match f.special with
  | .ieee =>
    match rm with
    | .rne => infPattern f neg
    | .rmm => infPattern f neg
    | .sr _ => infPattern f neg
    | .rtz => maxPattern f neg
    | .rdn => if neg then infPattern f neg else maxPattern f neg
    | .rup => if neg then maxPattern f neg else infPattern f neg
  | _ => maxPattern f neg

/-- One exact value written in a format: rounded once by the mode, with R64's values out of range and R65's flags. -/
def roundFloat (f : Fmt) (rm : Rm) : Exact → Nat × Flags
  | .nan =>
    match f.special with
    | .none => (0, flagInvalid)
    | _ => (f.canonNan, {})
  | .inf neg =>
    match f.special with
    | .ieee => (infPattern f neg, {})
    | _ => (maxPattern f neg, flagOverflow)
  | .fin neg m e tail =>
    if m = 0 ∧ tail = false then (signBit f neg, {}) else
    let top : Int := (Nat.log2 m : Int) + e
    let q : Int := (if top < f.emin then f.emin else top) - f.mbits
    let (k, changed) := roundAt rm neg m e q tail
    if leScaled k q f.maxM f.maxE then
      let small := decide (k < 2 ^ f.mbits)
      (packFinite f neg k q, { underflow := small, inexact := changed })
    else (outOfRange f rm neg, { overflow := true, inexact := true })

/-- The exact product. A NaN from operands that are not NaN raises INVALID. -/
def mulExact (a b : Exact) : Exact × Flags :=
  match a, b with
  | .nan, _ => (.nan, {})
  | _, .nan => (.nan, {})
  | .inf n, .inf k => (.inf (n != k), {})
  | .inf n, .fin k m _ t => if m = 0 ∧ t = false then (.nan, flagInvalid) else (.inf (n != k), {})
  | .fin k m _ t, .inf n => if m = 0 ∧ t = false then (.nan, flagInvalid) else (.inf (n != k), {})
  | .fin n m e _, .fin k m' e' _ => (.fin (n != k) (m * m') (e + e') false, {})

/-- The exact sum, with the sign of an exact zero sum by R149: −0 of two −0, else −0 under RDN, else +0. -/
def addExact (rm : Rm) (a b : Exact) : Exact × Flags :=
  match a, b with
  | .nan, _ => (.nan, {})
  | _, .nan => (.nan, {})
  | .inf n, .inf k => if n = k then (.inf n, {}) else (.nan, flagInvalid)
  | .inf n, .fin _ _ _ _ => (.inf n, {})
  | .fin _ _ _ _, .inf n => (.inf n, {})
  | .fin n m e _, .fin k m' e' _ =>
    let q := if e ≤ e' then e else e'
    let x : Int := (if n then -(m : Int) else m) * 2 ^ (e - q).toNat
    let y : Int := (if k then -(m' : Int) else m') * 2 ^ (e' - q).toNat
    let s := x + y
    if s = 0 then
      let zeroNeg := (m = 0 ∧ m' = 0 ∧ n ∧ k) ∨ rm = .rdn
      (.fin (decide zeroNeg) 0 q false, {})
    else (.fin (decide (s < 0)) s.natAbs q false, {})

/-- The exact sum by IEEE 754, as the cores take it: as `addExact`, but two zeros of one sign keep it in every mode. -/
def addIeee (rm : Rm) (a b : Exact) : Exact × Flags :=
  if a.isZero && b.isZero && (a.neg == b.neg) then (a, {}) else addExact rm a b

/-- The exact quotient, to 128 bits more than the divisor with a tail. -/
def divExact (a b : Exact) : Exact × Flags :=
  match a, b with
  | .nan, _ => (.nan, {})
  | _, .nan => (.nan, {})
  | .inf _, .inf _ => (.nan, flagInvalid)
  | .inf n, .fin k _ _ _ => (.inf (n != k), {})
  | .fin n _ _ _, .inf k => (.fin (n != k) 0 0 false, {})
  | .fin n m e _, .fin k m' e' _ =>
    if m' = 0 then
      if m = 0 then (.nan, flagInvalid) else (.inf (n != k), { divZero := true })
    else
      let x := m * 2 ^ 128
      (.fin (n != k) (x / m') (e - e' - 128) (decide (x % m' ≠ 0)), {})

/-- The integer square root, one bit of the root at a time from bit `n` down. -/
def isqrtFrom (x : Nat) : Nat → Nat → Nat
  | 0, r => r
  | n + 1, r =>
    let r' := r + 2 ^ n
    if r' * r' ≤ x then isqrtFrom x n r' else isqrtFrom x n r

/-- The largest integer whose square is at most `x`. -/
def isqrt (x : Nat) : Nat := isqrtFrom x (Nat.log2 x / 2 + 1) 0

/-- The exact square root, to at least 128 fraction bits with a tail. -/
def sqrtExact : Exact → Exact × Flags
  | .nan => (.nan, {})
  | .inf neg => if neg then (.nan, flagInvalid) else (.inf false, {})
  | .fin neg m e _ =>
    if m = 0 then (.fin neg 0 0 false, {})
    else if neg then (.nan, flagInvalid)
    else
      let odd := decide (e % 2 ≠ 0)
      let x := m * 2 ^ (if odd then 257 else 256)
      let e' := (if odd then e - 257 else e - 256) / 2
      let r := isqrt x
      (.fin false r e' (decide (r * r ≠ x)), {})

/-- An exact value rounded to an integer multiple of `2^-qf` and saturated to a signed or unsigned range (R64, R154), with the
flags of R65: a non-zero value that becomes zero sets UNDERFLOW. The integer is the raw value. -/
def roundInt (rm : Rm) (qf : Nat) (lo hi : Int) : Exact → Int × Flags
  | .nan => (0, flagInvalid)
  | .inf neg => (if neg then lo else hi, flagOverflow)
  | .fin neg m e tail =>
    let (k, changed) := roundAt rm neg m e (-(qf : Int)) tail
    let v : Int := if neg then -(k : Int) else k
    if v < lo then (lo, { overflow := true, inexact := true })
    else if hi < v then (hi, { overflow := true, inexact := true })
    else (v, { underflow := decide (k = 0) && (decide (m ≠ 0) || tail), inexact := changed })

/-- Compares two values that are not NaN: `a < b`. −0 equals +0. -/
def ltExact (a b : Exact) : Bool :=
  match a, b with
  | .nan, _ => false
  | _, .nan => false
  | .inf n, .inf k => n && !k
  | .inf n, .fin _ _ _ _ => n
  | .fin _ _ _ _, .inf k => !k
  | .fin n m e _, .fin k m' e' _ =>
    let q := if e ≤ e' then e else e'
    let x : Int := (if n then -(m : Int) else m) * 2 ^ (e - q).toNat
    let y : Int := (if k then -(m' : Int) else m') * 2 ^ (e' - q).toNat
    decide (x < y)

/-- Equality by value of two values that are not NaN; −0 equals +0, NaN equals nothing. -/
def eqExact (a b : Exact) : Bool :=
  match a, b with
  | .nan, _ => false
  | _, .nan => false
  | a, b => !ltExact a b && !ltExact b a

/-- The order of the maximum and minimum operations: as by value, with −0 below +0 (R150, R162). -/
def ltOrdered (a b : Exact) : Bool :=
  ltExact a b || (eqExact a b && a.isZero && b.isZero && a.neg && !b.neg)

/-- One round of Philox4x32-10 (R67). -/
def philoxRound (c : Nat × Nat × Nat × Nat) (k : Nat × Nat) : Nat × Nat × Nat × Nat :=
  let p := 0xD2511F53 * c.1
  let q := 0xCD9E8D57 * c.2.2.1
  ((q / 2 ^ 32) ^^^ c.2.1 ^^^ k.1, q % 2 ^ 32, (p / 2 ^ 32) ^^^ c.2.2.2 ^^^ k.2, p % 2 ^ 32)

/-- `n` rounds of Philox; the key moves on before every round but the first. -/
def philoxRounds : Nat → Nat × Nat × Nat × Nat → Nat × Nat → Nat × Nat × Nat × Nat
  | 0, c, _ => c
  | n + 1, c, k =>
    philoxRounds n (philoxRound c k) ((k.1 + 0x9E3779B9) % 2 ^ 32, (k.2 + 0xBB67AE85) % 2 ^ 32)

/-- Philox4x32-10 on a counter and a key. -/
def philox (c : Nat × Nat × Nat × Nat) (k : Nat × Nat) : Nat × Nat × Nat × Nat := philoxRounds 10 c k

/-- The 24-bit random value of the element at logical row `i`, column `j` (R67). -/
def randomBits (seed tensor : Nat) (step : Word) (i j : Nat) : Nat :=
  let o := philox ((j / 4) % 2 ^ 32, i % 2 ^ 32, step.toNat % 2 ^ 32, step.toNat / 2 ^ 32) (seed, tensor)
  let w := match j % 4 with
    | 0 => o.1
    | 1 => o.2.1
    | 2 => o.2.2.1
    | _ => o.2.2.2
  w % 2 ^ 24

/-- The canonical pairwise tree T of R27 over a list of patterns: split at the largest power of two below the length.
`fuel` bounds the depth and the length of the list is enough. -/
def treeWith (add : Nat → Nat → Nat × Flags) : Nat → List Nat → Nat × Flags
  | 0, v => (v.headD 0, {})
  | fuel + 1, v =>
    match v with
    | [] => (0, {})
    | [x] => (x, {})
    | v =>
      let m := 2 ^ Nat.log2 (v.length - 1)
      let (a, fa) := treeWith add fuel (v.take m)
      let (b, fb) := treeWith add fuel (v.drop m)
      let (c, fc) := add a b
      (c, (fa.or fb).or fc)

/-- Two patterns of a format added and rounded once. -/
def addRounded (f : Fmt) (rm : Rm) (a b : Nat) : Nat × Flags :=
  let (x, fl) := addExact rm (decodeFloat f a) (decodeFloat f b)
  let (y, fl') := roundFloat f rm x
  (y, fl.or fl')

/-- T over patterns of one format, every inner node rounded RNE (R27, R63). -/
def treeSum (f : Fmt) (v : List Nat) : Nat × Flags := treeWith (addRounded f .rne) v.length v

end Sys2Proof.Machine
end

