-- ==== Sys2Proof/Machine/Operands.lean ====
section
/-! DEFINITION. The operand forms of the tile's instructions (chapter 5): which words a form has, the checks of R106 on its
fields, the address generators and the addresses an instruction names, and the element types of the vector unit. -/

namespace Sys2Proof.Machine

/-! ### Vector element types (R131) -/

/-- The width in bits of a TY type. -/
def tyWidth (ty : Nat) : Nat :=
  if ty = 0x0 ∨ ty = 0x4 then 8
  else if ty = 0x1 ∨ ty = 0x5 ∨ ty = 0x8 ∨ ty = 0x9 then 16
  else if ty = 0x3 ∨ ty = 0x7 ∨ ty = 0xB ∨ ty = 0xD then 64
  else 32

def tyFloat (ty : Nat) : Bool := decide (8 ≤ ty) && decide (ty ≤ 0xB)
def tyQ (ty : Nat) : Bool := decide (ty = 0xC) || decide (ty = 0xD)
def tyIntQ (ty : Nat) : Bool := decide (ty < 8) || tyQ ty

/-- INT and Q types are signed. -/
def tySigned (ty : Nat) : Bool := decide (ty < 4) || tyQ ty

/-- The format of a floating-point TY type. -/
def tyFmt (ty : Nat) : Fmt := if ty = 8 then fmtFp16 else if ty = 9 then fmtBf16 else if ty = 0xA then fmtFp32 else fmtFp64

/-- The width in bits of a VCVT side: a TY type or a storage format of R132. -/
def sideWidth (c : Nat) : Nat :=
  if c = 0x10 then 4 else if c = 0x11 ∨ c = 0x12 then 6 else if c = 0x13 ∨ c = 0x14 then 8 else tyWidth c

/-- Whether R132 knows the code of a side. -/
def sideKnown (c : Nat) : Bool := decide (c ≤ 0xD) || (decide (0x10 ≤ c) && decide (c ≤ 0x14))

def sideFp6 (c : Nat) : Bool := decide (c = 0x11) || decide (c = 0x12)

/-- The floating-point format of a side, if it has one. -/
def sideFmt (c : Nat) : Option Fmt :=
  if c = 0x10 then some fmtFp4 else if c = 0x11 then some fmtFp6e2m3 else if c = 0x12 then some fmtFp6e3m2
  else if c = 0x13 then some fmtFp8e4m3 else if c = 0x14 then some fmtFp8e5m2
  else if tyFloat c then some (tyFmt c) else none

/-- Elements of a VCVT, registers of its source and registers of its destination (R153). -/
def cvtElements (dst src : Nat) : Nat :=
  if sideFp6 dst || sideFp6 src then 2048 else 4096 / Nat.min (sideWidth dst) (sideWidth src)

def cvtRegs (dst src side : Nat) : Nat := cvtElements dst src * sideWidth side / 4096

/-! ### Vector registers as packed integers (R140) -/

/-- `n` elements of a width, packed from bit 0 up. -/
def packBits (w : Nat) : List Nat → Nat
  | [] => 0
  | x :: l => x % 2 ^ w + 2 ^ w * packBits w l

/-- `n` elements of a width of a packed integer. -/
def unpackBits (w : Nat) : Nat → Nat → List Nat
  | 0, _ => []
  | n + 1, x => x % 2 ^ w :: unpackBits w n (x / 2 ^ w)

/-! ### The fields of the words (R105 to R134) -/

/-- Formats of the vector opcodes (the vector opcode map). -/
inductive VFormat where
  | vr | vc | vm | va | vrd
  deriving DecidableEq, Repr

def vFormat (op : Nat) : Option VFormat :=
  if (0x60 ≤ op ∧ op ≤ 0x6B) ∨ (0x70 ≤ op ∧ op ≤ 0x7B) ∨ (0x80 ≤ op ∧ op ≤ 0x85) ∨ op = 0x8C ∨ (0xA0 ≤ op ∧ op ≤ 0xA6) then
    some .vr
  else if op = 0x88 then some .vc
  else if op = 0x90 then some .va
  else if 0x98 ≤ op ∧ op ≤ 0x9A then some .vrd
  else if op = 0xB0 ∨ op = 0xB1 then some .vm
  else none

/-- Whether an instruction has an extension word (R107). -/
def hasExt (op word : Nat) : Bool :=
  decide (op = 0x04) || decide (op = 0x30) || decide (op = 0x34) || decide (op = 0x40)
    || (decide (vFormat op = some .vr) && bitOf word 12)

/-- Words of the instruction that a first word begins. -/
def wordsOf (word : Nat) : Nat := if hasExt (bitsOf word 56 8) word then 2 else 1

/-- The queue that owns an opcode (R72, the opcode map); none for the sequencer's own and for reserved ones. -/
def unitOf (op : Nat) : Option TileUnit :=
  if 0x10 ≤ op ∧ op ≤ 0x13 then some .sync
  else if op = 0x20 ∨ op = 0x21 then some .load
  else if op = 0x30 ∨ op = 0x34 ∨ op = 0x35 then some .store
  else if op = 0x40 ∨ op = 0x48 ∨ op = 0x49 then some .matrix
  else if (vFormat op).isSome then some .vector
  else none

/-- Whether a type is among an opcode's "Types allowed" (R134). -/
def tyAllowed (op ty : Nat) : Bool :=
  if 0x63 ≤ op ∧ op ≤ 0x66 then tyIntQ ty
  else if op = 0x6B then tyFloat ty
  else if 0x70 ≤ op ∧ op ≤ 0x77 then tyIntQ ty
  else if 0x80 ≤ op ∧ op ≤ 0x85 then decide (ty = 0xA)
  else if op = 0x8C then tyQ ty
  else if 0x98 ≤ op ∧ op ≤ 0x9A then [0x2, 0x3, 0xA, 0xB, 0xC, 0xD].elem ty
  else if 0xA0 ≤ op ∧ op ≤ 0xA6 then [0x8, 0x9, 0xA].elem ty
  else decide (ty ≤ 0xD)

/-- Whether a VR instruction takes RM 0 to 3 (R144). -/
def takesRm (op ty : Nat) : Bool :=
  ((decide (0x60 ≤ op) && decide (op ≤ 0x62)) && tyFloat ty) || decide (op = 0x6B) || decide (op = 0x8C)
    || (decide (0xA0 ≤ op) && decide (op ≤ 0xA6)) || (decide (0x80 ≤ op) && decide (op ≤ 0x85))

/-- Instructions that use VC (R143). -/
def usesVc (op : Nat) : Bool := [0x6B, 0x7B, 0xA1, 0xA4].elem op

/-- Unary instructions (R143). -/
def unaryVr (op : Nat) : Bool := [0x69, 0x6A, 0x77, 0x80, 0x81, 0x82, 0x83, 0x84, 0x85].elem op

/-- QF of a type (R131). -/
def qfLegal (ty qf : Nat) : Bool :=
  if ty = 0xC then decide (qf ≤ 31) else if ty = 0xD then true else decide (qf = 0)

/-- The checks on a VR word and its immediate (R131, R134, R143, R144). -/
def legalVr (op word ext : Nat) : Bool :=
  let ty := bitsOf word 42 4
  let vb := bitsOf word 27 5
  let vc := bitsOf word 22 5
  let rm := bitsOf word 19 3
  let imm := bitOf word 12
  tyAllowed op ty && decide (bitsOf word 0 12 = 0) && qfLegal ty (bitsOf word 13 6)
    && decide (rm ≤ (if takesRm op ty then 3 else 0))
    && (usesVc op || decide (vc = 0))
    && (!unaryVr op || (decide (vb = 0) && decide (vc = 0) && !imm))
    && (!imm || (decide (vb = 0) && (decide (tyWidth ty = 64) || decide (ext / 2 ^ tyWidth ty = 0))))

/-- The checks on a VC word (R131, R132, R153; log entry 21). -/
def legalVc (word : Nat) : Bool :=
  let dst := bitsOf word 27 5
  let src := bitsOf word 22 5
  let qf := bitsOf word 13 6
  sideKnown dst && sideKnown src && decide (bitsOf word 42 4 = 0) && decide (bitsOf word 0 8 = 0)
    && decide (bitsOf word 19 3 ≤ 4)
    && (decide (qf = 0) || tyQ dst || tyQ src)
    && (decide (qf ≤ 31) || (decide (dst ≠ 0xC) && decide (src ≠ 0xC)))
    && !((sideFp6 dst || sideFp6 src) && (decide (sideWidth dst = 64) || decide (sideWidth src = 64)))
    && decide (bitsOf word 32 5 + cvtRegs dst src src ≤ 32) && decide (bitsOf word 37 5 + cvtRegs dst src dst ≤ 32)

/-- The checks on a VM, VA or VRD word (R133, R156, R159). -/
def legalVm (word : Nat) : Bool :=
  let vd := bitsOf word 37 5
  let n := bitsOf word 27 5 + 1
  decide (bitsOf word 42 4 = 0) && decide (bitsOf word 0 26 = 0) && decide (vd + n ≤ 32)
    && (!bitOf word 26 || (decide (n % 8 = 0) && decide (vd % 8 = 0)))

def legalVa (word : Nat) : Bool :=
  let row := bitsOf word 30 7
  let mode := bitsOf word 26 2
  decide (bitsOf word 42 3 = 0) && decide (bitsOf word 0 26 = 0)
    && (decide (mode ≠ 0) || decide (row % 4 = 0)) && (decide (mode ≠ 1) || decide (row % 2 = 0))

def legalVrd (op word : Nat) : Bool :=
  tyAllowed op (bitsOf word 42 4) && decide (bitsOf word 0 27 = 0) && decide (bitsOf word 32 5 + bitsOf word 27 5 ≤ 31)

/-- Short formats that pair in R45. -/
def pairsShort (a b : Nat) : Bool :=
  (decide (a ≤ 4) && decide (b ≤ 4)) || (decide (a = 5) && decide (b = 5)) || (decide (a = 6) && decide (b = 6))

/-- The legal MMUL combinations (R121, R56, R60). -/
def legalMmul (word ext : Nat) : Bool :=
  let seed := bitsOf word 43 2
  let a := bitsOf word 39 4
  let b := bitsOf word 35 4
  let sck := bitsOf word 33 2
  let ps := bitsOf word 29 4
  let isOpen := bitOf word 28
  let cont := bitOf word 27
  let k := bitsOf word 0 24
  let long := decide (sck = 0) && (decide (seed = 0) || decide (seed = 2))
  decide (bitsOf word 24 3 = 0) && decide (bitsOf ext 0 23 = 0) && (!isOpen || decide (seed = 0))
    && ((pairsShort a b && decide (ps = 0) && decide (seed ≤ 1) && decide (sck ≤ 2) && !isOpen && !cont)
      || (decide (a = 7) && decide (b = 7) && decide (ps = 0) && long)
      || (decide (a = 8) && decide (b = 8) && decide (1 ≤ ps) && decide (ps ≤ 3) && long)
      || (decide (a = 9) && decide (b = 9) && decide (4 ≤ ps) && decide (ps ≤ 8) && long
          && (!isOpen || decide (k % 2048 = 0))))

/-- The checks on the fields of a posted atomic (R119). -/
def legalAtom (word : Nat) : Bool :=
  let op := bitsOf word 43 3
  decide (op ≤ 5) && (!bitOf word 42 || decide (op = 4) || decide (op = 5))

/-- The STORE extension word (STORE extension table). -/
def legalTally (w : Nat) : Bool :=
  let mode := bitsOf w 62 2
  decide (mode ≠ 3) && decide (bitsOf w 16 13 = 0) && (decide (mode = 2) || decide (bitsOf w 46 16 = 0))
    && (decide (mode ≠ 0) || (decide (bitsOf w 29 17 = 0) && decide (bitsOf w 0 16 = 0)))

/-- The checks of R106 on an instruction that goes to a queue, but for its addresses and its wait and post sets. -/
def legalFields (op word ext : Nat) : Bool :=
  match op with
  | 0x10 => decide (bitsOf word 31 7 = 0) && decide (bitsOf word 38 8 ≤ 191)
  | 0x11 => decide (bitsOf word 10 36 = 0)
  | 0x12 => decide (bitsOf word 10 36 = 0)
  | 0x13 => decide (bitsOf word 10 36 = 0)
  | 0x20 => decide (bitsOf word 0 20 = 0)
  | 0x21 => decide (bitsOf word 0 16 = 0) && decide (bitsOf word 32 4 ≤ 0xA)
  | 0x30 => decide (bitsOf word 0 20 = 0) && legalTally ext
  | 0x34 => decide (bitsOf word 0 36 = 0) && legalAtom word && (bitOf word 41 || decide (bitsOf ext 32 32 = 0))
  | 0x35 => decide (bitsOf word 0 31 = 0) && legalAtom word
  | 0x40 => legalMmul word ext
  | 0x48 =>
    let fmt := bitsOf word 41 4
    decide (bitsOf word 0 27 = 0) && decide (bitsOf word 37 3 ≤ 4)
      && (if bitOf word 40 then decide (fmt = 0) else decide (6 ≤ fmt) && decide (fmt ≤ 0xA))
  | 0x49 => decide (bitsOf word 0 32 = 0) && decide (bitsOf word 43 2 ≤ 2) && decide (bitsOf word 37 6 ≤ 48)
  | _ =>
    match vFormat op with
    | some .vr => legalVr op word ext
    | some .vc => legalVc word
    | some .vm => legalVm word
    | some .va => legalVa word
    | some .vrd => legalVrd op word
    | none => false

/-- The zero fields of the sequencer's own instructions, and the base of an LPA (R113). -/
def legalSeq (op word ext : Nat) : Bool :=
  match op with
  | 0x00 => decide (bitsOf word 0 56 = 0)
  | 0x01 => decide (bitsOf word 52 4 = 0)
  | 0x02 => decide (bitsOf word 20 36 = 0)
  | 0x03 => decide (bitsOf word 0 56 = 0)
  | 0x04 => decide (bitsOf word 0 50 = 0) && (bitOf word 50 || decide (bitsOf ext 48 16 = 0))
  | 0x05 => decide (bitsOf word 40 9 = 0)
  | 0x06 => decide (bitsOf word 40 11 = 0)
  | 0x07 => decide (bitsOf word 0 56 = 0)
  | _ => false

/-! ### Address generators (R74, R108, R109) -/

/-- The current iteration index of the open loop at a level, 0 where none is open. -/
def Tile.index (x : Tile) (l : Nat) : Int := (((x.loops[l]?).map (·.iter)).getD 0 : Nat)

/-- The address a generator gives (R74): an LPA or SRAM offset modulo 2^48, or a global address whose 40-bit offset takes
part in the sum. -/
def genAddr (x : Tile) (g : Nat) : Addr :=
  let a := Table.get {} x.gens g
  let d : Int := x.index 0 * signedOf 40 a.s0 + x.index 1 * signedOf 40 a.s1 + x.index 2 * signedOf 40 a.s2
    + x.index 3 * signedOf 40 a.s3
  if a.glb then ⟨a.base / 2 ^ 40 * 2 ^ 40 + wrapNat 40 ((a.base : Int) + d), true⟩
  else ⟨wrapNat 48 ((a.base : Int) + d), false⟩

/-- An operand an instruction names: its generator, the alignment asked of its address at dispatch (1: none), whether it
is local, and whether the form uses it. -/
structure Named where
  gen : Nat
  align : Nat
  loc : Bool
  used : Bool
  deriving DecidableEq, Repr

/-- The operands an instruction names, in the order of its layout. -/
def namedBy (op word ext : Nat) : List Named :=
  match op with
  | 0x20 => [⟨bitsOf word 41 5, 32, false, true⟩, ⟨bitsOf word 36 5, 32, true, true⟩]
  | 0x21 => [⟨bitsOf word 41 5, 32, true, true⟩, ⟨bitsOf word 36 5, 32, true, true⟩]
  | 0x30 => [⟨bitsOf word 41 5, 32, false, true⟩, ⟨bitsOf word 36 5, 32, true, true⟩]
  | 0x34 => [⟨bitsOf word 36 5, if bitOf word 41 then 8 else 4, false, true⟩]
  | 0x35 =>
    let a := if bitOf word 41 then 8 else 4
    [⟨bitsOf word 36 5, a, false, true⟩, ⟨bitsOf word 31 5, a, true, true⟩]
  | 0x40 =>
    let scales := decide (bitsOf word 33 2 ≠ 0)
    [⟨bitsOf ext 45 5, 32, true, true⟩, ⟨bitsOf ext 40 5, 32, true, true⟩, ⟨bitsOf ext 35 5, 32, true, scales⟩,
      ⟨bitsOf ext 30 5, 32, true, scales⟩, ⟨bitsOf ext 25 5, 32, true, decide (bitsOf word 43 2 = 2)⟩]
  | 0x48 => [⟨bitsOf word 32 5, 32, true, true⟩, ⟨bitsOf word 27 5, 1, true, decide (bitsOf word 37 3 = 4)⟩]
  | 0x49 => [⟨bitsOf word 32 5, 32, true, true⟩]
  | 0x88 => [⟨bitsOf word 8 5, 1, true, decide (bitsOf word 19 3 = 4)⟩]
  | 0xB0 => [⟨bitsOf word 32 5, 32, true, true⟩]
  | 0xB1 => [⟨bitsOf word 32 5, 32, true, true⟩]
  | _ => []

/-- A local operand whose generator marks a global address (R109). -/
def globalLocal (x : Tile) (ns : List Named) : Bool := ns.any (fun n => n.used && n.loc && (genAddr x n.gen).glb)

/-- The address of the first operand that breaks its alignment, if any (R118, R90, R122 to R124, R128, R130, R133). -/
def misaligned (x : Tile) (ns : List Named) : Option Nat :=
  (ns.find? (fun n => n.used && decide ((genAddr x n.gen).val % n.align ≠ 0))).map (fun n => (genAddr x n.gen).val)

end Sys2Proof.Machine
end

