-- ==== Sys2Proof/Machine/Hec.lean ====
section
/-! DEFINITION. The Crook engine's own operations (chapter 15): sessions, datagrams to the host, events, messages and their
results. -/

namespace Sys2Proof.Machine

/-! ### Sessions -/

/-- MAX_DATA, RTO in ticks, IDLE_TMO in ticks (HEC_CFG). -/
def State.maxData (s : State) : Nat := if s.bit .hecCfg 0 16 then 8192 else 1024
def State.rto (s : State) : Nat := ticksOfUs (s.field .hecCfg 0 0 18 14)
def State.idleTmo (s : State) : Nat := ticksPerSecond * s.field .hecCfg 0 0 32 16

def State.session (s : State) (slot : Nat) : Option Session := Table.get none s.hec.sessions slot

def State.setSession (s : State) (slot : Nat) (x : Option Session) : State :=
  { s with hec := { s.hec with sessions := Table.set none s.hec.sessions slot x } }

/-- Changes an open session. -/
def State.modSession (s : State) (slot : Nat) (f : Session → Session) : State :=
  match s.session slot with
  | some x => s.setSession slot (some (f x))
  | none => s

/-- The endpoint of the port that carries a link (Ethernet links). -/
def linkEp (link : Nat) : Nat := if link < 2 then 656 else 657

/-- The slot of the event sink. -/
def State.sink (s : State) : Option Nat :=
  if s.bit .hecSessStatus 0 20 then some (s.field .hecSessStatus 0 0 16 4) else none

/-- Something leaves on a link. -/
def State.transmit (s : State) (o : EthOut) : State := { s with hec := { s.hec with out := s.hec.out ++ [o] } }

/-- The MAC of a link as bytes in transmission order. -/
def macBytes (s : State) (k : Nat) : List Byte := bytesBE 6 (s.field .hecLinkStatus k 0 16 48)

/-- The link-local address formed by the modified EUI-64 rule (R358). -/
def linkLocal (mac : List Byte) : List Byte :=
  [0xFE, 0x80] ++ zeros 6 ++ [mac.getD 0 0 ^^^ 2] ++ slice mac 1 2 ++ [0xFF, 0xFE] ++ slice mac 3 3

/-- The addresses of a link: 4 bytes IPv4, 16 bytes IPv6. -/
def linkAddrs (s : State) (k : Nat) : List (List Byte) :=
  linkLocal (macBytes s k) :: Config.policyAddrs (s.section_ 6) k

/-- The 802.1Q tag of a link's frames, with the VLAN ID and the priority that the image sets; none where it sets no VLAN (R356). -/
def linkTag (s : State) (k : Nat) : List Byte :=
  match Config.policyVlan (s.section_ 6) k with
  | some id => [0x81, 0] ++ bytesBE 2 ((Config.policyPriority (s.section_ 6) k).toNat * 2 ^ 13 + id.toNat)
  | none => []

/-- The settings of a link (R358). -/
def State.linkSettings (s : State) (k : Nat) : LinkSettings :=
  { tag := linkTag s k, addrs := linkAddrs s k, gateways := Config.policyGateways (s.section_ 6) k,
    port := s.field .hecCfg 0 0 0 16 }

/-- A Crook datagram leaves on a link. -/
def State.sendDatagram (s : State) (link : Nat) (b : List Byte) : State := s.transmit (.datagram link (s.linkSettings link) b)

/-- A count of AUTH_FAIL (R361, R364, R403). -/
def authFail (s : State) : State := s.bump .hecSessStatus 0 32 16

/-! ### Datagrams to the host (R360, R361) -/

/-- The 32 header bytes. -/
def crookHeader (type num seq ackn sack len : Nat) : List Byte :=
  bytesOf 1 1 ++ bytesOf 1 type ++ zeros 2 ++ bytesOf 4 num ++ bytesOf 8 seq ++ bytesOf 8 ackn ++ bytesOf 4 sack
    ++ bytesOf 2 len ++ zeros 2

/-- SACK: bit k for datagram ACKN + 1 + k. -/
def Session.sack (x : Session) : Nat :=
  (List.range 32).foldl (fun m k => if x.early.any (fun e => decide (e.1 = x.ackn + 1 + k)) then m + 2 ^ k else m) 0

/-- The nonce of a datagram: direction, then SEQ (R361). -/
def crookNonce (dir seq : Nat) : List Byte := bytesOf 4 dir ++ bytesOf 8 seq

/-- A DATA or ACK datagram of the node. -/
def Session.datagram (x : Session) (type seq : Nat) (payload : List Byte) : List Byte :=
  let h := crookHeader type x.num seq x.ackn x.sack payload.length
  h ++ gcmSeal x.nodeKey (crookNonce 1 seq) h payload

/-- A handshake datagram: fragment index, count and handshake ID, then the fragment (R401). -/
def handshakeDatagram (type num index count hid : Nat) (body : List Byte) : List Byte :=
  crookHeader type num 0 0 0 (4 + body.length) ++ bytesOf 1 index ++ bytesOf 1 count ++ bytesOf 2 hid ++ body

/-- The close tag of a sender, 0 host and 1 node (R402). -/
def Session.closeTag (x : Session) (sender : Nat) : List Byte :=
  (hmac512 x.secret (ascii "close" ++ bytesOf 4 x.num ++ bytesOf 1 sender)).take 16

/-- An ACK datagram: it takes no SEQ of its own and carries the next one (log entry 26). -/
def sendAck (slot : Nat) (s : State) : State :=
  match s.session slot with
  | some x => s.sendDatagram x.link (x.datagram 0x11 x.seq [])
  | none => s

/-! ### The end of a session (R365) -/

/-- The event entries among riders. -/
def eventsOf (l : List (Option Rider)) : List Nat := l.filterMap (fun r => match r with
  | some (.event n) => some n
  | _ => none)

/-- Event entries that wait for a sink again. -/
def unsendEvents (nums : List Nat) (s : State) : State :=
  { s with hec := { s.hec with ring := s.hec.ring.map (fun e => if nums.elem e.num then { e with sent := false } else e) } }

/-- The events of a session that are not acknowledged wait for the next sink. -/
def requeueEvents (x : Session) (s : State) : State :=
  unsendEvents (eventsOf (x.unacked.map (·.rider)) ++ eventsOf (x.outbox.map (·.2))) s

/-- The RESULT of a RESET has been sent, or its session has ended before: the node resets from 100 µs after on (R365, R371). -/
def resetSent (s : State) : State :=
  { s with hec := { s.hec with resetAsked := false, resetAt := some (s.hec.resetAt.getD (s.now + ticksOfUs 100)) } }

/-- A session ends: its messages not begun go, its slot frees, and where it was the sink, unacknowledged SHEAR data fails
its destination (R370). -/
def endSession (slot : Nat) (s : State) : State :=
  match s.session slot with
  | none => s
  | some x =>
    let wasSink := decide (s.sink = some slot)
    let s := requeueEvents x (s.setSession slot none)
    let s := if x.outbox.any (fun p => decide (p.2 = some .reset)) then resetSent s else s
    if wasSink then
      let s := s.clearBit .hecSessStatus 0 20
      forEach [0, 1] (fun d s => if s.hec.shears.any (fun h => decide (h.1 = d)) then failDestination d s else s) s
    else s

/-- The node sends CLOSE and ends the session (R403). -/
def closeByNode (slot : Nat) (s : State) : State :=
  match s.session slot with
  | some x =>
    endSession slot (s.sendDatagram x.link (handshakeDatagram 0x04 x.num 0 1 0 (bytesOf 4 x.num ++ x.closeTag 1)))
  | none => s

/-- A payload leaves in the next DATA datagram, or waits while 256 are unacknowledged (R363). When SEQ reaches 2^32 the
session is closed (R403). -/
def sendPayload (slot : Nat) (payload : List Byte) (rider : Option Rider) (s : State) : State :=
  match s.session slot with
  | none => s
  | some x =>
    if 256 ≤ x.unacked.length then s.setSession slot (some { x with outbox := x.outbox ++ [(payload, rider)] })
    else
      let dg := x.datagram 0x10 x.seq payload
      let u : Unacked := { seq := x.seq, datagram := dg, sentAt := s.now, times := 1, rider := rider }
      let s := (s.setSession slot (some { x with seq := x.seq + 1, unacked := x.unacked ++ [u] })).sendDatagram x.link dg
      let s := if rider = some .reset then resetSent s else s
      if 2 ^ 32 ≤ x.seq + 1 then closeByNode slot s else s

/-- What waits goes out as far as there is room. -/
def flushOutbox : Nat → Nat → State → State
  | 0, _, s => s
  | n + 1, slot, s =>
    match s.session slot with
    | none => s
    | some x =>
      match x.outbox with
      | [] => s
      | (p, e) :: rest =>
        if 256 ≤ x.unacked.length then s
        else flushOutbox n slot (sendPayload slot p e (s.setSession slot (some { x with outbox := rest })))

/-! ### Events (R373) -/

/-- The 64 body bytes of an event. -/
def Event.body (e : Event) : List Byte :=
  bytesOf 8 e.num ++ bytesOf 8 e.time ++ bytesOf 2 e.code ++ bytesOf 2 e.ep ++ e.data

/-- The payload of a node-to-host message. -/
def hostMessage (op tag addr arg : Nat) (data : List Byte) : List Byte :=
  bytesOf 1 op ++ zeros 1 ++ bytesOf 2 tag ++ bytesOf 4 data.length ++ bytesOf 8 addr ++ bytesOf 8 arg ++ zeros 8 ++ data

/-- An event goes to the sink, where it has one: it counts as sent from then on. -/
def sendEvent (e : Event) (s : State) : State :=
  match s.sink with
  | none => s
  | some slot =>
    match s.session slot with
    | none => s
    | some _ =>
      let s := { s with hec := { s.hec with ring := s.hec.ring.map (fun x => if x.num = e.num then { x with sent := true } else x) } }
      sendPayload slot (hostMessage 0x83 0 0 0 e.body) (some (.event e.num)) s

/-- The events not yet sent go to the sink one by one, in number order; those left when it ends wait for the next. -/
def pumpEvents (s : State) : State := forEach (s.hec.ring.filter (fun e => !e.sent)) sendEvent s

/-- An entry of the ring frees; a count of lost events takes its place (R373). -/
def freeEvent (num : Nat) (s : State) : State :=
  let s := { s with hec := { s.hec with ring := s.hec.ring.filter (fun e => decide (e.num ≠ num)) } }
  let lost := s.field .hecEvtStatus 0 0 32 32
  if lost = 0 then s
  else (s.setField .hecEvtStatus 0 0 32 32 0).ringEvent 0x0002 656 (bytesOf 4 lost)

/-- Datagrams that ACKN or SACK covers are acknowledged (R362, R363): their events free, and what waits goes out. -/
def acknowledgeUpTo (slot ackn sack : Nat) (s : State) : State :=
  match s.session slot with
  | none => s
  | some x =>
    let covered (u : Unacked) : Bool :=
      decide (u.seq < ackn) || (decide (ackn < u.seq) && decide (u.seq ≤ ackn + 32) && bitOf sack (u.seq - ackn - 1))
    let done := x.unacked.filter covered
    let s := s.setSession slot (some { x with unacked := x.unacked.filter (fun u => !covered u) })
    let s := forEach (eventsOf (done.map (·.rider))) freeEvent s
    pumpEvents (flushOutbox (x.outbox.length + 1) slot s)

/-! ### Messages -/

/-- The message of a DATA payload; a payload shorter than a message header reads as if followed by zeros. -/
def parseMessage (payload : List Byte) : Message :=
  let h := natOf (padTo 32 payload |>.take 32)
  { op := bitsOf h 0 8, queue := bitsOf h 8 3, fence := bitOf h 11, tag := bitsOf h 16 16, addr := bitsOf h 64 64,
    arg := bitsOf h 128 64, step := bitsOf h 192 64, data := payload.drop 32 }

/-- Bytes that REGRD and REGWR move per register: 4 in the AIA frames, 8 elsewhere. -/
def regUnit (a : Nat) : Nat := if (aiaFrame a).isSome then 4 else 8

/-- Whether a range of register addresses lies in register space, aligned (R446). -/
def goodRegs (a n : Nat) : Bool :=
  decide (1 ≤ n) && decide (n ≤ 1024) && decide (a % regUnit a = 0) && decide (0xF0000000000 ≤ a)
    && decide (a + n * regUnit a ≤ 0xFD000000000)

/-- A tally word that a message may carry. -/
def goodTally (w : Nat) : Bool := legalTally w && decide (bitsOf w 62 2 ≠ 2)

/-- The layout of a message, by its operation (the host-to-node table, R446). -/
def goodMessage (m : Message) : Bool :=
  let n := m.data.length
  match m.op with
  | 0x01 => decide (m.addr % 32 = 0) && decide (m.arg ≤ 524288) && decide (m.addr + 32 * m.arg ≤ 2 ^ 48) && decide (m.addr < 2 ^ 48)
      && decide (n = 0)
  | 0x02 => decide (m.addr % 32 = 0) && decide (n % 32 = 0) && decide (m.addr < 2 ^ 48) && decide (m.addr + n ≤ 2 ^ 48)
      && goodTally m.arg
  | 0x03 => goodRegs m.addr m.arg && decide (n = 0)
  | 0x04 => goodRegs m.addr m.arg && decide (n = regUnit m.addr * m.arg)
  | 0x05 => decide (m.addr = 0) && goodTally m.arg && decide (n = 0)
  | 0x06 => decide (m.addr = 0) && decide (n = 0)
  | 0x07 => decide (m.addr % 1024 = 0) && decide (m.arg = 0) && decide (n % 1024 = 0)
  | 0x08 => decide (m.addr % 32 = 0) && decide (m.addr < 2 ^ 32) && decide (m.addr + 32 * m.arg ≤ 2 ^ 32) && decide (n = 0)
  | 0x09 => decide (m.addr < 0x4400000) && decide (m.arg ≤ 0x1000000) && decide (m.addr + m.arg ≤ 0x4400000) && decide (n = 0)
  | 0x0A => decide (m.addr % 0x10000 = 0) && decide (m.addr < 0x4400000) && decide (m.arg = 0) && decide (n = 0)
  | 0x0B => decide (m.addr % 256 = 0) && decide (m.addr < 0x4400000) && decide (m.addr + n ≤ 0x4400000) && decide (m.arg = 0)
      && decide (n % 256 = 0)
  | 0x0C => decide (m.addr = 0) && decide (m.arg = 0) && decide (n = 0)
  | 0x0D => decide (bitsOf m.arg 1 31 = 0) && decide (n = 0)
  | 0x0E => decide (m.addr = 0) && decide (m.arg = 0) && decide (n = 0)
  | _ => false

/-- CTRL[7:4] zero, LENGTH that of the data, at most MAX_DATA. -/
def goodHeader (s : State) (payload : List Byte) : Bool :=
  decide (32 ≤ payload.length) && decide (bitsOf (natOf (payload.take 32)) 12 4 = 0)
    && decide (bitsOf (natOf (payload.take 32)) 32 32 = payload.length - 32) && decide (payload.length - 32 ≤ s.maxData)

/-- Operations taken in FATAL_HOLD (R372). -/
def fatalOps : List Nat := [0x03, 0x08, 0x0C, 0x0E]

/-- A RESULT to a session. -/
def sendResultMsg (slot tag status code : Nat) (s : State) : State :=
  sendPayload slot (hostMessage 0x81 tag 0 (status + 256 * code) []) none s

/-- A message delivered in SEQ order (R362): answered at once where R372, its layout or R369 says so, else put into its
queue. A SHEAR_ACK has no reply. -/
def deliver (slot : Nat) (payload : List Byte) (s : State) : State :=
  let m := parseMessage payload
  if s.fatalHold ∧ fatalOps.elem m.op = false then sendResultMsg slot m.tag 5 0 s
  else if goodHeader s payload = false ∨ goodMessage m = false then sendResultMsg slot m.tag 3 0 s
  else if m.step ≠ 0 ∧ m.step ≤ s.stepNo then sendResultMsg slot m.tag 4 0 s
  else s.modSession slot (fun x => { x with queues := Table.modify [] x.queues m.queue (fun q => q ++ [m]) })

/-- Every waiting gated message that the step has passed is answered STEP_PAST (R369): after a restore or a job change. -/
def flushGated (s : State) : State :=
  forEach (s.hec.sessions.map (·.1)) (fun slot s =>
    match s.session slot with
    | none => s
    | some x =>
      let past (m : Message) : Bool := decide (m.step ≠ 0) && decide (m.step ≤ s.stepNo)
      let gone := (x.queues.flatMap (·.2)).filter past
      let qs := x.queues.filterMap (fun q =>
        let l := q.2.filter (fun m => !past m)
        if l.isEmpty then none else some (q.1, l))
      forEach gone (fun m s => sendResultMsg slot m.tag 4 0 s) (s.setSession slot (some { x with queues := qs }))) s

/-! ### Execution of messages -/

def State.exec? (s : State) (x : Nat) : Option Exec := Table.get none s.hec.execs x

def State.setExec (s : State) (x : Nat) (e : Option Exec) : State :=
  { s with hec := { s.hec with execs := Table.set none s.hec.execs x e } }

/-- A message begins to execute: the next execution number. -/
def beginExec (e : Exec) (s : State) : State :=
  let s := s.setExec s.hec.nextExec (some e)
  { s with hec := { s.hec with nextExec := s.hec.nextExec + 1 } }

/-- Whether the session of an execution is still the one in its slot. -/
def stillOpen (s : State) (e : Exec) : Bool :=
  match s.session e.slot with
  | some x => decide (x.num = e.num)
  | none => false

/-- Data in whole chunks of MAX_DATA except the last. -/
def sendReadData (slot tag addr : Nat) (data : List Byte) (s : State) : State :=
  let n := s.maxData
  forEach (chunksOf n (data.length / n + 1) data).zipIdx
    (fun c s => sendPayload slot (hostMessage 0x82 tag (addr + n * c.2) 0 c.1) none s) s

/-- The pieces of a read joined in ascending offset. -/
def joined (got : List (Nat × List Byte)) : List Byte :=
  let t : Table (List Byte) := got.foldl (fun t g => Table.set [] t g.1 g.2) []
  t.flatMap (·.2)

/-- Operations whose results carry data. -/
def readsData (op : Nat) : Bool := [0x01, 0x03, 0x08, 0x09].elem op

/-- The execution ends: its data and its RESULT, unless its session has gone (R365, R366, R446). -/
def endExec (x : Nat) (e : Exec) (s : State) : State :=
  let s := s.setExec x none
  if stillOpen s e = false then s else
  let s := if readsData e.msg.op then sendReadData e.slot e.msg.tag e.msg.addr (joined e.got) s else s
  match e.fail with
  | some f => sendResultMsg e.slot e.msg.tag 1 f.2 s
  | none => sendResultMsg e.slot e.msg.tag 0 0 s

/-- Whether a message carries a credit (R366). -/
def Message.credits (m : Message) : Bool := (decide (m.op = 0x02) || decide (m.op = 0x05)) && carriesCredit m.arg

/-- The endpoint of an execution's session: that of the link's port. -/
def execEp (s : State) (e : Exec) : Nat :=
  match s.session e.slot with
  | some x => if x.num = e.num then linkEp x.link else 656
  | none => 656

/-- An execution with nothing awaited sends its credit, once, or ends (R100, R101, R367). -/
def advanceExec (ep x : Nat) (s : State) : State :=
  match s.exec? x with
  | none => s
  | some e =>
    if e.left ≠ 0 then s
    else if e.msg.credits ∧ e.crediting = false then
      let s := s.setExec x (some { e with crediting := true, left := 1 })
      s.send ep (.hecCredit x) (creditPacket none (bitsOf e.msg.arg 29 17) (bitsOf e.msg.arg 0 16) e.fail.isSome)
    else endExec x e s

/-- The failure of lowest address (R446). -/
def lowerFail (old : Option (Nat × Nat)) (off code : Nat) : Option (Nat × Nat) :=
  match old with
  | some f => if f.1 ≤ off then some f else some (off, code)
  | none => some (off, code)

/-- A piece of an execution answered: with data, or with an ERR code. -/
def pieceAnswered (ep x off : Nat) (code : Nat) (data : Option (List Byte)) (s : State) : State :=
  match s.exec? x with
  | none => s
  | some e =>
    let e := { e with left := e.left - 1, fail := if code = 0 then e.fail else lowerFail e.fail off code,
                      got := match data with
                        | some d => e.got ++ [(off, d)]
                        | none => e.got }
    advanceExec ep x (s.setExec x (some e))

end Sys2Proof.Machine
end

