-- ==== Sys2Proof/Machine/Target.lean ====
section
/-! DEFINITION. What an endpoint does with a request: reads, writes and posted atomics at memory ports, tiles, commons and
engine memories (R206 to R212, R34, R70, R93), credits (R225), and the hub's arrivals, releases and time messages
(R233 to R245), with the meanings of their commands. -/

namespace Sys2Proof.Machine

/-- An earlier request at the same endpoint, waiting or held, touches a sector of this one (R206, R220). -/
def behindOthers (s : State) (n : Nat) (a : Arrival) : Bool :=
  (s.delivered.take n).any (fun b => decide (b.ep = a.ep) && touches a.pkt b.pkt)
    || s.heldWrites.any (fun h => decide (h.arr.ep = a.ep) && touches a.pkt h.arr.pkt && !passesHeld a.pkt.opcode)

/-- Whether a write or atomic is one that R220 holds: to a marked page, with a sector that is not penned. -/
def isHeld (s : State) (a : Arrival) : Bool :=
  let p := a.pkt
  (decide (p.opcode = opWR) || decide (p.opcode = opATOM)) && decide (p.offset < 0x8000000000)
    && s.marked (p.offset / 0x10000)
    && (List.range p.sectors).any (fun i => !s.pcPenned (s.pcOf (p.offset + 32 * i)).1)

/-- Memory port of an endpoint. -/
def portOf (ep : Nat) : Nat := ep - 576

/-- Whether a request would be served if its turn came: nothing before it touches its sectors, no calibration closes their
stack, and no side buffer that is full keeps it waiting (R206, R214, R220). -/
def readyAtPort (s : State) (n : Nat) (a : Arrival) : Bool :=
  !behindOthers s n a && !stackBusy s a.pkt.offset a.pkt.sectors
    && !(isHeld s a && decide (32 ≤ heldAt s (portOf a.ep)))

/-- A request of class SNAP waits while one of class REQ for a pseudo-channel of its own is ready (R218). -/
def yieldsToReq (s : State) (a : Arrival) : Bool :=
  decide (a.pkt.cls = clsSNAP) && s.delivered.zipIdx.any (fun e =>
    decide (e.1.ep = a.ep) && decide (e.1.pkt.cls = clsREQ) && addressOp e.1.pkt.opcode
      && (channelsOf s e.1.pkt.offset e.1.pkt.sectors).any (fun c => (channelsOf s a.pkt.offset a.pkt.sectors).elem c)
      && readyAtPort s e.2 e.1)

/-- Whether an addressed request must wait at its endpoint: behind earlier requests to its sectors, for its stack's
calibration, or for class REQ (R206, R214, R218). -/
def mustWait (s : State) (n : Nat) (a : Arrival) : Bool :=
  behindOthers s n a || stackBusy s a.pkt.offset a.pkt.sectors || yieldsToReq s a

/-- Takes an arrival out of the list of waiting ones. -/
def taken (n : Nat) (s : State) : State :=
  match s.delivered[n]? with
  | some a => (noteQueue a.ep { s with delivered := dropAt s.delivered n }).releaseHeld
  | none => s

/-- Serves the arrival at a position when it has an opcode and may go on: a malformed request is answered BAD_PACKET
(R191), a request to a penned or not enabled tile PENNED (R196), unless it had entered the tile's port before (R195). -/
def serve (n op : Nat) (f : Arrival → State → State) (s : State) : State :=
  match s.delivered[n]? with
  | some a =>
    if a.pkt.opcode ≠ op ∨ a.pkt.cls = clsRSP ∨ (addressOp op ∧ mustWait s n a) then s
    else if a.ep < 576 ∧ s.tileOn a.ep = false ∧ a.inPort = false then refuse a errPENNED (taken n s)
    else if wellFormedPacket a.pkt = false then refuse a errBAD_PACKET (taken n s)
    else f a (taken n s)
  | none => s

/-! ### Dirty lines met by other agents (R284) -/

/-- A dirty line that another agent's access meets: whether the written bytes of each of its sectors had gone back to memory by now
is a free choice of its own. A sector of a marked page cannot have (R220). -/
def settleLine (k : Nat) (s : State) : State :=
  match Table.get none s.lines k with
  | some l =>
    let went (i : Nat) : Bool := bitOf (Config.freeNat s.freeCtr) i && decide (l.wrote i ≠ 0) && !s.marked (k / 1024)
    if l.bad then (if went 0 || went 1 then meetBadLine k l s else s).fresh
    else
      let left (i : Nat) : Nat := if went i then 0 else l.wrote i * 2 ^ (32 * i)
      let s := { s with lines := Table.set none s.lines k (some { l with mask := left 0 + left 1 }) }
      State.fresh (forEach ([0, 1].filter went) (fun i s =>
        let a := 64 * k + 32 * i
        let code := s.sectorDenied a
        if code ≠ 0 then s.postLocal l.writer a code
        else s.writeSectorMem a (s.mergedSector a (slice l.data (32 * i) 32) (l.wrote i))) s)
  | none => s

/-- The dirty lines that stacked-memory sectors from an address up lie in. -/
def settleLines (base n : Nat) (s : State) : State :=
  if s.lines.isEmpty then s else
  forEach (s.linesWhere (fun k l => l.dirty && decide (base < 64 * (k + 1)) && decide (64 * k < base + 32 * n))) settleLine s

/-! ### Reads -/

/-- Whether a whole range lies where the endpoint serves it. -/
def heldBy (s : State) (ep base n : Nat) : Bool :=
  decide (s.epOf base = some ep) && decide (s.epOf (base + 32 * Nat.max 1 n - 1) = some ep)

/-- Access of a job to the checkpoint reserve or to the dump area is denied (R12, R339). -/
def reserveDenied (s : State) (p : Packet) : Bool :=
  decide (p.jid ≠ 0) && (s.inReserve p.offset || decide (placeOf p.offset = .dump))

/-- The answer to a request whose range its endpoint does not hold: UNMAPPED where a byte of it lies outside the populated
ranges (R11, R87), else BAD_PACKET. -/
def notHeldCode (base n : Nat) : Nat := if unpopulated base (32 * n) then errUNMAPPED else errBAD_PACKET

/-- A read served (R208): one RDATA with every sector, one ERR, or DECLINE for a prefetch, which leaves no trace (R84, R85). -/
def serveRead (ce ue : List Nat) (a : Arrival) (s : State) : State :=
  let p := a.pkt
  let base := p.offset
  if heldBy s a.ep base p.nsect = false then refuse a (notHeldCode base p.nsect) s
  else if reserveDenied s p then refuse a errJOB_DENIED s
  else if base < 0x8000000000 then
    let s := settleLines base p.nsect s
    let s := strike ce ue base p.nsect (if p.pf then s else repeatCommand ce base s)
    let code := pieceCode s base p.nsect
    let t := if p.pf then s else scanPiece base p.nsect s
    if code ≠ 0 then refuse a code t else respond a opRDATA 0 (s.readMem base (32 * p.nsect)) t
  else
    let s := strikeDie ue base p.nsect s
    let code := sramCode s base p.nsect
    let t := if p.pf then s else sramMet base p.nsect a.ep s
    if code ≠ 0 then refuse a code t else respond a opRDATA 0 (s.readMem base (32 * p.nsect)) t

/-- RD (R208). -/
def execRd (n : Nat) (ce ue : List Nat) (s : State) : Host.Outcome State Fault Refusal :=
  .next (serve n opRD (serveRead ce ue) s)

/-- SNRD (R221). -/
def execSnrd (n : Nat) (ce ue : List Nat) (s : State) : Host.Outcome State Fault Refusal :=
  .next (serve n opSNRD (serveRead ce ue) s)

/-! ### Writes -/

/-- The sectors of a write stored into stacked memory: a penned channel's sector is not written, a poisoned one is stored
as poison (R211, R222). -/
def storeSectors (base : Nat) (poison : List Nat) (b : List Byte) (n : Nat) (s : State) : State :=
  forEach (List.range n) (fun i s =>
    let lpa := base + 32 * i
    let pc := (s.pcOf lpa).1
    if s.pcPenned pc then s
    else if poison.elem i then storePoisoned lpa s
    else s.writeSectorMem lpa (slice b (32 * i) 32)) s

/-- The data of a write to an SRAM, with poison sectors where the fabric marked them (R197, R273). The code in such a
sector is not stated: a free value (log entry 2). -/
def withPoison (s : State) (poison : List Nat) (b : List Byte) (n : Nat) : List Byte :=
  if poison.isEmpty then b else
  (List.range n).flatMap (fun i => if poison.elem i then poisonSectors (Config.freeNat (128 * s.freeCtr + i) % 128) 1 else slice b (32 * i) 32)

/-- What names a copy at its sender, where its credit goes to a tally of tile `t` of this node, or the request is that credit (R100,
R324, R329, R366). -/
def copyKey (s : State) (t : Nat) : Purpose → Option Nat
  | .tileStore u disp =>
    if (s.tile u).stores.any (fun w => decide (w.disp = disp) && decide (w.credit ≠ 0)
        && decide (w.node.getD s.nodeId = s.nodeId) && decide (tallyEp w.tally = t)) then some disp else none
  | .tileCredit _ disp => some disp
  | .marWrite e num =>
    ((s.engine e).results.find? (fun w => decide (w.num = num) && here w.tally)).map (fun w => (64 * w.cmd + w.sys) * 16 + 5)
  | .marCopyWrite e => ((s.engine e).copy.filter (fun c => here c.tally)).map (fun _ => 64 * (s.engine e).cmd * 16 + 7)
  | .marCredit _ bit cmd sys => some ((64 * cmd + sys) * 16 + bit)
  | .hecWrite x _ => if (Table.get none s.hec.execs x).any (fun e => here e.msg.arg) then some x else none
  | .hecCredit x => some x
  | _ => none
where
  here (w : Nat) : Bool := carriesCredit w && decide ((tallyNode w).getD s.nodeId = s.nodeId) && decide (tallyEp (bitsOf w 29 17) = t)

/-- The copy that a request at tile `t` is a part of: by the record of its sender in this node. -/
def copyOf (s : State) (t : Nat) (p : Packet) : Option Nat :=
  (s.requests.find? (fun r => decide (r.ep = p.srcEp) && decide (r.seq = p.seq))).bind (fun r => copyKey s t r.purpose)

/-- Whether a sector of a range carries the tag of another writer. -/
def taggedByOther (s : State) (t sec n writer : Nat) : Bool :=
  (List.range n).any (fun i => match Table.get none (s.tile t).tags (sec + i) with
    | some w => decide (w ≠ writer)
    | none => false)

/-- A write that meets a WRITE_CONFLICT marks its copy, whose credit is to be applied with the error bit (R35, log entry 49): a
copy of this node by its sender's count, one of another node by the SEQ of the write. -/
def markConflict (t : Nat) (p : Packet) (s : State) : State :=
  let w := writerOf p.srcNode p.srcEp
  match if p.srcNode = s.nodeId then copyOf s t p else some p.seq with
  | some k => s.modTile t (fun x => { x with conflicts := if x.conflicts.elem (w, k) then x.conflicts else x.conflicts ++ [(w, k)] })
  | none => s

/-- A write to a tile's SRAM: PROG_LOCKED in the program region of a tile that runs or halted (R70); else every sector
with its tag (R34, R35). -/
def writeTile (t off : Nat) (a : Arrival) (s : State) : State :=
  let p := a.pkt
  let sec := off / 32
  let s := aheadOfRelease t s
  if (s.tile t).state ≠ .idle ∧ (List.range p.nsect).any (fun i => inProgram s t (sec + i)) then refuse a errPROG_LOCKED s
  else
    let b := withPoison s p.poison p.data p.nsect
    let s := if p.poison.isEmpty then s else s.fresh
    let s := if taggedByOther s t sec p.nsect (writerOf p.srcNode p.srcEp) then markConflict t p s else s
    acknowledge a (writeSectors t sec (writerOf p.srcNode p.srcEp) b p.nsect s)

/-- A write or atomic that a marked page holds (R220): it goes to the side buffer, and the page's copy is asked for. -/
def holdWrite (a : Arrival) (s : State) : State :=
  let page := a.pkt.offset / 0x10000
  let rq := s.ckp.copyRequests
  { s with
    heldWrites := s.heldWrites ++ [{ port := portOf a.ep, arr := a }],
    ckp := { s.ckp with copyRequests := if rq.elem page then rq else rq ++ [page] } }

/-- A narrow write made whole with the bytes its sector holds (log entry 29), and a write-back with those that no core wrote. -/
def widened (a : Arrival) (s : State) : Arrival :=
  let p := a.pkt
  if p.opcode = opWR ∧ p.narrow then
    let sec := p.offset / 32 * 32
    let old := s.readMem sec 32
    { a with pkt := { p with offset := sec, data := old.take (p.offset - sec) ++ p.data ++ old.drop (p.offset - sec + p.data.length) } }
  else if p.opcode = opWR ∧ p.keep ≠ 0 then
    { a with pkt := { p with data := s.mergedSector p.offset p.data (2 ^ 32 - 1 - p.keep) } }
  else a

/-- The code of a narrow write to a sector that is stored poison or uncorrectable, which only a whole write replaces (R211), or of
one to a tile or engine whose sector has a double-bit error (R410); else 0. A penned pseudo-channel answers first (R222). -/
def narrowCode (a : Arrival) (s : State) : Nat :=
  let lpa := a.pkt.offset / 32 * 32
  if a.pkt.opcode = opWR ∧ a.pkt.narrow ∧ (s.poisoned lpa ∨ 2 ≤ s.wrongAt lpa)
    ∧ ¬ (lpa < 0x8000000000 ∧ s.pcPenned (s.pcOf lpa).1) then (if lpa < 0x8000000000 then errMEM_UE else sramCode s lpa 1) else 0

/-- What a write of a part of a sector leaves of its reading it. -/
def narrowRead (a : Arrival) (s : State) : State :=
  let lpa := a.pkt.offset / 32 * 32
  if a.pkt.opcode = opWR ∧ a.pkt.narrow then (if lpa < 0x8000000000 then scanPiece lpa 1 s else sramMet lpa 1 a.ep s) else s

/-- A write served (R206, R211, R220, R222). -/
def serveWrite (a : Arrival) (s : State) : State :=
  let base := a.pkt.offset / 32 * 32
  let n := a.pkt.nsect
  if heldBy s a.ep base n = false then refuse a (notHeldCode base n) s
  else if reserveDenied s a.pkt then refuse a errJOB_DENIED s
  else
    let s := if base < 0x8000000000 then settleLines base n s else s
    let code := narrowCode a s
    let t := narrowRead a s
    if code ≠ 0 then refuse a code t else
    let a := widened a s
    let p := a.pkt
    match placeOf base with
    | .sram k off => writeTile k off a t
    | .engineMem e _ =>
      if s.enginePenned e then refuse a errPENNED s
      else acknowledge a ((t.writeMem base (withPoison s p.poison p.data n)).goodFrom base n).fresh
    | .commons =>
      let t := forEach (List.range n) (fun i s =>
        if p.poison.elem i then storePoison (base + 32 * i) s
        else s.writeSectorMem (base + 32 * i) (slice p.data (32 * i) 32)) t
      acknowledge a t
    | _ =>
      let penned := (List.range n).any (fun i => s.pcPenned (s.pcOf (base + 32 * i)).1)
      let t := storeSectors base p.poison p.data n t
      if penned then refuse a errMEM_PENNED t else acknowledge a t

/-- Serves a write or atomic unless its page holds it; while the port's side buffer is full it waits (R220). -/
def serveUnlessHeld (n op : Nat) (f : Arrival → State → State) (s : State) : State :=
  match s.delivered[n]? with
  | some a =>
    if a.pkt.opcode = op ∧ isHeld s a ∧ ¬ reserveDenied s a.pkt ∧ wellFormedPacket a.pkt ∧ 32 ≤ heldAt s (portOf a.ep) then s
    else serve n op (fun a s =>
      if isHeld s a ∧ ¬ reserveDenied s a.pkt then holdWrite a s else f a s) s
  | none => s

/-- WR (R206). -/
def execWr (n : Nat) (s : State) : Host.Outcome State Fault Refusal := .next (serveUnlessHeld n opWR serveWrite s)

/-! ### Posted atomics (R119, R207) -/

/-- The operation of a posted atomic on a word of 32 or 64 bits. -/
def atomicWord (op : Nat) (sgn : Bool) (w old x : Nat) : Nat :=
  let less := if sgn then decide (signedOf w old < signedOf w x) else decide (old < x)
  match op with
  | 0 => (old + x) % 2 ^ w
  | 1 => old &&& x
  | 2 => old ||| x
  | 3 => old ^^^ x
  | 4 => if less then old else x
  | _ => if less then x else old

/-- The word of memory after an atomic with STATUS and operand bytes. -/
def applyAtomic (a status : Nat) (operand : List Byte) (s : State) : State :=
  let w := if bitOf status 4 then 8 else 4
  let old := natOf (s.readMem a w)
  let x := natOf (operand.take w)
  s.writeMem a (bytesOf w (atomicWord (status % 8) (bitOf status 3) (8 * w) old x))

/-- The operand of an atomic as its target takes it: one that the fabric marked poisoned reads as a poison sector (R197,
R273), its code a free value (log entry 2). -/
def operandOf (s : State) (p : Packet) : List Byte := withPoison s p.poison p.data 1

/-- An atomic on a word of stacked memory: one read-modify-write of its sector with ECC (R207): the ERR code or 0, with what it
leaves. -/
def atomicStacked (a status : Nat) (operand : List Byte) (s : State) : State × Nat :=
  let sec := a / 32 * 32
  let code := pieceCode s sec 1
  let s := scanPiece sec 1 s
  if code ≠ 0 then (s, code) else (applyAtomic a status operand s, 0)

/-- An atomic on a word of an engine's memory or of commons SRAM (R207, R410). -/
def atomicDie (ue : List Nat) (a : Arrival) (operand : List Byte) (s : State) : State :=
  let p := a.pkt
  let sec := p.offset / 32 * 32
  let s := strikeDie ue sec 1 s
  let code := sramCode s sec 1
  let s := sramMet sec 1 a.ep s
  if code ≠ 0 then refuse a code s else acknowledge a (applyAtomic p.offset p.status operand s)

/-- An atomic served (R93, R207). -/
def serveAtomic (ce ue : List Nat) (a : Arrival) (s : State) : State :=
  let p := a.pkt
  let sec := p.offset / 32 * 32
  let operand := operandOf s p
  let s := if p.poison.isEmpty then s else s.fresh
  if heldBy s a.ep sec 1 = false then refuse a (notHeldCode sec 1) s
  else if reserveDenied s p then refuse a errJOB_DENIED s
  else match placeOf p.offset with
    | .sram _ _ => refuse a errATOM_DENIED s
    | .engineMem _ _ => atomicDie ue a operand s
    | .commons => atomicDie ue a operand s
    | _ =>
      let r := atomicStacked p.offset p.status operand (strike ce ue sec 1 (repeatCommand ce sec (settleLines sec 1 s)))
      if r.2 ≠ 0 then refuse a r.2 r.1 else acknowledge a r.1

/-- ATOM (R207). -/
def execAtom (n : Nat) (ce ue : List Nat) (s : State) : Host.Outcome State Fault Refusal :=
  .next (serveUnlessHeld n opATOM (serveAtomic ce ue) s)

/-! ### Credits (R225, R229) -/

/-- Whether a mark of a conflict is of the copy that a credit at the tile ends: by the count of a sender in this node; of another
node's copies, which one a credit belongs to is a free choice (R35, log entry 49). -/
def settles (s : State) (a : Arrival) (c : Nat × Nat) : Bool :=
  let p := a.pkt
  decide (c.1 = writerOf p.srcNode p.srcEp)
    && (if p.srcNode = s.nodeId then decide (copyOf s a.ep p = some c.2) else Config.copyCredit c.1 c.2 p.seq)

/-- Whether a credit at a tile is that of a copy with a write that met a WRITE_CONFLICT there, and the tile once it has come. -/
def conflictCredit (a : Arrival) (s : State) : Bool :=
  decide (a.ep < 576) && decide (a.pkt.credit ≠ 0) && (s.tile a.ep).conflicts.any (settles s a)

def conflictSettled (a : Arrival) (s : State) : State :=
  if conflictCredit a s then s.modTile a.ep (fun x => { x with conflicts := x.conflicts.filter (fun c => !settles s a c) }) else s

/-- CREDIT at the tally's owner. -/
def serveCredit (a : Arrival) (s : State) : State :=
  let i := a.pkt.tally
  if tallyEp i ≠ a.ep ∨ 131072 ≤ i then refuse a errBAD_PACKET s
  else if s.tallyOwnerOff i ∧ a.inPort = false then refuse a errPENNED s
  else acknowledge a ((conflictSettled a s).applyCredit i a.pkt.credit (a.pkt.terr || conflictCredit a s))

def execCredit (n : Nat) (s : State) : Host.Outcome State Fault Refusal := .next (serve n opCREDIT serveCredit s)

/-! ### The hub (R230 to R238) -/

/-- The agent index an ARRIVE names (R230): none for a sender that never arrives. -/
def arrivingAgent (p : Packet) : Option Nat :=
  let c := bitsOf p.tally 10 6
  if p.srcEp < 576 then some p.srcEp
  else if 608 ≤ p.srcEp ∧ p.srcEp < 624 ∧ p.srcEp = 608 + c % 16 then some (576 + c)
  else if 624 ≤ p.srcEp ∧ p.srcEp < 640 then some (640 + (p.srcEp - 624))
  else none

/-- An arrival accepted by the hub (R233). -/
def acceptArrival (h agent : Nat) (s : State) : State :=
  progressHurdle h (s.setHurdle h { s.hurdle h with arrived := (s.hurdle h).arrived ++ [agent] })

/-- ARRIVE at the hub (R233). -/
def serveArrive (a : Arrival) (s : State) : State :=
  let h := a.pkt.tally % 1024
  let extra := a.pkt.tally / 1024
  let core := decide (608 ≤ a.pkt.srcEp) && decide (a.pkt.srcEp < 624)
  if a.ep ≠ 659 ∨ 64 ≤ extra ∨ (extra ≠ 0 ∧ core = false) then refuse a errBAD_PACKET s
  else match arrivingAgent a.pkt with
    | some g =>
      if s.armed h ∧ s.inMap h g ∧ (s.hurdle h).arrived.elem g = false then acknowledge a (acceptArrival h g s)
      else refuse a errSYNC_REFUSED s
    | none => refuse a errSYNC_REFUSED s

def execArrive (n : Nat) (s : State) : Host.Outcome State Fault Refusal := .next (serve n opARRIVE serveArrive s)

/-- A refused node message: kinds 2 to 4 raise HURDLE_ROUND (R235). -/
def refuseRound (a : Arrival) (h : Nat) (raise : Bool) (s : State) : State :=
  let s := refuse a errSYNC_REFUSED s
  if raise then s.hurdleEvent h 1 else s

/-- NODE_ARRIVE at the parent (R234, R235). -/
def serveNodeArrive (a : Arrival) (s : State) : State :=
  let h := a.pkt.tally
  let x := s.hurdle h
  if a.ep ≠ 659 ∨ 1024 ≤ h ∨ 65536 ≤ a.pkt.credit then refuse a errBAD_PACKET s
  else if ¬ s.armed h ∨ ¬ s.xnode h then refuseRound a h false s
  else if a.pkt.credit ≠ x.round % 65536 then refuseRound a h true s
  else if s.children.elem a.pkt.srcNode = false ∨ x.children.elem a.pkt.srcNode then refuseRound a h true s
  else acknowledge a (progressHurdle h (s.setHurdle h { x with children := x.children ++ [a.pkt.srcNode] }))

def execNodeArrive (n : Nat) (s : State) : Host.Outcome State Fault Refusal :=
  .next (serve n opNODE_ARRIVE serveNodeArrive s)

/-- The 64-bit value nearest a time that has the received low 48 bits (R242). -/
def nearestTime (time low : Nat) : Nat :=
  let base := time / 2 ^ 48 * 2 ^ 48 + low
  let far (x y : Nat) : Nat := if x ≤ y then y - x else x - y
  let up := base + 2 ^ 48
  let down := base - 2 ^ 48
  if far up time < far base time then up % 2 ^ 64
  else if 2 ^ 48 ≤ base ∧ far down time < far base time then down
  else base

/-- An accepted NODE_RELEASE (R236, R238): forwarded, and late where the timebase is past T_release − 128. -/
def acceptRelease (h trel : Nat) (s : State) : State :=
  let s := forwardRelease h trel s
  let x := s.hurdle h
  if trel < s.time + 128 then
    let at_ := roundUp256 (s.time + 128)
    ((s.setHurdle h { x with trel := some trel, relAt := at_, late := true }).noteRaised (regAddr .synHstat h) (2 ^ 44)).hurdleEvent h 0
  else s.setHurdle h { x with trel := some trel, relAt := trel }

/-- NODE_RELEASE from the parent (R235, R236). -/
def serveNodeRelease (a : Arrival) (s : State) : State :=
  let h := a.pkt.tally
  let x := s.hurdle h
  if a.ep ≠ 659 ∨ 1024 ≤ h ∨ 65536 ≤ a.pkt.credit then refuse a errBAD_PACKET s
  else if ¬ s.armed h ∨ ¬ s.xnode h then refuseRound a h false s
  else if a.pkt.credit ≠ x.round % 65536 then refuseRound a h true s
  else if s.isRoot ∨ a.pkt.srcNode ≠ s.parent ∨ x.sent = false ∨ x.trel.isSome then refuseRound a h true s
  else acknowledge a (acceptRelease h (nearestTime s.time a.pkt.offset) s)

def execNodeRelease (n : Nat) (s : State) : Host.Outcome State Fault Refusal :=
  .next (serve n opNODE_RELEASE serveNodeRelease s)

/-- NODE_ARRIVE_RESEND (R235): a refused NODE_ARRIVE goes out again 4,096 ticks later, while the hurdle stays armed. -/
def resendDue (h : Nat) (s : State) : Bool :=
  s.armed h && decide (h < 1024) && (s.hurdle h).trel.isNone && !s.akm.frozen
    && (match (s.hurdle h).resend with
        | some t => decide (t ≤ s.now)
        | none => false)

def execNodeArriveResend (h : Nat) (s : State) : Host.Outcome State Fault Refusal :=
  act (resendDue h s && !s.akm.frozen) (sendNodeArrive h) s

/-! ### Time messages (R245) -/

/-- TIME_REQ at the bellwether: answered at once, with t1, with t2 as the port stamped it on receipt (for a request that came by no
port, now), and with a t3 that the port stamps anew as the answer leaves (R279). -/
def serveTimeReq (a : Arrival) (s : State) : State :=
  if a.ep ≠ 659 then refuse a errBAD_PACKET s else
  let p := a.pkt
  let d := operandOf s p
  let rsp : Packet := { opcode := opTIME_RSP, cls := clsSYNC, dstEp := p.srcEp, srcEp := 659, dstNode := p.srcNode,
                        srcNode := s.nodeId, jid := p.jid, seq := p.seq, nsect := 1,
                        data := padTo 32 (d.take 8 ++ (if a.via.isSome then slice d 8 8 else bytesOf 8 (eighths s))
                          ++ bytesOf 8 (eighths s)) }
  (if p.poison.isEmpty then s else s.fresh).inject (homeStop 659) rsp false a.via

def execTimeReq (n : Nat) (s : State) : Host.Outcome State Fault Refusal := .next (serve n opTIME_REQ serveTimeReq s)

/-- TIME_RSP at the node that asked, with t4 as the port stamped it (R279). One that answers no outstanding request is
discarded. -/
def serveTimeRsp (a : Arrival) (s : State) : State :=
  let mine (r : Request) : Bool := decide (r.purpose = .timeReq) && decide (r.seq = a.pkt.seq)
  if s.requests.any mine ∧ s.tstate.t1.isSome then
    let s := { s with requests := s.requests.filter (fun r => !mine r) }
    let d := operandOf s a.pkt
    let s := if a.pkt.poison.isEmpty then s else s.fresh
    let t4 := natOf (slice d 24 8)
    finishExchange (natOf (slice d 0 8)) (natOf (slice d 8 8)) (natOf (slice d 16 8))
      (if t4 = 0 then eighths s else t4) s
  else discardResponse 659 s

def execTimeRsp (n : Nat) (s : State) : Host.Outcome State Fault Refusal := .next (serve n opTIME_RSP serveTimeRsp s)

end Sys2Proof.Machine
end

