-- ==== Sys2Proof/Machine/Holtim.lean ====
section
/-! DEFINITION. The Holtim ports (chapter 11): packets to and from bytes (R187), frames (R251), ASSIGN (R258), the link's
ups and downs (R255, R256, R262), arriving requests and responses (R264 to R271), timeouts (R270), saturation (R276), and
the commits of the planes and windows. -/

namespace Sys2Proof.Machine

/-! ### Errors of the ports -/

/-- Sets a bit of HFI_ERR_STATUS, with the first-error record. -/
def hfiError (bit code node : Nat) (s : State) : State :=
  let s := if s.field .hfiErrStatus 0 0 0 6 = 0 then
      (s.setField .hfiErrStatus 0 0 16 6 code).setField .hfiErrStatus 0 0 22 16 node
    else s
  s.raiseBit .hfiErrStatus 0 bit

/-! ### The sending end of a port (R250 to R255) -/

/-- The key of a packet's link VC and source in the rotation of R253 (the order of keys is a DESIGN CHOICE, log entry 7). -/
def turnKey (p : Packet) : Nat := (if linkLevel p then 1024 else 0) + p.srcEp % 1024

/-- The place in `out` of the packet a port sends next: of the highest class that has one ready and the credits for its flits, the oldest
of the source and link VC whose turn it is (R253, R261). -/
def nextToSend (x : Port) : Option Nat :=
  let ready (c : Nat) (e : Packet × Nat) : Bool :=
    decide (e.1.cls = c) && x.mayBegin e.1
      && !((x.out.take e.2).any (fun q => decide (q.cls = c) && decide (turnKey q = turnKey e.1)))
  (List.range 4).findSome? (fun c =>
    let l := x.out.zipIdx.filter (ready c)
    let far (e : Packet × Nat) : Nat := (turnKey e.1 + 2048 - Table.get 0 x.turn c) % 2048
    (l.find? (fun e => l.all (fun g => decide (far e ≤ far g)))).map (·.2))

/-- A time message as it leaves: t1 of a TIME_REQ and t3 of a TIME_RSP are stamped now (R245, R279). -/
def stamped (eighths : Nat) (p : Packet) : Packet :=
  if p.opcode = opTIME_REQ then { p with data := padTo 32 (bytesOf 8 eighths) }
  else if p.opcode = opTIME_RSP then { p with data := padTo 32 (p.data.take 16 ++ bytesOf 8 eighths) }
  else p

/-- A port with no packet in hand takes the next one; the timer of a request starts with its head flit, with LOAD_TMO as it
stands (R270). -/
def Port.begin (now eighths tmo : Nat) (x : Port) : Port :=
  if ¬ x.sending.isEmpty then x else
  match nextToSend x with
  | none => x
  | some i =>
    match x.out[i]? with
    | none => x
    | some p =>
      let q := { stamped eighths p with vc := linkLevel p }
      { x with
        out := dropAt x.out i, sending := slotsOf q (linkVc p), tx := x.tx ++ [(x.sent, q)],
        turn := Table.set 0 x.turn p.cls (turnKey p + 1),
        reqs := x.reqs.map (fun r =>
          if r.tag = p.seq ∧ p.cls ≠ clsRSP ∧ p.opcode = r.pkt.opcode ∧ r.sentAt.isNone then
            { r with sentAt := some now, limit := if timedOp p.opcode then tmo else 0 } else r) }

/-- The flits of the next `n` slots: consecutive flits of one packet after another, each with a credit of its link VC. -/
def Port.fill (now eighths tmo : Nat) : Nat → Port → Port × List Slot
  | 0, x => (x, [])
  | n + 1, x =>
    let x := x.begin now eighths tmo
    match x.sending with
    | [] => (x, [])
    | f :: rest =>
      let c := x.credits.getD f.vc 0
      if c = 0 then (x, [])
      else
        let r := Port.fill now eighths tmo n { x with sending := rest, credits := setAt x.credits f.vc (c - 1) }
        (r.1, f :: r.2)

/-- A frame that goes out again: on a port that is not up it carries its link control alone (R258; log entry 7). -/
def Frame.resent (f : Frame) (up : Bool) : Frame := if up then f else { f with slots := [] }

/-- One frame of a port (R251 to R255), formed in every frame period (R250): one that is to be sent again, or a new one with the flits
its credits allow where the port is up (R258), credits returned, the number acknowledged, NAK, and HELLO until an ASSIGN is
accepted (R257). The last component counts frames replayed. -/
def Port.sendFrame (p : Nat) (up : Bool) (now eighths tmo : Nat) (x : Port) : Port × Nat :=
  match x.resend with
  | f :: rest => ({ x with resend := rest, wire := x.wire ++ [f.resent up] }, 1)
  | [] =>
    let r := if up then x.fill now eighths tmo 9 else (x, [])
    let x := r.1
    let f : Frame := { seq := x.sent, ack := (x.expect + 4095) % 4096, nak := x.nak, credits := returned x.freed,
                       msg := if x.hello then [1, BitVec.ofNat 8 p] else [], slots := r.2 }
    let tx := if x.sending.isEmpty then x.tx
      else x.tx.zipIdx.map (fun e => if e.2 + 1 = x.tx.length then ((x.sent + 1) % 4096, e.1.2) else e.1)
    ({ x with sent := (x.sent + 1) % 4096, nak := false, freed := lessReturned x.freed, tx := tx,
              store := lastOf 512 (x.store ++ [f]), wire := x.wire ++ [f] }, 0)

/-- The frame of port `p` in its frame period of 8 ticks (R250). -/
def portFrame (p : Nat) (s : State) : State :=
  let x := s.port p
  if x.trained = false then s
  else
    let r := x.sendFrame p (s.portUp p) s.now (eighths s) s.loadTmo
    let s := s.setPort p (noteStall s.now r.1)
    if r.2 = 0 then s else s.bump .hfiPortStatus p 16 32 r.2

/-- The frames of every port, every 8 ticks. -/
def portFrames (s : State) : State := if s.now % 8 = 0 then forEach (List.range 16) portFrame s else s

/-! ### Arriving packets (R264 to R271) -/

/-- An answer that a port gives by itself to an arriving request. -/
def answerAt (p op code : Nat) (pkt : Packet) (s : State) : State :=
  sendResponse p (s.port p).downs (responseTo pkt (640 + p) op code []) s

/-- An arriving request refused at the port: DECLINE for a prefetch (R267). -/
def refuseAt (p code : Nat) (pkt : Packet) (s : State) : State :=
  if pkt.pf ∧ pkt.opcode = opRD then answerAt p opDECLINE 0 pkt s else answerAt p opERR code pkt s

/-- Opcodes that cross nodes as requests (R264). -/
def crosses (op : Nat) : Bool :=
  addressOp op || [opCREDIT, opNODE_ARRIVE, opNODE_RELEASE, opTIME_REQ].elem op

/-- Whether an arriving request has the form R187 and R191 ask of one that crosses. -/
def goodArrival (s : State) (p : Packet) : Bool :=
  crosses p.opcode && wellFormedPacket p && decide (p.mcast = 0) && decide (p.dstNode = s.nodeId)
    && (!addressOp p.opcode || decide (p.offset < 2 ^ 40))

/-- A request enters the node's fabric at its port (R266, R268), or is refused with the first failing check. -/
def takeRequest (p : Nat) (pkt : Packet) (s : State) : State :=
  let via := some (p, (s.port p).downs)
  let fault (code : Nat) (s : State) : State := if pkt.pf then s else hfiError 1 code pkt.srcNode s
  if goodArrival s pkt = false then refuseAt p errBAD_PACKET pkt s
  else if addressOp pkt.opcode then
    let code := windowCheck s pkt
    if code ≠ 0 then refuseAt p code pkt (fault code s)
    else if windowNoPrefetch s pkt then refuseAt p errWIN_PERM pkt s
    else s.inject (homeStop (640 + p)) (translated s pkt) false via
  else if pkt.opcode ≠ opTIME_REQ ∧ (pkt.jid = 0 ∨ pkt.jid ≠ s.jid) then
    refuseAt p errJID_MISMATCH pkt (fault errJID_MISMATCH s)
  else s.inject (homeStop (640 + p)) pkt false via

/-- The flights that a port has just put into the fabric hold their receive buffers until they go on (R254). -/
def holdingRx (p v n : Nat) (before : Nat) (s : State) : State :=
  if s.flights.length = before + 1 then
    { s with flights := s.flights.zipIdx.map (fun e => if e.2 = before then { e.1 with rx := some (p, v, n) } else e.1) }
  else releaseRx { pkt := {}, src := .tile 0 0, dst := .tile 0 0, stop := .tile 0 0, rx := some (p, v, n) } s

/-- A response that comes too late or matches nothing: LATE_RSP (R271), but for the answer to a prefetch (R84, R85). -/
def lateResponse (p tag : Nat) (pf : Bool) (s : State) : State :=
  let x := s.port p
  if pf then s
  else if x.lateReads.elem tag then s.setPort p { x with lateReads := x.lateReads.filter (fun t => decide (t ≠ tag)) }
  else hfiError 2 0 0 s

/-- A response is matched by port and SEQ (R271): its requester gets it with the SEQ it gave; one that is late or matches
nothing is discarded. A TIME_RSP answers a TIME_REQ only. -/
def takeResponse (p : Nat) (pkt : Packet) (s : State) : State :=
  if wellFormedPacket pkt = false then discardResponse (640 + p) s else
  let x := s.port p
  match x.reqs.find? (fun r => decide (r.tag = pkt.seq) && r.sentAt.isSome
      && (decide (pkt.opcode ≠ opTIME_RSP) || decide (r.pkt.opcode = opTIME_REQ))) with
  | some r =>
    if r.limit ≠ 0 ∧ (r.sentAt.getD 0) + r.limit ≤ s.now then lateResponse p r.tag r.pkt.pf s
    else
      let s := s.setPort p { x with reqs := x.reqs.filter (fun q => decide (q.tag ≠ r.tag)) }
      s.inject (homeStop (640 + p)) { pkt with seq := r.seq, dstEp := r.ep, dstNode := s.nodeId }
  | none => lateResponse p pkt.seq false s

/-- A time message as it comes in, with the stamp of the frame that held its head flit: t2 in bytes 8 to 15 of a TIME_REQ,
t4 in bytes 24 to 31 of a TIME_RSP, where the hub finds them (R245, R279). -/
def stampedIn (at_ : Nat) (p : Packet) : Packet :=
  if p.opcode = opTIME_REQ then { p with data := p.data.take 8 ++ bytesOf 8 at_ ++ p.data.drop 16 }
  else if p.opcode = opTIME_RSP then { p with data := p.data.take 24 ++ bytesOf 8 at_ }
  else p

/-- A whole packet received on a port: on a port that is not up, or with the node frozen for a request, it is discarded
(R258, R427); a bad HCRC is a fatal fabric error (R188, R197). -/
def takePacket (p : Nat) (fl : List (List Byte × Bool)) (s : State) : State :=
  let h := (fl.flatMap (·.1)).take 32
  let pkt := packetOfFlits fl
  if ¬ s.portUp p then s
  else if hcrcOf h ≠ natOf (slice h 30 2) then headerError (640 + p) s
  else
    let pkt := if pkt.data.length = 32 then stampedIn (s.port p).headAt pkt else pkt
    if pkt.cls = clsRSP ∨ pkt.opcode = opTIME_RSP then takeResponse p pkt s
    else if s.akm.frozen then s
    else takeRequest p pkt s

/-! ### The link (R255 to R258, R262) -/

/-- Whether a port may ever be used: not miswired and not mismatched (R258). -/
def portUsable (s : State) (p : Nat) : Bool := !s.bit .hfiPortStatus p 2 && !s.bit .hfiPortStatus p 3

/-- A port that is trained and assigned comes up (R258, R262). -/
def comeUp (p : Nat) (s : State) : State :=
  let x := s.port p
  if x.trained ∧ x.assigned ∧ portUsable s p ∧ ¬ s.portUp p then
    let s := s.setPort p { x with hello := false }
    (s.setBit .hfiPortStatus p 0).linkEvent 0 p 1 (640 + p)
  else s

/-- ASSIGN (R258). -/
def assignPort (p node plane : Nat) (s : State) : State :=
  let s := s.setField .hfiPortStatus p 0 4 4 plane
  if portUsable s p = false then s
  else if plane ≠ p then
    (hfiError 4 0 0 (s.setBit .hfiPortStatus p 2 |>.clearBit .hfiPortStatus p 0)).linkEvent 0 p 2 (640 + p)
  else if s.nodeValid ∧ s.nodeId ≠ node then
    (hfiError 5 0 0 (s.setBit .hfiPortStatus p 3 |>.clearBit .hfiPortStatus p 0)).linkEvent 0 p 3 (640 + p)
  else
    let s := (s.setField .hfiNodeId 0 0 0 16 node).setBit .hfiNodeId 0 16
    comeUp p (s.setPort p { s.port p with assigned := true, hello := false })

def execAssign (p node plane : Nat) (s : State) : Host.Outcome State Fault Refusal :=
  act (decide (p < 16) && decide (node < 65536) && decide (plane < 256)) (assignPort p node plane) s

/-- LINK_UP (R262): training ends; the port comes up once its ASSIGN is accepted. Credits stand at 1,536 flits a link VC
(R254). -/
def trainPort (p : Nat) (s : State) : State :=
  let x := s.port p
  comeUp p (s.setPort p { x with
    trained := true, hello := !x.assigned, expect := 0, sent := 0, nak := false, retries := 0, failing := none,
    credits := List.replicate 8 1536, rxUsed := [], freed := [], partialRx := [], sending := [], tx := [], stall := [],
    store := [], resend := [], wire := [] })

def execLinkUp (p : Nat) (s : State) : Host.Outcome State Fault Refusal :=
  act (decide (p < 16) && !(s.port p).trained && !s.brc.tapDrive && decide (5 ≤ s.bootPhase)) (trainPort p) s

/-- LINK_DOWN (R255, R256): what was sent and not acknowledged is lost, what had not begun ends with NOT_JOINED, owed
responses are discarded, and the port leaves PLANE_EFF. -/
def dropLink (p : Nat) (s : State) : State :=
  let x := s.port p
  let waiting := x.reqs.filter (fun r => r.sentAt.isNone)
  let s := s.setPort p { x with
    trained := false, assigned := false, downs := x.downs + 1, hello := true, tx := [], out := [], stall := [],
    sending := [], partialRx := [], resend := [], reqs := x.reqs.filter (fun r => r.sentAt.isSome) }
  let s := s.clearBit .hfiPortStatus p 0
  let s := (hfiError 3 0 0 s).linkEvent 0 p 0 (640 + p)
  forEach waiting (fun r s => localErr p errNOT_JOINED r.pkt s) s

def execLinkDown (p : Nat) (s : State) : Host.Outcome State Fault Refusal :=
  act (decide (p < 16) && (s.port p).trained) (dropLink p) s

/-! ### Frames (R251, R255) -/

/-- The flit slots of a frame taken in order: a HEAD starts a packet, a TAIL ends it. Each flit takes a receive buffer of its
link VC, which its packet holds until it goes on into the fabric (R254). -/
def takeFlits (p : Nat) (fl : List (Nat × List Byte)) (s : State) : State :=
  forEach fl (fun f s =>
    let x := s.port p
    let v := bitsOf f.1 3 3
    let flit := (f.2, bitOf f.1 6)
    let got := if bitOf f.1 1 then [flit] else if x.partialRx.isEmpty then [] else x.partialRx ++ [flit]
    let x := { x with rxUsed := addAt x.rxUsed v 1, headAt := if bitOf f.1 1 then eighths s else x.headAt }
    if bitOf f.1 2 ∧ ¬ got.isEmpty then
      holdingRx p v got.length s.flights.length (takePacket p got (s.setPort p { x with partialRx := [] }))
    else s.setPort p { x with partialRx := got }) s

/-- Packets acknowledged by the link layer up to a frame number. -/
def acknowledged (n : Nat) (tx : List (Nat × Packet)) : List (Nat × Packet) :=
  match tx.findIdx? (fun t => decide (t.1 = n)) with
  | some i => tx.drop (i + 1)
  | none => tx

/-- A NAK: the frames after the acknowledged one go out again in order; when the same frame has failed 16 replays in a row the
link is down (R255). A NAK for a frame whose replay has not gone out yet asks for nothing new. -/
def replayFrames (p ack : Nat) (s : State) : State :=
  let x := s.port p
  match framesAfter ack x.store with
  | [] => s
  | first :: rest =>
    if x.resend.any (fun f => decide (f.seq = first.seq)) then s
    else
      let times := replayTimes x.failing x.retries first
      if 16 < times then dropLink p s
      else s.setPort p { x with retries := times, failing := some first.seq, resend := first :: rest }

/-- What a good frame says of the frames sent the other way (R254, R255). -/
def Port.takeControl (x : Port) (frame : List Byte) : Port :=
  let ack := natOf (slice frame 1163 2) % 4096
  let open_ := (framesAfter ack x.store).any (fun f => decide (x.failing = some f.seq))
  { x with
    expect := (x.expect + 1) % 4096, nak := false, tx := acknowledged ack x.tx,
    retries := if open_ then x.retries else 0, failing := if open_ then x.failing else none,
    credits := (List.range 8).map (fun v => x.credits.getD v 0 + (frame.getD (1165 + v) 0).toNat) }

/-- A good frame in sequence: credits, acknowledgement, link control and flits. -/
def takeFrame (p : Nat) (frame : List Byte) (s : State) : State :=
  let word := natOf (slice frame 1163 2)
  let s := s.setPort p (noteStall s.now ((s.port p).takeControl frame))
  let s := if bitOf word 12 then replayFrames p (word % 4096) s else s
  let s := if (frame.getD 1173 0).toNat = 2 then
      assignPort p (natOf (slice frame 1174 2)) (frame.getD 1176 0).toNat s
    else s
  takeFlits p (frameFlits frame 9 1152) s

/-- HOLTIM_FRAME (R251): a bad CRC or a gap in sequence is answered with NAK (R255). -/
def holtimFrame (p : Nat) (frame : List Byte) (s : State) : State :=
  let x := s.port p
  let seq := natOf (slice frame 1161 2) % 4096
  if crc64 (frame.take 1272) = natOf (slice frame 1272 8) ∧ seq = x.expect then takeFrame p frame s
  else s.setPort p { x with nak := true }

def execHoltimFrame (p : Nat) (frame : List Byte) (s : State) : Host.Outcome State Fault Refusal :=
  act (decide (p < 16) && decide (frame.length = 1280) && (s.port p).trained) (holtimFrame p frame) s

/-! ### Timeout and saturation -/

/-- A request whose timer has run out (R270). -/
def expired (s : State) (p tag : Nat) : Option PortReq :=
  (s.port p).reqs.find? (fun r => decide (r.tag = tag) && decide (r.limit ≠ 0)
    && (match r.sentAt with
        | some t => decide (t + r.limit ≤ s.now)
        | none => false))

/-- REQUEST_TIMEOUT (R270): the request ends with a local ERR REQ_TMO, and REMOTE_TMO is raised. A prefetch ends with DECLINE and
leaves no record (R84, R85). -/
def endRequest (p : Nat) (r : PortReq) (s : State) : State :=
  let x := s.port p
  let s := s.setPort p { x with
    reqs := x.reqs.filter (fun q => decide (q.tag ≠ r.tag)), lateReads := if r.pkt.pf then r.tag :: x.lateReads else x.lateReads }
  let s := if r.pkt.pf then s else (hfiError 0 errREQ_TMO r.node s).remoteTmo (640 + p) r.node errREQ_TMO
  localErr p errREQ_TMO r.pkt s

def requestTimeout (p tag : Nat) (s : State) : State :=
  match expired s p tag with
  | some r => endRequest p r s
  | none => s

def execRequestTimeout (p tag : Nat) (s : State) : Host.Outcome State Fault Refusal :=
  act (decide (p < 16)) (requestTimeout p tag) s

/-- Whether a link VC of a level has had a packet ready without credit for 4,096 ticks (R276). -/
def holtimSaturated (s : State) (p l : Nat) : Bool :=
  decide (p < 16) && decide (l < 2) && (List.range 4).any (fun c =>
    match Table.get none (s.port p).stall (2 * c + l) with
    | some t => decide (t + 4096 ≤ s.now)
    | none => false)

def saturatePlane (p l : Nat) (s : State) : State :=
  (s.raiseBit .hfiSatStatus 0 (2 * p + l)).akmEvent 0x0014 1 (640 + p) (bytesOf 1 1 ++ bytesOf 1 p ++ bytesOf 1 l)

/-- HOLTIM_SATURATION (R276). -/
def execHoltimSaturation (p l : Nat) (s : State) : Host.Outcome State Fault Refusal :=
  act (holtimSaturated s p l) (saturatePlane p l) s

/-! ### Registers -/

/-- HFI_PLANE_COMMIT (R262): applied at the next step release, or at once while no step hurdle is armed. -/
def hfiPlaneCommit (v : Word) (s : State) : State :=
  commitLater .hfiPlaneCommit 8 9 10 planeAddrs (s.armed s.stepHurdle) applyPlane v s

def execHfiPlaneCommit (src : Requester) (v : Word) (s : State) : Host.Outcome State Fault Refusal :=
  .next (guardedWrite src false (hfiPlaneCommit v) s)

def windowAddrs (w : Nat) : List Nat := [regAddr .hfiWinBase w, regAddr .hfiWinAttr w]

/-- The ranges a valid window must lie in (R265). -/
def windowRanges : List (Nat × Nat) :=
  [(0, 0x7F00000000), (0x10000000000, 0x10120000000), (0x20000000000, 0x20002000000), (0x30000000000, 0x30010000000)]

/-- The rejection rules of HFI_WIN (R265). -/
def windowBad (w : Nat) (s : State) : Bool :=
  let base := bitsOf (s.getShadow (regAddr .hfiWinBase w)).toNat 0 48
  let attr := (s.getShadow (regAddr .hfiWinAttr w)).toNat
  let stop := base + bitsOf attr 0 28 * 4096
  decide (base % 4096 ≠ 0)
    || (bitOf attr 32 && !windowRanges.any (fun r => decide (r.1 ≤ base) && decide (stop ≤ r.2) && decide (base ≤ r.2)))

def hfiWinCommit (v : Word) (s : State) : State :=
  let w := bitsOf v.toNat 0 8
  commitNow .hfiWinCommit 0 8 10 6 8 w (windowAddrs w) v (windowBad w) id s

/-- HFI_WIN_COMMIT (R265). -/
def execHfiWinCommit (src : Requester) (v : Word) (s : State) : Host.Outcome State Fault Refusal :=
  .next (guardedWrite src false (hfiWinCommit v) s)

/-- HFI_TMO (R270): LOAD_TMO is clamped to 10 to 1,000 µs. -/
def hfiTmo (v : Word) (s : State) : State :=
  s.setField .hfiTmo 0 0 0 10 (Nat.min 1000 (Nat.max 10 (v.toNat % 2 ^ 10)))

def execHfiTmo (src : Requester) (v : Word) (s : State) : Host.Outcome State Fault Refusal :=
  .next (guardedWrite src false (hfiTmo v) s)

end Sys2Proof.Machine
end

