-- ==== Sys2Proof/Machine/Flags.lean ====
section
/-! DEFINITION. Where the flags of arithmetic go: the sticky flags of a tile (R65) and the fflags of a core (R280). -/

namespace Sys2Proof.Machine

/-- The value of TIL_FLAGS that a set of flags adds (R65, TIL_FLAGS). -/
def Flags.tilBits (f : Flags) : Nat :=
  (if f.invalid then 1 else 0) + (if f.overflow then 2 else 0) + (if f.underflow then 4 else 0)
    + (if f.inexact then 8 else 0) + (if f.accMismatch then 16 else 0)

/-- A tile's sticky flags are set; they never clear by themselves (R65). -/
def setFlags (t : Nat) (f : Flags) (s : State) : State :=
  if f.tilBits = 0 then s
  else s.setReg (regAddr .tilFlags t) (BitVec.ofNat 64 ((s.getReg (regAddr .tilFlags t)).toNat ||| f.tilBits))

/-- The flags of a list of results together. -/
def Flags.union (l : List Flags) : Flags := l.foldl Flags.or {}

/-- fflags as RISC-V lays them out: NX, UF, OF, DZ, NV. Underflow is raised only for an inexact result. -/
def Flags.fflags (f : Flags) : Nat :=
  (if f.inexact then 1 else 0) + (if f.underflow && f.inexact then 2 else 0) + (if f.overflow then 4 else 0)
    + (if f.divZero then 8 else 0) + (if f.invalid then 16 else 0)

end Sys2Proof.Machine
end

