-- ==== Sys2Proof/Machine/TileSeq.lean ====
section
/-! DEFINITION. The sequencer of a tile (R68 to R74, R105 to R114): fetch, dispatch, loops, calls and generators; its
completions and end (R77 to R79); pre-reads (R81, R82); and the commit of its program (R69, R139); with the meanings of
their commands. -/

namespace Sys2Proof.Machine

/-! ### Fetch -/

/-- SRAM offset of a program word (chapter 5). -/
def wordOffset (s : State) (t w : Nat) : Nat := 32 * progBase s t + 8 * w

/-- A word of the program. -/
def progWord (s : State) (t w : Nat) : Nat := natOf (s.readMem (sramBase t + wordOffset s t w) 8)

/-- Whether a word lies in the program region. -/
def inRegion (s : State) (t w : Nat) : Bool := decide (w < 4 * progSectors s t)

/-- Whether the sequencer of a tile fetches. -/
def canFetch (s : State) (t : Nat) : Bool :=
  let x := s.tile t
  decide (x.state = .running) && s.tileOn t && !x.held && !x.ended && !s.akm.frozen

/-- The opcode at FETCH, where that word lies in the region. -/
def nextOp (s : State) (t : Nat) : Nat := bitsOf (progWord s t (s.tile t).fetch) 56 8

/-! ### Loop ends (R111, R112) -/

/-- How many of the open loops the sequencer does not test: those opened before the most recent open CALL. -/
def Tile.shield (x : Tile) : Nat := ((x.calls.head?).map (·.depth)).getD 0

/-- The loop ends that end on an instruction of `n` words at `w`: the loops left and the next fetch. -/
def loopEnds : Nat → Nat → Nat → Nat → List Loop → List Loop × Nat
  | 0, _, w, n, ls => (ls, w + n)
  | fuel + 1, shield, w, n, ls =>
    if ls.length ≤ shield then (ls, w + n) else
    match ls.getLast? with
    | none => (ls, w + n)
    | some l =>
      if w ≤ l.last ∧ l.last < w + n then
        if 0 < l.left then (ls.dropLast ++ [{ l with left := l.left - 1, iter := l.iter + 1 }], l.at_ + 1)
        else loopEnds fuel shield w n ls.dropLast
      else (ls, w + n)

/-- The tile after the instruction of `n` words at `w`: loop ends applied, fetch moved on. -/
def Tile.advance (x : Tile) (w n : Nat) : Tile :=
  let (ls, f) := loopEnds 5 x.shield w n x.loops
  { x with loops := ls, fetch := f }

/-- First word after the instruction that holds a word, reading the instructions from `w` on (R73, R107). -/
def skipTo (s : State) (t last : Nat) : Nat → Nat → Nat
  | 0, w => w
  | fuel + 1, w => if last < w then w else skipTo s t last fuel (w + wordsOf (progWord s t w))

/-! ### Sequencer instructions -/

/-- LOOP (R73, R111). -/
def seqLoop (t w word : Nat) (s : State) : State :=
  let x := s.tile t
  let last := bitsOf word 32 20
  let count := bitsOf word 0 32
  let inner := if x.loops.length ≤ x.shield then none else x.loops.getLast?
  let beyond : Bool := match inner with
    | some l => decide (l.last < last)
    | none => false
  if last ≤ w ∨ beyond then raiseExc t excILLEGAL_OP w (x.disp + 1) 0 s
  else if count = 0 then
    s.setTile t (x.advance w (skipTo s t last (last - w + 1) (w + 1) - w))
  else if 4 ≤ x.loops.length then raiseExc t excSEQ_OVERFLOW w (x.disp + 1) 0 s
  else s.setTile t { x with loops := x.loops ++ [{ at_ := w, last := last, left := count - 1, iter := 0 }], fetch := w + 1 }

/-- CALL (R73, R112). -/
def seqCall (t w word : Nat) (s : State) : State :=
  let x := s.tile t
  if 8 ≤ x.calls.length then raiseExc t excSEQ_OVERFLOW w (x.disp + 1) 0 s
  else s.setTile t { x with calls := { at_ := w, depth := x.loops.length } :: x.calls, fetch := bitsOf word 0 20 }

/-- RET (R73, R112): the loop ends that end on the CALL are taken here. -/
def seqRet (t w : Nat) (s : State) : State :=
  let x := s.tile t
  match x.calls with
  | [] => raiseExc t excSEQ_OVERFLOW w (x.disp + 1) 0 s
  | c :: cs =>
    if c.depth < x.loops.length then raiseExc t excSEQ_OVERFLOW w (x.disp + 1) 0 s
    else s.setTile t ({ x with calls := cs }.advance c.at_ 1)

/-- Changes a generator, and the next word follows. -/
def seqGen (t w n g : Nat) (f : Gen → Gen) (s : State) : State :=
  s.modTile t (fun x => { x with gens := Table.modify {} x.gens g f }.advance w n)

/-- AGSET (R113). -/
def seqAgset (t w word ext : Nat) (s : State) : State :=
  seqGen t w 2 (bitsOf word 51 5) (fun a => { a with base := ext, glb := bitOf word 50 }) s

/-- AGSTRIDE (R113). -/
def seqAgstride (t w word : Nat) (s : State) : State :=
  let v := bitsOf word 0 40
  seqGen t w 1 (bitsOf word 51 5) (fun a =>
    match bitsOf word 49 2 with
    | 0 => { a with s0 := v }
    | 1 => { a with s1 := v }
    | 2 => { a with s2 := v }
    | _ => { a with s3 := v }) s

/-- AGADD (R113). -/
def seqAgadd (t w word : Nat) (s : State) : State :=
  let d := signedOf 40 (bitsOf word 0 40)
  seqGen t w 1 (bitsOf word 51 5) (fun a =>
    { a with base := if a.glb then a.base / 2 ^ 40 * 2 ^ 40 + wrapNat 40 ((a.base : Int) + d)
                     else wrapNat 48 ((a.base : Int) + d) }) s

/-- Entries a queue holds at most (the parts of a tile). -/
def queueDepth : Nat := 64

/-- END (R114): one entry in each queue, once all have room. -/
def seqEnd (t w word : Nat) (s : State) : State :=
  let x := s.tile t
  let e : Entry := { disp := x.disp + 1, at_ := w, word := word, ext := 0, addrs := [] }
  let q := x.queues
  if q.load.length < queueDepth ∧ q.matrix.length < queueDepth ∧ q.vector.length < queueDepth
      ∧ q.store.length < queueDepth ∧ q.sync.length < queueDepth then
    s.setTile t { x with
      disp := x.disp + 1, ended := true, loops := [], calls := [], fetch := w + 1,
      queues := { load := q.load ++ [e], matrix := q.matrix ++ [e], vector := q.vector ++ [e],
                  store := q.store ++ [e], sync := q.sync ++ [e] } }
  else s

/-- An instruction of a queue dispatched (R72, R106, R108, R118): refused by a check, held by a full queue, or given the
next dispatch number and its addresses. -/
def seqQueue (t w word ext : Nat) (u : TileUnit) (s : State) : State :=
  let x := s.tile t
  let op := bitsOf word 56 8
  let own := unitIndex u
  let ns := namedBy op word ext
  if bitOf (bitsOf word 51 5) own ∨ bitOf (bitsOf word 46 5) own ∨ legalFields op word ext = false ∨ globalLocal x ns then
    raiseExc t excILLEGAL_OP w (x.disp + 1) 0 s
  else match misaligned x ns with
    | some a => raiseExc t excMISALIGNED w (x.disp + 1) a s
    | none =>
      let q := x.queues.of u
      if queueDepth ≤ q.length then s else
      let e : Entry := { disp := x.disp + 1, at_ := w, word := word, ext := ext,
                         addrs := ns.map (fun n => genAddr x n.gen) }
      s.setTile t ({ x with disp := x.disp + 1, queues := x.queues.put u (q ++ [e]) }.advance w (wordsOf word))

/-- The instruction at a word, with its extension, executed by the sequencer or dispatched (R106). -/
def seqInstruction (t w word ext : Nat) (s : State) : State :=
  let op := bitsOf word 56 8
  match unitOf op with
  | some u => seqQueue t w word ext u s
  | none =>
    if legalSeq op word ext = false then raiseExc t excILLEGAL_OP w ((s.tile t).disp + 1) 0 s
    else match op with
      | 0x00 => s.modTile t (fun x => x.advance w 1)
      | 0x01 => seqLoop t w word s
      | 0x02 => seqCall t w word s
      | 0x03 => seqRet t w s
      | 0x04 => seqAgset t w word ext s
      | 0x05 => seqAgstride t w word s
      | 0x06 => seqAgadd t w word s
      | _ => seqEnd t w word s

/-- One step of the sequencer (R72, R71): PROG_BOUND where the word or its extension lies outside the region; its record names the
SRAM offset of that word (DESIGN CHOICE, log entry 49). -/
def seqStep (t : Nat) (s : State) : State :=
  let x := s.tile t
  let w := x.fetch
  if inRegion s t w = false then raiseExc t excPROG_BOUND w (x.disp + 1) (wordOffset s t w) s
  else
    let word := progWord s t w
    if wordsOf word = 2 then
      if inRegion s t (w + 1) = false then raiseExc t excPROG_BOUND w (x.disp + 1) (wordOffset s t (w + 1)) s
      else seqInstruction t w word (progWord s t (w + 1)) s
    else seqInstruction t w word 0 s

/-- Words of the program that the sequencer reads in its next step. -/
def fetchWords (s : State) (t : Nat) : Nat :=
  let w := (s.tile t).fetch
  if inRegion s t w = false then 0 else if wordsOf (progWord s t w) = 2 ∧ inRegion s t (w + 1) then 2 else 1

/-- The sequencer's step, with the double-bit errors that its words meet in SRAM (R410). -/
def seqRun (t : Nat) (s : State) : State :=
  seqStep t (bytesMet (sramBase t + wordOffset s t (s.tile t).fetch) (8 * fetchWords s t) t s)

/-- The sequencer's step where the word at FETCH has an opcode. -/
def seqRow (op t : Nat) (s : State) : Host.Outcome State Fault Refusal :=
  act (canFetch s t && inRegion s t (s.tile t).fetch && decide (nextOp s t = op)) (seqRun t) s

/-- DISPATCH (R72). -/
def execDispatch (t : Nat) (s : State) : Host.Outcome State Fault Refusal := act (canFetch s t) (seqRun t) s

/-- NOP (R106). -/
def execNop (t : Nat) (s : State) : Host.Outcome State Fault Refusal := seqRow 0x00 t s

/-- LOOP (R111). -/
def execLoop (t : Nat) (s : State) : Host.Outcome State Fault Refusal := seqRow 0x01 t s

/-- CALL (R112). -/
def execCall (t : Nat) (s : State) : Host.Outcome State Fault Refusal := seqRow 0x02 t s

/-- RET (R112). -/
def execRet (t : Nat) (s : State) : Host.Outcome State Fault Refusal := seqRow 0x03 t s

/-- AGSET (R113). -/
def execAgset (t : Nat) (s : State) : Host.Outcome State Fault Refusal := seqRow 0x04 t s

/-- AGSTRIDE (R113). -/
def execAgstride (t : Nat) (s : State) : Host.Outcome State Fault Refusal := seqRow 0x05 t s

/-- AGADD (R113). -/
def execAgadd (t : Nat) (s : State) : Host.Outcome State Fault Refusal := seqRow 0x06 t s

/-- END (R114). -/
def execEndProg (t : Nat) (s : State) : Host.Outcome State Fault Refusal := seqRow 0x07 t s

/-! ### Completion and end -/

/-- Sectors of a LOAD or STORE. -/
def Entry.sectors (e : Entry) : Nat := bitsOf e.word 20 16

/-- The head of a queue is END. -/
def atEnd (l : List Entry) : Bool :=
  match l with
  | e :: _ => decide (e.opcode = 0x07)
  | [] => false

/-- Whether a tile has reached END everywhere and every request it issued is acknowledged (R79). -/
def idleDue (s : State) (t : Nat) : Bool :=
  let x := s.tile t
  let q := x.queues
  decide (x.state = .running) && s.tileOn t && !x.held && !s.akm.frozen
    && atEnd q.load && atEnd q.matrix && atEnd q.vector && atEnd q.store && atEnd q.sync
    && x.inflight.isEmpty && x.stores.isEmpty && x.atoms.isEmpty && x.wait.isNone
    && !s.awaits (fun p => match p with
        | .tileArrive t' _ _ _ => decide (t' = t)
        | _ => false)

/-- The tile becomes IDLE; credits that are left raise CREDIT_RESIDUE and are cleared (R79). -/
def becomeIdle (t : Nat) (s : State) : State :=
  let x := s.tile t
  let e := x.queues.load.headD ⟨0, 0, 0, 0, []⟩
  let s := if x.credits.isEmpty then s else raiseExc t excCREDIT_RESIDUE e.at_ e.disp 0 s
  s.modTile t (fun x => { x with state := .idle, queues := {}, credits := [], ended := false, staged := [] })

/-- TILE_IDLE (R79). -/
def execTileIdle (t : Nat) (s : State) : Host.Outcome State Fault Refusal := act (idleDue s t) (becomeIdle t) s

/-- Whether flits of a packet still lie in the router of a tile, or it has not entered the fabric yet. -/
def Flight.inRouter (f : Flight) (at_ : Stop) : Bool :=
  decide (f.leg = .source) || f.held.any (fun e => match e.1 with
    | .inject _ b _ => decide (b = at_)
    | .turn b _ _ => decide (b = at_)
    | .link _ _ _ _ => false)

/-- Whether the packet of a credit-only store or of an atomic has not left the tile's router yet (R77). -/
def packetStays (s : State) (t disp : Nat) : Bool :=
  s.requests.any (fun r =>
    (match r.purpose with
      | .tileCredit u d => decide (u = t) && decide (d = disp)
      | .tileAtom u d _ _ _ => decide (u = t) && decide (d = disp)
      | _ => false)
    && s.flights.any (fun f => decide (f.pkt.srcEp = t) && decide (f.pkt.srcNode = s.nodeId) && decide (f.pkt.seq = r.seq)
        && decide (f.pkt.cls ≠ clsRSP) && f.inRouter (homeStop t)))

/-- Whether an issued instruction of the store queue completes with its packet: an atomic, or a STORE of no sectors (R77). -/
def Entry.leaves (e : Entry) : Bool := decide (e.opcode = 0x34) || decide (e.opcode = 0x35) || (decide (e.opcode = 0x30) && decide (e.sectors = 0))

/-- The `n`th in-flight instruction of a unit, ready to complete: no piece to come, its tick reached, its packet out of the router
where it completes with that, and no counter that would pass 255 (R77, R78). -/
def completing (s : State) (t : Nat) (u : TileUnit) (n : Nat) : Option InFlight :=
  match ((s.tile t).inFlightOf u)[n]? with
  | some f =>
    if f.left = 0 ∧ f.due ≤ s.now ∧ ¬ (u = .store ∧ f.entry.leaves ∧ packetStays s t f.entry.disp)
      ∧ postsHeld (s.tile t) u f.entry = false then some f else none
  | none => none

/-- Completion: the post set's counters go up (R76). -/
def completeEntry (t : Nat) (u : TileUnit) (f : InFlight) (s : State) : State :=
  s.modTile t (fun x => postCredits { x with inflight := x.inflight.filter (fun g =>
    !(decide (g.unit = u) && decide (g.entry.disp = f.entry.disp))) } u f.entry)

def completeNth (t : Nat) (u : TileUnit) (n : Nat) (s : State) : State :=
  match completing s t u n with
  | some f => completeEntry t u f s
  | none => s

/-- INSTRUCTION_COMPLETE (R77). -/
def execInstructionComplete (t : Nat) (u : TileUnit) (n : Nat) (s : State) : Host.Outcome State Fault Refusal :=
  act (!s.akm.frozen && !(s.tile t).held) (completeNth t u n) s

/-! ### Pre-reads (R81, R82) -/

/-- Sectors the staging buffer holds for a tile; it has room for 8,192. -/
def stagedSectors (x : Tile) : Nat := (x.staged.map (·.n)).foldl (· + ·) 0

/-- Condition 5 and 6 of R81, for every piece of a source of `n` sectors. -/
def prefetchable (s : State) (t n : Nat) (a : Addr) : Bool :=
  if a.glb then bitOf (s.field .hfiPfmap (globalWindow a.val / 64) 0 0 64) (globalWindow a.val % 64)
  else (pieces a.val n).all (fun p => match placeOf ((a.val + p.1) % 2 ^ 48) with
    | .stacked => true
    | .commons => true
    | .sram t' _ => decide (t' ≠ t)
    | _ => false)

/-- Two ranges of bytes at addresses of one kind overlap. -/
def overlap (a : Addr) (n : Nat) (b : Addr) (m : Nat) : Bool :=
  (decide (a.glb = b.glb)) && decide (a.val < b.val + m) && decide (b.val < a.val + n)

/-- Bytes a store or atomic writes on its far side. -/
def storeBytes (e : Entry) : Nat := if e.opcode = 0x30 then 32 * e.sectors else if bitOf e.word 41 then 8 else 4

/-- Bytes of a posted atomic that awaits its answer. -/
def atomWidth (r : Request) : Nat := if bitOf r.pkt.status 4 then 8 else 4

/-- Condition 4 of R81: no earlier store or atomic without its acknowledgement overlaps the source. -/
def noEarlierStore (s : State) (t : Nat) (e : Entry) : Bool :=
  let x := s.tile t
  let src := e.addr 0
  let n := 32 * e.sectors
  x.queues.store.all (fun q => !(decide (q.disp < e.disp) && decide (q.opcode ≠ 0x07) && overlap (q.addr 0) (storeBytes q) src n))
    && x.stores.all (fun w => !(decide (w.disp < e.disp) && overlap w.addr w.bytes src n))
    && s.requests.all (fun r => match r.purpose with
        | .tileAtom t' d _ addr glb =>
          !(decide (t' = t) && decide (d < e.disp) && overlap ⟨addr, glb⟩ (atomWidth r) src n)
        | _ => true)

/-- Condition 2 of R81: every earlier wait of the sync queue has completed. -/
def noEarlierWait (x : Tile) (e : Entry) : Bool :=
  x.queues.sync.all (fun q => !(decide (q.disp < e.disp) && [0x10, 0x12, 0x13].elem q.opcode))
    && x.inflight.all (fun f => !(decide (f.unit = .sync) && decide (f.entry.disp < e.disp)
        && [0x10, 0x12, 0x13].elem f.entry.opcode))

/-- The pieces of a LOAD that have not been pre-read, with their SRAM offsets. -/
def piecesLeft (x : Tile) (e : Entry) : List (Nat × Nat) :=
  (pieces (e.addr 0).val e.sectors).filter (fun p =>
    !(x.staged.any (fun g => decide (g.disp = e.disp) && decide (g.dst = (e.addr 1).val + p.1))))

/-- Whether a LOAD has sent every pre-read that the free staging space allows it (R81). -/
def prereadSent (x : Tile) (e : Entry) : Bool := (piecesLeft x e).all (fun p => decide (8192 < stagedSectors x + p.2))

/-- Whether the `n`th queued LOAD may be pre-read now (R81). -/
def prereadDue (s : State) (t n : Nat) : Bool :=
  let x := s.tile t
  match x.queues.load[n]? with
  | some e =>
    let missing := (List.range 5).filter (fun k => bitOf e.waits k && decide (x.credit k 0 = 0))
    decide (e.opcode = 0x20) && canIssue s t .load { e with word := e.word - bitsOf e.word 51 5 * 2 ^ 51 }
      && !s.akm.frozen && s.bit .tilRunahead t 0
      && missing.all (fun k => decide (1 ≤ k) && decide (k ≤ 3))
      && noEarlierWait x e && noEarlierStore s t e && prefetchable s t e.sectors (e.addr 0)
      && (x.queues.load.take n).all (fun q => decide (q.opcode ≠ 0x20) || prereadSent x q)
  | none => false

/-- The reads of a LOAD with the prefetch bit, as far as the staging buffer has room (R81, R82). -/
def preread (t : Nat) (e : Entry) (s : State) : State :=
  forEach (piecesLeft (s.tile t) e) (fun p s =>
    let x := s.tile t
    if 8192 < stagedSectors x + p.2 then s else
    let dst := (e.addr 1).val + p.1
    let s := s.setTile t { x with
      staged := x.staged ++ [{ disp := e.disp, dst := dst, n := p.2, data := none, declined := false }] }
    let a := e.addr 0
    s.send t (.tilePre t e.disp dst p.2) (addressed { opcode := opRD, nsect := p.2, pf := true } a.glb a.val p.1) a.glb) s

def prereadNth (t n : Nat) (s : State) : State :=
  match (s.tile t).queues.load[n]? with
  | some e => preread t e s
  | none => s

/-- PREREAD (R81). -/
def execPreread (t n : Nat) (s : State) : Host.Outcome State Fault Refusal := act (prereadDue s t n) (prereadNth t n) s

/-! ### TIL_SEQ (R69, R139) -/

/-- The rejection rule of TIL_SEQ. -/
def seqBad (t : Nat) (s : State) : Bool :=
  let v := (s.getShadow (regAddr .tilSeqProg t)).toNat
  let n := bitsOf v 18 18
  decide (196608 < bitsOf v 0 18 + n) || (decide (n ≠ 0) && decide (4 * n ≤ bitsOf v 36 20))
    || decide ((s.tile t).state = .running)

/-- The write of TIL_SEQ_COMMIT at an unpenned tile. -/
def tilCommit (t : Nat) (v : Word) (s : State) : State :=
  if s.tileOn t then commitNow .tilSeqCommit t 0 2 0 1 t [regAddr .tilSeqProg t] v (seqBad t) id s
  else answering errPENNED 0 s

/-- TIL_SEQ_COMMIT (R69, R139). -/
def execTilSeqCommit (t : Nat) (src : Requester) (v : Word) (s : State) : Host.Outcome State Fault Refusal :=
  .next (if 576 ≤ t then answering errUNMAPPED 0 s
    else guardedWrite src false (fun s => if s.tileOn t then tilCommit t v s else answering errPENNED 0 s) s)

end Sys2Proof.Machine
end

