-- ==== Sys2Proof/Machine/TileCopy.lean ====
section
/-! DEFINITION. The sync, load and store units of a tile: tally and hurdle waits and arrivals (R103, R115 to R117), copies
(R98 to R102), posted atomics (R119) and transposes (R120), with the meanings of their commands. -/

namespace Sys2Proof.Machine

/-- Runs the head of a unit's queue where it has an opcode and may issue. -/
def unitRow (u : TileUnit) (op t : Nat) (f : Entry → State → State) (s : State) : Host.Outcome State Fault Refusal :=
  .next (match headIs s t u op with
    | some e => f e s
    | none => s)

/-! ### Sync -/

/-- Whether a TWAIT, HWAIT or HARRW of the tile has not completed yet (R117). -/
def syncWaits (x : Tile) : Bool :=
  x.wait.isSome || x.inflight.any (fun f => decide (f.unit = .sync) && [0x10, 0x12, 0x13].elem f.entry.opcode)

/-- The sync unit issues nothing while a wait of its own has not completed (R117). -/
def syncRow (op t : Nat) (f : Entry → State → State) (s : State) : Host.Outcome State Fault Refusal :=
  .next (match headIs s t .sync op with
    | some e => if syncWaits (s.tile t) then s else f e s
    | none => s)

/-- TWAIT issues (R115); a distance of 0 completes at issue. -/
def issueTwait (t : Nat) (e : Entry) (s : State) : State :=
  let s := issued t .sync e 1 s.now s
  let s := s.modTile t (fun x => { x with wait := some (.tally (bitsOf e.word 38 8) (bitsOf e.word 0 31) e) })
  if bitsOf e.word 0 31 = 0 then tileTallyDone t s else s

/-- TWAIT. -/
def execTwait (t : Nat) (s : State) : Host.Outcome State Fault Refusal := syncRow 0x10 t (issueTwait t) s

/-- The arrival fence of R103: every instruction with a smaller dispatch number has completed, and every copy, store and
atomic among them is acknowledged. -/
def fenceOpen (s : State) (t : Nat) (e : Entry) : Bool :=
  let x := s.tile t
  x.queues.all.all (fun q => decide (e.disp ≤ q.disp)) && x.inflight.all (fun f => decide (e.disp ≤ f.entry.disp))
    && x.stores.all (fun w => decide (e.disp ≤ w.disp)) && x.atoms.all (fun d => decide (e.disp ≤ d))

def hurdleOf (e : Entry) : Nat := bitsOf e.word 0 10

/-- The arrival of HARR and HARRW (R117): SYNC_ORDER when the pending bit is set, else the bit is set and ARRIVE goes to
the hub. A release in this tick has cleared the bit already. -/
def arrive (t : Nat) (e : Entry) (s : State) : State :=
  let h := hurdleOf e
  let s := aheadOfRelease t s
  if Table.get false (s.tile t).pendingH h then raiseExc t excSYNC_ORDER e.at_ e.disp 0 s
  else
    let s := s.modTile t (fun x => { x with pendingH := Table.set false x.pendingH h true })
    s.send t (.tileArrive t h e.disp e.at_) { opcode := opARRIVE, cls := clsSYNC, tally := h }

/-- The wait of HWAIT and HARRW: over at once where the bit is clear. -/
def hurdleWait (t : Nat) (e : Entry) (s : State) : State :=
  let h := hurdleOf e
  let s := aheadOfRelease t s
  if Table.get false (s.tile t).pendingH h then s.modTile t (fun x => { x with wait := some (.hurdle h e) })
  else syncWaitOver t e s

def issueHarr (t : Nat) (e : Entry) (s : State) : State :=
  if fenceOpen s t e then arrive t e (issued t .sync e 0 s.now s) else s

def issueHwait (t : Nat) (e : Entry) (s : State) : State := hurdleWait t e (issued t .sync e 1 s.now s)

def issueHarrw (t : Nat) (e : Entry) (s : State) : State :=
  if fenceOpen s t e then hurdleWait t e (arrive t e (issued t .sync e 1 s.now s)) else s

/-- HARR (R117). -/
def execHarr (t : Nat) (s : State) : Host.Outcome State Fault Refusal := syncRow 0x11 t (issueHarr t) s

/-- HWAIT (R117). -/
def execHwait (t : Nat) (s : State) : Host.Outcome State Fault Refusal := syncRow 0x12 t (issueHwait t) s

/-- HARRW (R117). -/
def execHarrw (t : Nat) (s : State) : Host.Outcome State Fault Refusal := syncRow 0x13 t (issueHarrw t) s

/-! ### Loads (R82, R83, R99) -/

/-- One piece of a LOAD that issues: staged data is written, a piece still awaited stays so, any other is read. -/
def loadPiece (t : Nat) (e : Entry) (p : Nat × Nat) (s : State) : State :=
  let dst := (e.addr 1).val + p.1
  let a := e.addr 0
  let rd (s : State) : State :=
    s.send t (.tileLoad t e.disp dst p.2) (addressed { opcode := opRD, nsect := p.2 } a.glb a.val p.1) a.glb
  let mine (g : Staged) : Bool := decide (g.disp = e.disp) && decide (g.dst = dst)
  let unstage (s : State) : State := s.modTile t (fun x => { x with staged := x.staged.filter (fun g => !mine g) })
  match (s.tile t).staged.find? mine with
  | none => rd s
  | some g =>
    if g.declined then rd (unstage s)
    else match g.data with
      | some b => pieceDone t .load e.disp (localSectors t e dst b p.2 (unstage s))
      | none => s

/-- LOAD issues: one read for each piece (R99); zero sectors complete at once (R102). -/
def issueLoad (t : Nat) (e : Entry) (s : State) : State :=
  let ps := pieces (e.addr 0).val e.sectors
  let s := issued t .load e ps.length s.now s
  let s := boundCheck t e (e.addr 1).val (32 * e.sectors) s
  forEach ps (loadPiece t e) s

/-- LOAD. -/
def execLoad (t : Nat) (s : State) : Host.Outcome State Fault Refusal := unitRow .load 0x20 t (issueLoad t) s

/-! ### XPOSE (R120) -/

/-- Bits of an element of a format code (R44, R89). -/
def codeWidth (c : Nat) : Nat :=
  if c = 0 then 4 else if c ≤ 2 then 6 else if c ≤ 5 then 8 else if c ≤ 7 then 16 else if c = 9 then 64 else 32

/-- Bytes of a brick (R89). -/
def brickBytes (w : Nat) : Nat := 128 * w

/-- The 1,024 elements of a brick, rows ascending (R89: packed little-endian at every width). -/
def brickElements (w : Nat) (b : List Byte) : List Nat := unpackBits w 1024 (natOf b)

/-- A brick of 1,024 elements. -/
def brickOf (w : Nat) (l : List Nat) : List Byte := bytesOf (brickBytes w) (packBits w l)

/-- Elements of a 32 × 32 brick, transposed. -/
def transposed (l : List Nat) : List Nat :=
  (List.range 32).flatMap (fun c => (List.range 32).map (fun r => l.getD (32 * r + c) 0))

/-- A brick with rows and columns exchanged. -/
def transposeBrick (w : Nat) (b : List Byte) : List Byte := brickOf w (transposed (brickElements w b))

def issueXpose (t : Nat) (e : Entry) (s : State) : State :=
  let w := codeWidth (bitsOf e.word 32 4)
  let size := brickBytes w
  let n := bitsOf e.word 16 16
  let src := (e.addr 0).val
  let dst := (e.addr 1).val
  let s := issued t .load e 0 s.now s
  let s := boundCheck t e dst (size * n) (boundRead t e src (size * n) s)
  forEach (List.range n) (fun i s =>
    localSectors t e (dst + size * i) (transposeBrick w (localBytes s t (src + size * i) size)) (size / 32) s) s

/-- XPOSE. -/
def execXpose (t : Nat) (s : State) : Host.Outcome State Fault Refusal := unitRow .load 0x21 t (issueXpose t) s

/-! ### Stores and atomics (R100 to R102, R119) -/

/-- The credit packet of a store (R100, R101). -/
def sendStoreCredit (t : Nat) (w : StoreWait) (s : State) : State :=
  s.send t (.tileCredit t w.disp) (creditPacket w.node w.tally w.credit w.err) w.node.isSome

/-- Changes the record of a store. -/
def modStore (t disp : Nat) (f : StoreWait → StoreWait) (s : State) : State :=
  s.modTile t (fun x => { x with stores := x.stores.map (fun w => if w.disp = disp then f w else w) })

/-- A store whose writes are all answered sends its credit, or is acknowledged where it carries none (R100, R102). -/
def finishStore (t disp : Nat) (s : State) : State :=
  match (s.tile t).stores.find? (fun w => decide (w.disp = disp)) with
  | some w =>
    if w.left ≠ 0 ∨ w.sent then s
    else if w.credit = 0 then
      s.modTile t (fun x => { x with stores := x.stores.filter (fun w => decide (w.disp ≠ disp)) })
    else sendStoreCredit t w (modStore t disp (fun w => { w with sent := true }) s)
  | none => s

/-- One write of a store. -/
def storePiece (t : Nat) (e : Entry) (data : List Byte) (p : Nat × Nat) (s : State) : State :=
  let a := e.addr 0
  s.send t (.tileStore t e.disp)
    (addressed { opcode := opWR, nsect := p.2, data := slice data p.1 (32 * p.2) } a.glb a.val p.1) a.glb

/-- STORE issues (R100, R102): its source is read whole, its writes are sent. -/
def issueStore (t : Nat) (e : Entry) (s : State) : State :=
  let n := e.sectors
  let a := e.addr 0
  let loc := (e.addr 1).val
  let ps := pieces a.val n
  let w : StoreWait := {
    disp := e.disp, at_ := e.at_, left := ps.length, err := false, node := tallyNode e.ext, tally := bitsOf e.ext 29 17,
    credit := (if carriesCredit e.ext then bitsOf e.ext 0 16 else 0),
    sent := false, addr := a, bytes := 32 * n }
  let s := issued t .store e 0 s.now s
  let s := boundRead t e loc (32 * n) s
  let data := localBytes s t loc (32 * n)
  let s := s.modTile t (fun x => { x with stores := x.stores ++ [w] })
  finishStore t e.disp (forEach ps (storePiece t e data) s)

/-- STORE. -/
def execStore (t : Nat) (s : State) : Host.Outcome State Fault Refusal := unitRow .store 0x30 t (issueStore t) s

/-- A posted atomic leaves (R119, R32). -/
def sendAtom (t : Nat) (e : Entry) (operand : List Byte) (s : State) : State :=
  let a := e.addr 0
  let status := bitsOf e.word 43 3 + (if bitOf e.word 42 then 8 else 0) + (if bitOf e.word 41 then 16 else 0)
  let s := s.modTile t (fun x => { x with atoms := x.atoms ++ [e.disp] })
  s.send t (.tileAtom t e.disp e.at_ a.val a.glb) (addressed { opcode := opATOM, nsect := 1, status := status, data := padTo 32 operand } a.glb a.val 0) a.glb

def issueAtomi (t : Nat) (e : Entry) (s : State) : State :=
  sendAtom t e (bytesOf (if bitOf e.word 41 then 8 else 4) e.ext) (issued t .store e 0 s.now s)

def issueAtoms (t : Nat) (e : Entry) (s : State) : State :=
  let n := if bitOf e.word 41 then 8 else 4
  let loc := (e.addr 1).val
  let s := boundRead t e loc n (issued t .store e 0 s.now s)
  sendAtom t e (localBytes s t loc n) s

/-- ATOMI (R119). -/
def execAtomi (t : Nat) (s : State) : Host.Outcome State Fault Refusal := unitRow .store 0x34 t (issueAtomi t) s

/-- ATOMS (R119). -/
def execAtoms (t : Nat) (s : State) : Host.Outcome State Fault Refusal := unitRow .store 0x35 t (issueAtoms t) s

end Sys2Proof.Machine
end

