-- ==== Sys2Proof/Machine/Mxu.lean ====
section
/-! DEFINITION. The MXU of a tile: operands (R122 to R124), the exact short-format sums (R45 to R52), the BF16 and FP32
group procedure (R53 to R56), FP64 by slices (R57 to R59), scales (R61), chains and seeds (R125 to R127), the interlocks
of the banks (R94 to R97, R158), drains and bank loads (R128 to R130), with the meanings of their commands. -/

namespace Sys2Proof.Machine

/-! ### Operands -/

/-- Element `i` of a packed array in a tile's SRAM: `w` bits each from an offset up. -/
def elementAt (s : State) (t off w i : Nat) : Nat :=
  let b := w * i
  bitsOf (natOf (localBytes s t (off + b / 8) 9)) (b % 8) w

/-- Bytes of an operand of `r` lanes by `k`: panels of bricks (R122). -/
def operandBytes (w r k : Nat) : Nat := (r + 31) / 32 * ((k + 31) / 32) * brickBytes w

/-- Element `k` of lane `r` of an operand: lanes are rows of A and columns of B; `across` tells that a brick row is a
lane (R122). -/
def operandElement (s : State) (t off w len r k : Nat) (across : Bool) : Nat :=
  let brick := r / 32 * ((len + 31) / 32) + k / 32
  let i := if across then 32 * (r % 32) + k % 32 else 32 * (k % 32) + r % 32
  elementAt s t (off + brick * brickBytes w) w i

/-- The lanes of an operand. -/
def operandLanes (s : State) (t off w lanes len : Nat) (across : Bool) : List (List Nat) :=
  (List.range lanes).map (fun r => (List.range len).map (fun k => operandElement s t off w len r k across))

/-- Values of `n` bytes each from an offset up. -/
def arrayOf (s : State) (t off n count : Nat) : List Nat :=
  (List.range count).map (fun i => natOf (localBytes s t (off + n * i) n))

/-! ### Short formats (R45 to R48) -/

/-- f of R45: the smallest subnormal is 2^-f. -/
def fracOf (c : Nat) : Nat :=
  if c = 0 then 1 else if c = 1 then 3 else if c = 2 then 4 else if c = 3 then 9 else if c = 4 then 16
  else if c = 6 then 24 else 0

/-- The format of a format code (R44). -/
def codeFmt (c : Nat) : Fmt :=
  if c = 0 then fmtFp4 else if c = 1 then fmtFp6e2m3 else if c = 2 then fmtFp6e3m2 else if c = 3 then fmtFp8e4m3
  else if c = 4 then fmtFp8e5m2 else if c = 6 then fmtFp16 else if c = 7 then fmtBf16 else if c = 8 then fmtFp32 else fmtFp64

/-- The value of a short-format element. -/
def shortValue (c x : Nat) : Exact := if c = 5 then exactOfInt (signedOf 8 x) 0 else decodeFloat (codeFmt c) x

/-- What a product sets in the state (R47, R56): NAN, PINF, NINF, and whether a NaN came of operands that are not NaN. -/
def productState (a b : Exact) : Acc × Flags :=
  if a.isNan || b.isNan then ({ nan := true }, {})
  else if (a.isInf && b.isZero) || (a.isZero && b.isInf) then ({ nan := true }, flagInvalid)
  else if a.isInf || b.isInf then
    (if a.neg != b.neg then { ninf := true } else { pinf := true }, {})
  else ({}, {})

/-- A 96-bit two's-complement sum (R46, R48). -/
def wrap96 (x : Int) : Int := signedOf 96 (wrapNat 96 x)

/-- Two accumulator values combined (R48). -/
def Acc.combine (a b : Acc) : Acc := ⟨wrap96 (a.val + b.val), a.nan || b.nan, a.pinf || b.pinf, a.ninf || b.ninf⟩

/-- A product in units of 2^-F (R45): every finite product is an integer multiple. -/
def productUnits (f : Nat) (a b : Exact) : Int :=
  let (m, e) := a.signed
  let (m', e') := b.signed
  m * m' * 2 ^ (e + e' + f).toNat

/-- One product into an accumulator (R45, R47). -/
def accumulate (f : Nat) (x : Acc × Flags) (a b : Exact) : Acc × Flags :=
  let (st, fl) := productState a b
  let finite := !(a.isNan || a.isInf || b.isNan || b.isInf)
  (x.1.combine { st with val := if finite then productUnits f a b else 0 }, x.2.or fl)

/-- The exact sum of one dot product onto a seed. An E8M0 scale of 0xFF sets NAN with every product, and the integer receives
nothing from them (R47); it raises no INVALID of its own (DESIGN CHOICE, log entry 32). -/
def shortDot (ca cb : Nat) (nanScale : Bool) (seed : Acc) (row col : List Nat) : Acc × Flags :=
  let f := fracOf ca + fracOf cb
  let ps := List.zip row col
  let x := ps.foldl (fun x p => accumulate f x (shortValue ca p.1) (shortValue cb p.2)) (seed, {})
  if nanScale && !ps.isEmpty then ({ x.1 with val := seed.val, nan := true }, x.2) else x

/-! ### Reading an accumulator (R48, R52, R61) -/

/-- The value that R48 reads from a state that is not finite. -/
def Acc.special (a : Acc) : Option (Exact × Flags) :=
  if a.nan then some (.nan, {})
  else if a.pinf && a.ninf then some (.nan, flagInvalid)
  else if a.pinf then some (.inf false, {})
  else if a.ninf then some (.inf true, {})
  else none

/-- The combined scale of an element (R61); an E8M0 scale is always positive and finite (R52): its code 0xFF has set NAN in the
products (R47). -/
def scaleOf (b : Bank) (m n : Nat) : Exact × Flags :=
  let x := b.scalesA.getD m 0
  let y := b.scalesB.getD n 0
  match b.scale with
  | .none => (exactOfInt 1 0, {})
  | .e8m0 => (.fin false 1 ((x : Int) + y - 254) false, {})
  | .fp32 =>
    let (p, f) := mulExact (decodeFloat fmtFp32 x) (decodeFloat fmtFp32 y)
    let (r, g) := roundFloat fmtFp32 .rne p
    (decodeFloat fmtFp32 r, f.or g)

/-- The exact output of a short-format element (R52). -/
def shortOutput (frac : Nat) (a : Acc) (sc : Exact) : Exact × Flags :=
  match a.special with
  | some (v, f) =>
    let (x, g) := mulExact v sc
    (x, f.or g)
  | none =>
    if a.val = 0 then
      match sc with
      | .nan => (.nan, {})
      | .inf _ => (.nan, flagInvalid)
      | .fin _ _ _ _ => (exactOfInt 0 0, {})
    else mulExact (exactOfInt a.val (-(frac : Int))) sc

/-! ### BF16 and FP32 by passes (R53 to R56) -/

/-- The three BF16 pieces of an FP32 value (R55). -/
def piecesBf16 (a : Exact) : Exact × Exact × Exact :=
  let cut (x : Exact) : Exact := decodeFloat fmtBf16 (roundFloat fmtBf16 .rtz x).1
  if a.isNan || a.isInf then (a, exactOfInt 0 0, exactOfInt 0 0)
  else
    let a0 := cut a
    let r := (addExact .rne a a0.negate).1
    let a1 := cut r
    (a0, a1, cut (addExact .rne r a1.negate).1)

/-- The products that enter the group procedure for one element (R53, R56): all the pairs of PASSES, without those that
are zero, infinite or NaN. -/
def elementProducts (ps : Nat) (a b : Exact) : List (Int × Int) :=
  let prod (x y : Exact) : Int × Int := (x.signed.1 * y.signed.1, x.signed.2 + y.signed.2)
  if a.isNan || a.isInf || b.isNan || b.isInf then []
  else
    let all : List (Int × Int) :=
      if ps = 0 then [prod a b]
      else
        let (a0, a1, a2) := piecesBf16 a
        let (b0, b1, b2) := piecesBf16 b
        [prod a0 b0] ++ (if 2 ≤ ps then [prod a0 b1, prod a1 b0] else [])
          ++ (if 3 ≤ ps then [prod a0 b2, prod a1 b1, prod a2 b0] else [])
    all.filter (fun p => decide (p.1 ≠ 0))

/-- floor(log2 |p|) of a product. -/
def productLog (p : Int × Int) : Int := (Nat.log2 p.1.natAbs : Int) + p.2

/-- A product truncated toward zero to a multiple of 2^q (R53 step 3). -/
def alignTo (q : Int) (p : Int × Int) : Int :=
  let m := if q ≤ p.2 then p.1.natAbs * 2 ^ (p.2 - q).toNat else p.1.natAbs / 2 ^ (q - p.2).toNat
  if p.1 < 0 then -(m : Int) else m

/-- A group's sum, rounded once RNE to FP32 (R53 steps 3 and 4). The truncations of step 3, of R55 and of R58 prepare operands and
count as no rounding of R65: they set no flag (DESIGN CHOICE, log entry 32). -/
def groupSum (ps : List (Int × Int)) : Nat × Flags :=
  match ps with
  | [] => (0, {})
  | p :: l =>
    let e := l.foldl (fun m x => if m < productLog x then productLog x else m) (productLog p)
    let q := e - 64
    roundFloat fmtFp32 .rne (exactOfInt ((p :: l).foldl (fun t x => t + alignTo q x) 0) q)

/-- The leaf of a K-block (R53). -/
def leafB32 (ps : Nat) (block : List (Exact × Exact)) : Nat × Flags :=
  let groups := chunksOf 32 (block.length + 1) block
  let sums := groups.map (fun g => groupSum (g.flatMap (fun p => elementProducts ps p.1 p.2)))
  let leaf : Nat × Flags := match sums with
    | [] => (0, {})
    | x :: l => l.foldl (fun a b =>
        let (v, f) := addRounded fmtFp32 .rne a.1 b.1
        (v, (a.2.or b.2).or f)) x
  let state := block.foldl (fun (x : Acc × Flags) p =>
    let (st, f) := productState p.1 p.2
    (x.1.combine st, x.2.or f)) ({}, {})
  match state.1.special with
  | some (v, f) => ((roundFloat fmtFp32 .rne v).1, (leaf.2.or state.2).or f)
  | none => (leaf.1, leaf.2.or state.2)

/-! ### FP64 by slices (R57 to R59) -/

/-- E of R57 for the patterns of a row or column within a K-block. -/
def sharedExponent (l : List Nat) : Int :=
  let field := (l.map (fun x => bitsOf x 52 11)).foldl (fun m f => if f = 2047 then m else Nat.max m f) 0
  (Nat.max field 1 : Nat) - 1023

/-- The magnitude integer of R58, signed. -/
def sliceInt (slices : Nat) (e : Int) (x : Nat) : Int :=
  match decodeFloat fmtFp64 x with
  | .fin neg m q _ =>
    let sh := q + 8 * (slices : Int) - 2 - e
    let v := if 0 ≤ sh then m * 2 ^ sh.toNat else m / 2 ^ (-sh).toNat
    if neg then -(v : Int) else v
  | _ => 0

/-- Digit `i` of R58. -/
def digit (slices i : Nat) (m : Int) : Int :=
  let d := m.natAbs / 2 ^ (8 * (slices - 1 - i)) % 256
  if m < 0 then -(d : Int) else d

/-- What one element adds to J (R59). -/
def sliceProduct (slices : Nat) (a b : Int) : Int :=
  (List.range slices).foldl (fun t i =>
    (List.range (slices - i)).foldl (fun t j =>
      t + digit slices i a * digit slices j b * 2 ^ (8 * (2 * slices - 2 - i - j))) t) 0

/-- The leaf of a K-block (R59). -/
def leafF64 (slices : Nat) (row col : List Nat) : Nat × Flags :=
  let ea := sharedExponent row
  let eb := sharedExponent col
  let ps := List.zip row col
  let j := ps.foldl (fun t p => t + sliceProduct slices (sliceInt slices ea p.1) (sliceInt slices eb p.2)) 0
  let state := ps.foldl (fun (x : Acc × Flags) p =>
    let (st, f) := productState (decodeFloat fmtFp64 p.1) (decodeFloat fmtFp64 p.2)
    (x.1.combine st, x.2.or f)) ({}, {})
  match state.1.special with
  | some (v, f) => ((roundFloat fmtFp64 .rne v).1, state.2.or f)
  | none =>
    let (v, f) := roundFloat fmtFp64 .rne (exactOfInt j (ea + eb - 16 * (slices : Int) + 4))
    (v, state.2.or f)

/-- Elements of a K-block (R26). -/
def kBlock : Nat := 2048

/-- T over the leaves of one dot product (R54, R27). -/
def longDot (fmt ps : Nat) (row col : List Nat) : Nat × Flags :=
  let rows := chunksOf kBlock (row.length + 1) row
  let cols := chunksOf kBlock (col.length + 1) col
  let leaves := (List.zip rows cols).map (fun p =>
    if fmt = 9 then leafF64 ps p.1 p.2
    else leafB32 ps (List.zip (p.1.map (decodeFloat (codeFmt fmt))) (p.2.map (decodeFloat (codeFmt fmt)))))
  let out := treeSum (if fmt = 9 then fmtFp64 else fmtFp32) (leaves.map (·.1))
  (out.1, (Flags.union (leaves.map (·.2))).or out.2)

/-! ### Banks -/

def Tile.bank (x : Tile) (b : Bool) : Bank := if b then x.bank1 else x.bank0

def setBank (t : Nat) (b : Bool) (v : Bank) (s : State) : State :=
  s.modTile t (fun x => if b then { x with bank1 := v } else { x with bank0 := v })

/-- Accumulator keys of a bank. -/
def accKey (m n : Nat) : Nat := 128 * m + n

def Bank.accAt (b : Bank) (m n : Nat) : Acc := Table.get b.dflt b.acc (accKey m n)

/-- The exact value of an element before its one output rounding (R52, R54); elements outside M × N hold their seed. -/
def bankValue (b : Bank) (rm : Rm) (m n : Nat) : Exact × Flags :=
  match b.kind with
  | .short =>
    let (sc, f) := scaleOf b m n
    let (x, g) := shortOutput b.frac (b.accAt m n) sc
    (x, f.or g)
  | k =>
    let fmt := if k = .f64 then fmtFp64 else fmtFp32
    let v := decodeFloat fmt (Table.get 0 b.res (accKey m n))
    match b.bias with
    | none => (v, {})
    | some l =>
      let c := decodeFloat fmt (l.getD n 0)
      if v.isNan then (.nan, {})
      else if b.empty ∨ b.m ≤ m ∨ b.n ≤ n then (c, {}) else addExact rm v c

/-- An accumulator record (R49). -/
def recordOf (frac : Nat) (a : Acc) : List Byte :=
  bytesOf 12 (wrapNat 96 a.val)
    ++ bytesOf 1 ((if a.nan then 1 else 0) + (if a.pinf then 2 else 0) + (if a.ninf then 4 else 0))
    ++ bytesOf 1 frac ++ zeros 2

/-- A record read against a fraction (R49, R50): a malformed one, or one of another F, has NAN set. -/
def accOfRecord (frac : Nat) (b : List Byte) : Acc × Flags :=
  let st := (b.getD 12 0).toNat
  let f := (b.getD 13 0).toNat
  let bad := decide (f ≠ frac) || decide (48 < f) || decide (natOf (slice b 14 2) ≠ 0) || decide (8 ≤ st)
  ({ val := signedOf 96 (natOf (b.take 12)), nan := bitOf st 0 || bad, pinf := bitOf st 1, ninf := bitOf st 2 },
    if bad then flagMismatch else {})

/-- An FP32 value as a record (R51). -/
def accOfFp32 (frac x : Nat) : Acc × Flags :=
  match decodeFloat fmtFp32 x with
  | .nan => ({ nan := true }, {})
  | .inf neg => (if neg then { ninf := true } else { pinf := true }, {})
  | v =>
    let (i, f) := roundInt .rne frac (-(2 ^ 95)) (2 ^ 95 - 1) v
    ({ val := i }, f)

/-! ### Interlocks (R96, R158) -/

/-- The bank a queued or issued instruction uses: MMUL, MDRAIN, MLDB and VACC name one in bit 45. -/
def Entry.bank (e : Entry) : Bool := bitOf e.word 45

/-- Instructions that change a bank: MMUL, MLDB and VACC in MODE 3. -/
def Entry.computes (e : Entry) : Bool :=
  decide (e.opcode = 0x40) || decide (e.opcode = 0x49) || (decide (e.opcode = 0x90) && decide (bitsOf e.word 26 2 = 3))

/-- Instructions that read a bank: MDRAIN and VACC. -/
def Entry.reads (e : Entry) : Bool := decide (e.opcode = 0x48) || decide (e.opcode = 0x90)

/-- Whether an earlier instruction of a kind on the bank has not issued. -/
def earlierQueued (x : Tile) (e : Entry) (f : Entry → Bool) : Bool :=
  (x.queues.matrix ++ x.queues.vector).any (fun q => decide (q.disp < e.disp) && decide (q.bank = e.bank) && f q)

/-- Every earlier compute on the bank is final (R96, R158). -/
def computesFinal (x : Tile) (e : Entry) : Bool :=
  !earlierQueued x e Entry.computes && (x.bank e.bank).finals.all (fun p => decide (e.disp ≤ p.disp))

/-- Every earlier reader of the bank has read it (R96). -/
def readersDone (s : State) (t : Nat) (e : Entry) : Bool :=
  let x := s.tile t
  !earlierQueued x e Entry.reads
    && x.inflight.all (fun f => !(decide (f.entry.disp < e.disp) && decide (f.entry.bank = e.bank)
        && decide (f.entry.opcode = 0x48) && decide (s.now < f.due)))

/-- MODE 3 VACCs before an MMUL are final (R158). -/
def vaccsFinal (x : Tile) (e : Entry) : Bool :=
  (x.bank e.bank).finals.all (fun p => decide (e.disp ≤ p.disp) || !p.vacc)

/-- The MXU and VXU issue nothing in the first k ticks of a block of 64 (R434). -/
def powerReady (s : State) : Bool := decide (s.skip ≤ s.now % 64)

/-- Notes a compute on a bank that becomes final in a tick. -/
def noteFinal (t : Nat) (e : Entry) (tick : Nat) (vacc : Bool) (s : State) : State :=
  let b := (s.tile t).bank e.bank
  setBank t e.bank { b with finals := b.finals ++ [⟨e.disp, tick, vacc⟩] } s

/-- Drops the head of a unit's queue: an instruction that fails a check at issue has no effect (R106). -/
def dropHead (t : Nat) (u : TileUnit) (s : State) : State :=
  s.modTile t (fun x => { x with queues := x.queues.put u ((x.queues.of u).drop 1) })

/-- A check at issue failed (R106). -/
def failIssue (t : Nat) (u : TileUnit) (bit addr : Nat) (e : Entry) (s : State) : State :=
  raiseExc t bit e.at_ e.disp addr (dropHead t u s)

/-! ### MMUL -/

/-- K_t of R94. -/
def mxuTicks (ca cb ps k : Nat) : Nat :=
  if ca = 0 ∧ cb = 0 then (k + 1) / 2
  else if ca ≤ 5 then k
  else if ca = 6 ∨ ca = 7 then 2 * k
  else if ca = 8 then (if ps = 1 then 2 * k else if ps = 2 then 6 * k else 12 * k)
  else ps * (ps + 1) / 2 * k + 32 * ((k + 2047) / 2048)

/-- The fields of an MMUL. -/
structure Mmul where
  seed : Nat
  ca : Nat
  cb : Nat
  sck : Nat
  ps : Nat
  isOpen : Bool
  cont : Bool
  k : Nat
  m : Nat
  n : Nat
  atr : Bool
  btr : Bool
  deriving DecidableEq, Repr

def mmulOf (e : Entry) : Mmul where
  seed := bitsOf e.word 43 2
  ca := bitsOf e.word 39 4
  cb := bitsOf e.word 35 4
  sck := bitsOf e.word 33 2
  ps := bitsOf e.word 29 4
  isOpen := bitOf e.word 28
  cont := bitOf e.word 27
  k := bitsOf e.word 0 24
  m := bitsOf e.ext 57 7 + 1
  n := bitsOf e.ext 50 7 + 1
  atr := bitOf e.ext 24
  btr := bitOf e.ext 23

/-- Whether the bank's open chain is the one a CONT = 1 MMUL continues (R125). -/
def continues (b : Bank) (p : Mmul) : Bool :=
  match b.chain with
  | some c => decide (c.fmtA = p.ca) && decide (c.fmtB = p.cb) && decide (c.ps = p.ps) && decide (c.m = p.m) && decide (c.n = p.n)
  | none => false

/-- A list of 128 values: those given, then open ones, for the rows and columns of the array that the operand does not
reach: one open value for each place, the same on every run and every node (R20, R39; log entry 22). -/
def padOpen (kind mod : Nat) (l : List Nat) : List Nat :=
  l ++ (List.range (128 - l.length)).map (fun i => Config.beyondOperand kind (l.length + i) % mod)

/-- The accumulators a BANK seed finds (R127): of another kind, integer 0 with NAN; of another F, NAN set. -/
def seedBank (b : Bank) (f : Nat) : Acc × Table Acc × Flags :=
  if b.kind ≠ .short then ({ nan := true }, [], flagMismatch)
  else if b.frac ≠ f then
    ({ b.dflt with nan := true }, b.acc.map (fun e => (e.1, { e.2 with nan := true })), flagMismatch)
  else (b.dflt, b.acc, {})

/-- A short-format MMUL (R45 to R51, R61, R123, R127). With K = 0 and SEED = BANK a bank of another kind or F takes what R127 says of
such a bank, NAN and ACC_MISMATCH, though R135 calls the bank unchanged (DESIGN CHOICE, log entry 32). -/
def mmulShort (t : Nat) (e : Entry) (p : Mmul) (a b : List (List Nat)) (s : State) : State :=
  let old := (s.tile t).bank e.bank
  let f := fracOf p.ca + fracOf p.cb
  let sw := if p.sck = 1 then 1 else 4
  let sa := if p.sck = 0 then [] else arrayOf s t (e.addr 2).val sw p.m
  let sb := if p.sck = 0 then [] else arrayOf s t (e.addr 3).val sw p.n
  let (dflt, acc, fl) := if p.seed = 1 then seedBank old f else (({} : Acc), [], ({} : Flags))
  let nanScale (x : Nat) : Bool := decide (p.sck = 1) && decide (x = 255)
  let out := (List.range p.m).foldl (fun (x : Table Acc × Flags) i =>
    (List.range p.n).foldl (fun (x : Table Acc × Flags) j =>
      let (v, g) := shortDot p.ca p.cb (nanScale (sa.getD i 0) || nanScale (sb.getD j 0)) (Table.get dflt acc (accKey i j))
        (a.getD i []) (b.getD j [])
      (Table.set dflt x.1 (accKey i j) v, x.2.or g)) x) (acc, fl)
  let mod := if p.sck = 1 then 256 else 2 ^ 32
  let bank : Bank := {
    kind := .short, frac := f, dflt := dflt, acc := out.1,
    scale := (if p.sck = 0 then .none else if p.sck = 1 then .e8m0 else .fp32),
    scalesA := (if p.sck = 0 then [] else padOpen 0 mod sa),
    scalesB := (if p.sck = 0 then [] else padOpen 1 mod sb), finals := old.finals }
  setFlags t out.2 (setBank t e.bank bank s)

/-- A BF16, FP32 or FP64 MMUL (R53 to R59, R124 to R127): the chain goes on, or closes. -/
def mmulLong (t : Nat) (e : Entry) (p : Mmul) (a b : List (List Nat)) (s : State) : State :=
  let old := (s.tile t).bank e.bank
  let join (x y : List (List Nat)) : List (List Nat) := if x.isEmpty then y else List.zipWith (· ++ ·) x y
  let prev := if p.cont then old.chain else none
  let rows := join ((prev.map (·.rows)).getD []) a
  let cols := join ((prev.map (·.cols)).getD []) b
  let kind : BankKind := if p.ca = 9 then .f64 else .b32
  if p.isOpen then
    setBank t e.bank { kind := kind, chain := some ⟨p.ca, p.cb, p.ps, p.m, p.n, rows, cols⟩, finals := old.finals } s
  else
    let out := (List.range p.m).foldl (fun (x : Table Nat × Flags) i =>
      (List.range p.n).foldl (fun (x : Table Nat × Flags) j =>
        let (v, g) := longDot p.ca p.ps (rows.getD i []) (cols.getD j [])
        (Table.set 0 x.1 (accKey i j) v, x.2.or g)) x) ([], {})
    let w := if p.ca = 9 then 8 else 4
    let bias := if p.seed = 2 then
        some (padOpen 2 (2 ^ (8 * w)) (arrayOf s t (e.addr 4).val w p.n)) else none
    let bank : Bank := {
      kind := kind, res := out.1, m := p.m, n := p.n, bias := bias, empty := (rows.headD []).isEmpty,
      finals := old.finals }
    setFlags t out.2 (setBank t e.bank bank s)

/-- The bytes an MMUL reads, checked against the end of SRAM (R110): whole bricks, the positions beyond M, N and K among them (DESIGN
CHOICE, log entry 49). -/
def mmulBounds (t : Nat) (e : Entry) (p : Mmul) (s : State) : State :=
  let s := boundRead t e (e.addr 0).val (operandBytes (codeWidth p.ca) p.m p.k) s
  let s := boundRead t e (e.addr 1).val (operandBytes (codeWidth p.cb) p.n p.k) s
  let sw := if p.sck = 1 then 1 else 4
  let s := if p.sck = 0 then s
    else boundRead t e (e.addr 3).val (sw * p.n) (boundRead t e (e.addr 2).val (sw * p.m) s)
  if p.seed = 2 ∧ ¬ p.isOpen then boundRead t e (e.addr 4).val ((if p.ca = 9 then 8 else 4) * p.n) s else s

/-- MMUL issues (R121 to R127): the chain's check, BANK_OPEN, the occupancy of R94, and the sums. -/
def runMmul (t : Nat) (e : Entry) (s : State) : State :=
  let p := mmulOf e
  let b := (s.tile t).bank e.bank
  if p.cont && !continues b p then failIssue t .matrix excILLEGAL_OP 0 e s
  else
    let kt := mxuTicks p.ca p.cb p.ps p.k
    let free := issueEnd s.skip s.now kt
    let last := if kt = 0 then s.now else free - 1
    let s := issued t .matrix e 0 last s
    let s := s.modTile t (fun x => { x with mxuFree := free })
    let s := if !p.cont && b.chain.isSome then raiseExc t excBANK_OPEN e.at_ e.disp 0 s else s
    let s := mmulBounds t e p s
    let a := operandLanes s t (e.addr 0).val (codeWidth p.ca) p.m p.k (!p.atr)
    let c := operandLanes s t (e.addr 1).val (codeWidth p.cb) p.n p.k p.btr
    let s := if p.ca ≤ 6 then mmulShort t e p a c s else mmulLong t e p a c s
    noteFinal t e (last + 256) false s

/-- Whether an MMUL or MLDB may issue as far as the MXU and its bank go (R94, R96, R158, R434). -/
def mxuReady (s : State) (t : Nat) (e : Entry) : Bool :=
  let x := s.tile t
  decide (x.mxuFree ≤ s.now) && powerReady s && readersDone s t e && vaccsFinal x e

def issueMmul (t : Nat) (e : Entry) (s : State) : State := if mxuReady s t e then runMmul t e s else s

/-- MMUL (R121). -/
def execMmul (t : Nat) (s : State) : Host.Outcome State Fault Refusal := unitRow .matrix 0x40 t (issueMmul t) s

/-! ### BANK_FINAL (R95) -/

/-- The computes of a bank whose tick has come become final. -/
def finalize (t : Nat) (b : Bool) (s : State) : State :=
  let x := (s.tile t).bank b
  setBank t b { x with finals := x.finals.filter (fun p => decide (s.now < p.due)) } s

/-- BANK_FINAL (R95): 256 ticks after the last operand read, 4 after a MODE 3 VACC. -/
def execBankFinal (t : Nat) (b : Bool) (s : State) : Host.Outcome State Fault Refusal :=
  act (((s.tile t).bank b).finals.any (fun p => decide (p.due ≤ s.now))) (finalize t b) s

/-! ### MDRAIN (R97, R126, R128, R129) -/

/-- The rounding mode of an RM code; `r` is the element's random value under code 4 (R62). -/
def rmOf (code r : Nat) : Rm :=
  match code with
  | 0 => .rne
  | 1 => .rtz
  | 2 => .rdn
  | 3 => .rup
  | _ => .sr r

/-- The stochastic rounding descriptor (R129): seed, tensor, row origin, column origin. -/
structure Descriptor where
  seed : Nat
  tensor : Nat
  row : Nat
  col : Nat
  deriving DecidableEq, Repr

def readDescriptor (s : State) (t off : Nat) : Descriptor :=
  let w (i : Nat) : Nat := natOf (localBytes s t (off + 4 * i) 4)
  ⟨w 0, w 1, w 2, w 3⟩

/-- The random value of an element (R67, R129). -/
def Descriptor.random (d : Descriptor) (step : Word) (r c : Nat) : Nat :=
  randomBits d.seed d.tensor step ((d.row + r) % 2 ^ 32) ((d.col + c) % 2 ^ 32)

/-- An exact value written in an output format code (R52, R64). -/
def encodeCode (fmt : Nat) (rm : Rm) (x : Exact) : Nat × Flags :=
  if fmt = 0xA then
    let (v, f) := roundInt rm 0 (-(2 ^ 31)) (2 ^ 31 - 1) x
    (wrapNat 32 v, f)
  else roundFloat (codeFmt fmt) rm x

/-- The output formats a bank's kind allows (R128). -/
def drainLegal (b : Bank) (fmt : Nat) (rec : Bool) : Bool :=
  match b.kind with
  | .short => rec || decide (fmt = 8) || decide (fmt = 7) || decide (fmt = 6)
      || (decide (fmt = 0xA) && decide (b.frac = 0) && decide (b.scale = .none))
  | .b32 => !rec && (decide (fmt = 8) || decide (fmt = 7) || decide (fmt = 6))
  | .f64 => !rec && (decide (fmt = 9) || decide (fmt = 8))

/-- What a record read of an open bank delivers (R126, R158): integer 0 with NAN set and the bank's F. -/
def openRecord (b : Bank) : List Byte := recordOf b.frac { nan := true }

/-- One output element of a drain: its bytes and flags. -/
def drainElement (b : Bank) (fmt code : Nat) (rec : Bool) (rnd : Nat → Nat → Nat) (m n : Nat) : List Byte × Flags :=
  if rec then (if b.chain.isSome then openRecord b else recordOf b.frac (b.accAt m n), {})
  else if b.chain.isSome then
    let (v, f) := encodeCode fmt .rne .nan
    (bytesOf (codeWidth fmt / 8) v, f)
  else
    let rm := rmOf code (rnd m n)
    let (x, f) := bankValue b rm m n
    let (v, g) := encodeCode fmt rm x
    (bytesOf (codeWidth fmt / 8) v, f.or g)

/-- The brick of a row block and a column block. -/
def drainBrick (b : Bank) (fmt code : Nat) (rec : Bool) (rnd : Nat → Nat → Nat) (i j : Nat) : List Byte × Flags :=
  let l := (List.range 32).flatMap (fun r => (List.range 32).map (fun c =>
    drainElement b fmt code rec rnd (32 * i + r) (32 * j + c)))
  (l.flatMap (·.1), Flags.union (l.map (·.2)))

/-- The 16 bricks of a drain at an offset (R128). -/
def drainAll (t : Nat) (e : Entry) (b : Bank) (fmt code : Nat) (rec : Bool) (rnd : Nat → Nat → Nat) (off : Nat)
    (s : State) : State :=
  let size := if rec then 16384 else brickBytes (codeWidth fmt)
  let s := boundCheck t e off (16 * size) s
  forEach (List.range 16) (fun k s =>
    let (data, f) := drainBrick b fmt code rec rnd (k / 4) (k % 4)
    setFlags t f (localSectors t e (off + size * k) data (size / 32) s)) s

/-- MDRAIN issues. -/
def runMdrain (t : Nat) (e : Entry) (s : State) : State :=
  let b := (s.tile t).bank e.bank
  let fmt := bitsOf e.word 41 4
  let rec_ := bitOf e.word 40
  let code := bitsOf e.word 37 3
  let gsr := (e.addr 1).val
  if drainLegal b fmt rec_ = false then failIssue t .matrix excILLEGAL_OP 0 e s
  else if code = 4 ∧ gsr % 32 ≠ 0 then failIssue t .matrix excMISALIGNED gsr e s
  else
    let s := issued t .matrix e 0 (s.now + (if rec_ then 256 else 128)) s
    let s := if b.chain.isSome then raiseExc t excBANK_OPEN e.at_ e.disp 0 s else s
    let s := if code = 4 then boundRead t e gsr 32 s else s
    let d := readDescriptor s t gsr
    let step := s.getReg (regAddr .synStep)
    drainAll t e b fmt code rec_ (fun r c => if code = 4 then d.random step r c else 0) (e.addr 0).val s

def issueMdrain (t : Nat) (e : Entry) (s : State) : State :=
  if powerReady s && computesFinal (s.tile t) e then runMdrain t e s else s

/-- MDRAIN (R128). -/
def execMdrain (t : Nat) (s : State) : Host.Outcome State Fault Refusal := unitRow .matrix 0x48 t (issueMdrain t) s

/-! ### MLDB (R130) -/

/-- The bytes MLDB reads for the element at a row and column: record bricks, one row of FP32, or FP32 bricks. -/
def mldbElement (s : State) (t off src frac m n : Nat) : Acc × Flags :=
  let i := 1024 * (4 * (m / 32) + n / 32) + 32 * (m % 32) + n % 32
  if src = 0 then accOfRecord frac (localBytes s t (off + 16 * i) 16)
  else if src = 1 then accOfFp32 frac (natOf (localBytes s t (off + 4 * n) 4))
  else accOfFp32 frac (natOf (localBytes s t (off + 4 * i) 4))

/-- MLDB issues. The last MMUL on the bank stays what it was, so a chain it left open stays open (R126; log entry 23). -/
def runMldb (t : Nat) (e : Entry) (s : State) : State :=
  let src := bitsOf e.word 43 2
  let frac := bitsOf e.word 37 6
  let off := (e.addr 0).val
  let ticks := if src = 0 then 256 else 128
  let old := (s.tile t).bank e.bank
  let free := issueEnd s.skip s.now ticks
  let s := issued t .matrix e 0 (free - 1) s
  let s := s.modTile t (fun x => { x with mxuFree := free })
  let s := boundRead t e off (if src = 0 then 262144 else if src = 1 then 512 else 65536) s
  let out := (List.range 16384).foldl (fun (x : Table Acc × Flags) k =>
    let (v, f) := mldbElement s t off src frac (k / 128) (k % 128)
    (Table.set {} x.1 k v, x.2.or f)) ([], {})
  let s := setBank t e.bank
    { kind := .short, frac := frac, acc := out.1, chain := old.chain, finals := old.finals } s
  noteFinal t e (free - 1 + 256) false (setFlags t out.2 s)

def issueMldb (t : Nat) (e : Entry) (s : State) : State := if mxuReady s t e then runMldb t e s else s

/-- MLDB (R130). -/
def execMldb (t : Nat) (s : State) : Host.Outcome State Fault Refusal := unitRow .matrix 0x49 t (issueMldb t) s

end Sys2Proof.Machine
end

