-- ==== Sys2Proof/Machine/Pages.lean ====
section
/-! DEFINITION. The one-page state items of a cut (R338) as bytes. The spec names what each page holds and gives no byte layout:
the layout here is the model's (log entry 46), and only this file knows it. What a page spells is read back as it was, so a
restore brings back what the cut held (R350). -/

namespace Sys2Proof.Machine

/-- How values of a type are written to bytes, and read back from the front of bytes. -/
structure Codec (α : Type) where
  put : α → List Byte
  get : List Byte → Option (α × List Byte)

/-! ### Combinators -/

/-- A number in groups of 7 bits, the lowest first; the top bit of a byte tells that more follow. -/
def putNat : Nat → Nat → List Byte
  | 0, _ => [0]
  | n + 1, x => if x < 128 then [BitVec.ofNat 8 x] else BitVec.ofNat 8 (x % 128 + 128) :: putNat n (x / 128)

def getNat : List Byte → Option (Nat × List Byte)
  | [] => none
  | b :: r => if b.toNat < 128 then some (b.toNat, r) else (getNat r).map (fun p => (b.toNat - 128 + 128 * p.1, p.2))

def Codec.nat : Codec Nat := ⟨fun x => putNat x x, getNat⟩

/-- A value told by another one. -/
def Codec.iso {α β : Type} (c : Codec α) (f : β → α) (g : α → β) : Codec β :=
  ⟨fun b => c.put (f b), fun l => (c.get l).map (fun p => (g p.1, p.2))⟩

def Codec.unit : Codec Unit := ⟨fun _ => [], fun l => some ((), l)⟩

def Codec.pair {α β : Type} (c : Codec α) (d : Codec β) : Codec (α × β) :=
  ⟨fun p => c.put p.1 ++ d.put p.2,
   fun l => match c.get l with
    | some (a, r) => (d.get r).map (fun p => ((a, p.1), p.2))
    | none => none⟩

def Codec.sum {α β : Type} (c : Codec α) (d : Codec β) : Codec (α ⊕ β) :=
  ⟨fun x => match x with
    | .inl a => 0 :: c.put a
    | .inr b => 1 :: d.put b,
   fun l => match l with
    | [] => none
    | t :: r => if t = 0 then (c.get r).map (fun p => (.inl p.1, p.2)) else (d.get r).map (fun p => (.inr p.1, p.2))⟩

/-- `n` values, one after the other. -/
def getMany {α : Type} (c : Codec α) : Nat → List Byte → Option (List α × List Byte)
  | 0, l => some ([], l)
  | n + 1, l => match c.get l with
    | some (a, r) => (getMany c n r).map (fun p => (a :: p.1, p.2))
    | none => none

def Codec.list {α : Type} (c : Codec α) : Codec (List α) :=
  ⟨fun l => putNat l.length l.length ++ l.flatMap c.put,
   fun l => match getNat l with
    | some (n, r) => getMany c n r
    | none => none⟩

def Codec.bool : Codec Bool := Codec.nat.iso Bool.toNat (fun n => decide (n = 1))

def Codec.bits (w : Nat) : Codec (BitVec w) := Codec.nat.iso BitVec.toNat (BitVec.ofNat w)

def Codec.int : Codec Int :=
  (Codec.sum Codec.nat Codec.nat).iso
    (fun x => match x with
      | .ofNat n => .inl n
      | .negSucc n => .inr n)
    (fun x => match x with
      | .inl n => .ofNat n
      | .inr n => .negSucc n)

def Codec.opt {α : Type} (c : Codec α) : Codec (Option α) :=
  (Codec.sum Codec.unit c).iso
    (fun x => match x with
      | none => .inl ()
      | some a => .inr a)
    (fun x => match x with
      | .inl _ => none
      | .inr a => some a)

def Codec.table {α : Type} (c : Codec α) : Codec (Table α) := Codec.list (Codec.pair Codec.nat c)

/-! ### Tallies, words and queue entries -/

def Codec.tally : Codec Tally := (Codec.pair Codec.nat Codec.bool).iso (fun t => (t.count, t.err)) (fun p => ⟨p.1, p.2⟩)

def Codec.tallies : Codec (List Tally) := Codec.list Codec.tally

def Codec.addr : Codec Addr := (Codec.pair Codec.nat Codec.bool).iso (fun a => (a.val, a.glb)) (fun p => ⟨p.1, p.2⟩)

def Codec.entry : Codec Entry :=
  (Codec.pair Codec.nat (Codec.pair Codec.nat (Codec.pair Codec.nat (Codec.pair Codec.nat (Codec.list Codec.addr))))).iso
    (fun e => (e.disp, e.at_, e.word, e.ext, e.addrs)) (fun (d, a, w, x, l) => ⟨d, a, w, x, l⟩)

def Codec.entries : Codec (List Entry) := Codec.list Codec.entry

def Codec.queues : Codec Queues :=
  (Codec.pair Codec.entries (Codec.pair Codec.entries (Codec.pair Codec.entries (Codec.pair Codec.entries Codec.entries)))).iso
    (fun q => (q.load, q.matrix, q.vector, q.store, q.sync)) (fun (l, m, v, st, y) => ⟨l, m, v, st, y⟩)

def Codec.loop : Codec Loop :=
  (Codec.pair Codec.nat (Codec.pair Codec.nat (Codec.pair Codec.nat Codec.nat))).iso
    (fun l => (l.at_, l.last, l.left, l.iter)) (fun (a, b, c, d) => ⟨a, b, c, d⟩)

def Codec.call : Codec Call := (Codec.pair Codec.nat Codec.nat).iso (fun c => (c.at_, c.depth)) (fun p => ⟨p.1, p.2⟩)

def Codec.gen : Codec Gen :=
  (Codec.pair Codec.nat (Codec.pair Codec.bool (Codec.pair Codec.nat (Codec.pair Codec.nat (Codec.pair Codec.nat Codec.nat))))).iso
    (fun g => (g.base, g.glb, g.s0, g.s1, g.s2, g.s3)) (fun (b, g, p, q, r, t) => ⟨b, g, p, q, r, t⟩)

def Codec.syncWait : Codec SyncWait :=
  (Codec.sum (Codec.pair Codec.nat (Codec.pair Codec.nat Codec.entry)) (Codec.pair Codec.nat Codec.entry)).iso
    (fun w => match w with
      | .tally i d e => .inl (i, d, e)
      | .hurdle h e => .inr (h, e))
    (fun w => match w with
      | .inl (i, d, e) => .tally i d e
      | .inr (h, e) => .hurdle h e)

/-! ### Banks -/

def Codec.bankKind : Codec BankKind :=
  Codec.nat.iso
    (fun k => match k with
      | .short => 0
      | .b32 => 1
      | .f64 => 2)
    (fun n => if n = 0 then .short else if n = 1 then .b32 else .f64)

def Codec.scaleKind : Codec ScaleKind :=
  Codec.nat.iso
    (fun k => match k with
      | .none => 0
      | .e8m0 => 1
      | .fp32 => 2)
    (fun n => if n = 0 then .none else if n = 1 then .e8m0 else .fp32)

def Codec.acc : Codec Acc :=
  (Codec.pair Codec.int (Codec.pair Codec.bool (Codec.pair Codec.bool Codec.bool))).iso
    (fun a => (a.val, a.nan, a.pinf, a.ninf)) (fun (v, n, p, m) => ⟨v, n, p, m⟩)

def Codec.rows : Codec (List (List Nat)) := Codec.list (Codec.list Codec.nat)

def Codec.chain : Codec Chain :=
  (Codec.pair Codec.nat (Codec.pair Codec.nat (Codec.pair Codec.nat (Codec.pair Codec.nat (Codec.pair Codec.nat
    (Codec.pair Codec.rows Codec.rows)))))).iso
    (fun c => (c.fmtA, c.fmtB, c.ps, c.m, c.n, c.rows, c.cols)) (fun (a, b, p, m, n, r, c) => ⟨a, b, p, m, n, r, c⟩)

/-- A bank whole, but for the times at which its computes become final: at a cut they all are (R103, R336). -/
def Codec.bank : Codec Bank :=
  (Codec.pair Codec.bankKind (Codec.pair Codec.nat (Codec.pair Codec.scaleKind (Codec.pair (Codec.list Codec.nat)
    (Codec.pair (Codec.list Codec.nat) (Codec.pair Codec.acc (Codec.pair (Codec.table Codec.acc) (Codec.pair (Codec.table Codec.nat)
    (Codec.pair Codec.nat (Codec.pair Codec.nat (Codec.pair (Codec.opt (Codec.list Codec.nat)) (Codec.pair Codec.bool
    (Codec.opt Codec.chain))))))))))))).iso
    (fun b => (b.kind, b.frac, b.scale, b.scalesA, b.scalesB, b.dflt, b.acc, b.res, b.m, b.n, b.bias, b.empty, b.chain))
    (fun (k, f, sc, sa, sb, d, a, r, m, n, bi, em, ch) =>
      { kind := k, frac := f, scale := sc, scalesA := sa, scalesB := sb, dflt := d, acc := a, res := r, m := m, n := n,
        bias := bi, empty := em, chain := ch })

/-- What the page of the rest holds of a bank: all but the contents, which have pages of their own. -/
def Bank.bare (b : Bank) : Bank :=
  { b with acc := [], res := [], finals := [], chain := b.chain.map (fun c => { c with rows := [], cols := [] }) }

/-! ### The rest of a tile -/

/-- What R338 has the page of a tile hold, of the tile itself. -/
def Tile.kept (x : Tile) : Tile :=
  { fetch := x.fetch, ended := x.ended, disp := x.disp, loops := x.loops, calls := x.calls, gens := x.gens, queues := x.queues,
    credits := x.credits, marks := x.marks, pendingH := x.pendingH,
    inflight := (x.inflight.filter (fun f => decide (f.unit = .sync))).map (fun f => { f with due := 0 }),
    wait := x.wait, bank0 := x.bank0.bare, bank1 := x.bank1.bare, vregs := x.vregs }

/-- A tile as `Tile.kept` leaves it. A sync instruction in flight is its entry and whether its wait is still to be met. -/
def Codec.tile : Codec Tile :=
  (Codec.pair Codec.nat (Codec.pair Codec.bool (Codec.pair Codec.nat (Codec.pair (Codec.list Codec.loop)
    (Codec.pair (Codec.list Codec.call) (Codec.pair (Codec.table Codec.gen) (Codec.pair Codec.queues
    (Codec.pair (Codec.table Codec.nat) (Codec.pair (Codec.table Codec.nat) (Codec.pair (Codec.table Codec.bool)
    (Codec.pair (Codec.list (Codec.pair Codec.entry Codec.nat)) (Codec.pair (Codec.opt Codec.syncWait) (Codec.pair Codec.bank (Codec.pair Codec.bank
    (Codec.table Codec.nat))))))))))))))).iso
    (fun x => (x.fetch, x.ended, x.disp, x.loops, x.calls, x.gens, x.queues, x.credits, x.marks, x.pendingH,
      x.inflight.map (fun f => (f.entry, f.left)), x.wait, x.bank0, x.bank1, x.vregs))
    (fun (f, en, d, lo, ca, ge, q, cr, ma, pe, fl, w, b0, b1, v) =>
      { fetch := f, ended := en, disp := d, loops := lo, calls := ca, gens := ge, queues := q, credits := cr, marks := ma,
        pendingH := pe, inflight := fl.map (fun e => { unit := .sync, entry := e.1, left := e.2, due := 0 }), wait := w, bank0 := b0,
        bank1 := b1, vregs := v })

/-- The page of the rest of a tile: its registers, the 192 tallies, TIL_FLAGS (R338). -/
def Codec.tilePage : Codec (Tile × List Tally × Word) := Codec.pair Codec.tile (Codec.pair Codec.tallies (Codec.bits 64))

/-! ### Cores -/

def Codec.coreWait : Codec CoreWait :=
  (Codec.sum (Codec.pair Codec.nat Codec.nat) (Codec.sum Codec.nat (Codec.sum (Codec.pair Codec.nat (Codec.pair Codec.bool Codec.bool))
    (Codec.sum (Codec.pair (Codec.opt Codec.nat) (Codec.pair Codec.nat Codec.nat)) (Codec.sum Codec.unit Codec.unit))))).iso
    (fun w => match w with
      | .tally i d => .inl (i, d)
      | .hurdle h => .inr (.inl h)
      | .arrive h t st => .inr (.inr (.inl (h, t, st)))
      | .credit n t a => .inr (.inr (.inr (.inl (n, t, a))))
      | .load => .inr (.inr (.inr (.inr (.inl ()))))
      | .clean => .inr (.inr (.inr (.inr (.inr ())))))
    (fun w => match w with
      | .inl (i, d) => .tally i d
      | .inr (.inl h) => .hurdle h
      | .inr (.inr (.inl (h, t, st))) => .arrive h t st
      | .inr (.inr (.inr (.inl (n, t, a)))) => .credit n t a
      | .inr (.inr (.inr (.inr (.inl _)))) => .load
      | .inr (.inr (.inr (.inr (.inr _)))) => .clean)

def Codec.imsic : Codec Imsic :=
  (Codec.pair Codec.nat (Codec.pair Codec.nat (Codec.pair Codec.nat Codec.nat))).iso
    (fun i => (i.pend, i.enab, i.delivery, i.thresh)) (fun (p, e, d, t) => ⟨p, e, d, t⟩)

/-- The numbers among the CSRs, in the order of their fields. -/
def Csrs.numbers (c : Csrs) : List Nat :=
  [c.mstatus, c.mtvec, c.medeleg, c.mideleg, c.mie, c.mip, c.mscratch, c.mepc, c.mcause, c.mtval, c.mcounteren, c.mcountinhibit,
   c.menvcfg, c.stvec, c.sscratch, c.sepc, c.scause, c.stval, c.scounteren, c.senvcfg, c.satp, c.mcycle, c.minstret, c.fcsr,
   c.mlerr, c.miselect, c.siselect]

/-- The CSRs of their numbers and the two tables of PMP. -/
def csrsOf (n : List Nat) (cfg addr : Table Nat) : Csrs :=
  let g (i : Nat) : Nat := n.getD i 0
  { mstatus := g 0, mtvec := g 1, medeleg := g 2, mideleg := g 3, mie := g 4, mip := g 5, mscratch := g 6, mepc := g 7,
    mcause := g 8, mtval := g 9, mcounteren := g 10, mcountinhibit := g 11, menvcfg := g 12, stvec := g 13, sscratch := g 14,
    sepc := g 15, scause := g 16, stval := g 17, scounteren := g 18, senvcfg := g 19, satp := g 20, pmpcfg := cfg,
    pmpaddr := addr, mcycle := g 21, minstret := g 22, fcsr := g 23, mlerr := g 24, miselect := g 25, siselect := g 26 }

def Codec.csrs : Codec Csrs :=
  (Codec.pair (Codec.list Codec.nat) (Codec.pair (Codec.table Codec.nat) (Codec.table Codec.nat))).iso
    (fun c => (c.numbers, c.pmpcfg, c.pmpaddr)) (fun (n, c, a) => csrsOf n c a)

/-- What R338 has the page of a core hold, of the core itself: its caches are not copied. -/
def Core.kept (x : Core) : Core := { x with held := true, paused := false, started := false, icache := [] }

/-- A core as `Core.kept` leaves it. -/
def Codec.core : Codec Core :=
  (Codec.pair (Codec.bits 64) (Codec.pair (Codec.table (Codec.bits 64)) (Codec.pair (Codec.table Codec.nat)
    (Codec.pair (Codec.table Codec.nat) (Codec.pair Codec.nat (Codec.pair Codec.nat (Codec.pair Codec.nat (Codec.pair Codec.nat
    (Codec.pair Codec.nat (Codec.pair Codec.csrs (Codec.pair (Codec.table Codec.nat) (Codec.pair (Codec.table Codec.bool)
    (Codec.pair (Codec.opt Codec.coreWait) (Codec.pair (Codec.opt Codec.nat)
    (Codec.pair (Codec.opt (Codec.pair Codec.nat (Codec.pair Codec.nat Codec.nat))) (Codec.pair Codec.imsic
    (Codec.pair Codec.imsic Codec.bool))))))))))))))))).iso
    (fun x => (x.pc, x.x, x.v, x.p, x.vl, x.sew, x.group, x.lvstart, x.priv, x.csr, x.marks, x.pendingH, x.wait, x.posted,
      x.loadErr, x.imsicM, x.imsicS, x.wfi))
    (fun (pc, xr, v, p, vl, sew, gr, ls, pr, csr, ma, pe, w, po, le, im, is, wfi) =>
      { held := true, paused := false, started := false, pc := pc, x := xr, v := v, p := p, vl := vl, sew := sew, group := gr,
        lvstart := ls, priv := pr, csr := csr, marks := ma, pendingH := pe, wait := w, posted := po, loadErr := le, icache := [],
        imsicM := im, imsicS := is, wfi := wfi })

/-- The page of a core: its registers and its 192 tallies (R338). -/
def Codec.corePage : Codec (Core × List Tally) := Codec.pair Codec.core Codec.tallies

/-! ### Engines, SYN and the directory -/

def Codec.marWait : Codec MarWait :=
  (Codec.sum (Codec.pair Codec.nat Codec.nat) (Codec.sum Codec.nat (Codec.pair Codec.nat Codec.bool))).iso
    (fun w => match w with
      | .tally i d => .inl (i, d)
      | .hurdle h => .inr (.inl h)
      | .arrive h t => .inr (.inr (h, t)))
    (fun w => match w with
      | .inl (i, d) => .tally i d
      | .inr (.inl h) => .hurdle h
      | .inr (.inr (h, t)) => .arrive h t)

/-- What R338 has the page of an engine hold: whether it is STOPPED, its command position and system, marks, pending bits and
the wait it is in. -/
def Engine.kept (x : Engine) : Engine :=
  { state := if x.state = .stopped then .stopped else .idle, cmd := x.cmd, sys := x.sys, marks := x.marks,
    pendingH := x.pendingH, wait := x.wait }

/-- An engine as `Engine.kept` leaves it. -/
def Codec.engine : Codec Engine :=
  (Codec.pair Codec.bool (Codec.pair Codec.nat (Codec.pair Codec.nat (Codec.pair (Codec.table Codec.nat)
    (Codec.pair (Codec.table Codec.bool) (Codec.opt Codec.marWait)))))).iso
    (fun x => (decide (x.state = .stopped), x.cmd, x.sys, x.marks, x.pendingH, x.wait))
    (fun (st, c, y, m, p, w) =>
      { state := if st then .stopped else .idle, cmd := c, sys := y, marks := m, pendingH := p, wait := w })

/-- The page of the rest of an engine, with its 256 tallies (R338). -/
def Codec.enginePage : Codec (Engine × List Tally) := Codec.pair Codec.engine Codec.tallies

/-- The SYN page: tallies and SYN_STEP (R338). -/
def Codec.synPage : Codec (List Tally × Word) := Codec.pair Codec.tallies (Codec.bits 64)

/-- The directory: kind, index and first page of every item (R338). -/
def Codec.directory : Codec (List (Nat × Nat × Nat)) := Codec.list (Codec.pair Codec.nat (Codec.pair Codec.nat Codec.nat))

/-- What bytes spell; where they do not keep the layout, a free value of theirs. -/
def Codec.read {α : Type} (c : Codec α) (foreign : List Byte → α) (b : List Byte) : α :=
  match c.get b with
  | some (a, _) => a
  | none => foreign b

end Sys2Proof.Machine
end

