-- ==== Sys2Proof/Machine/Ckp.lean ====
section
/-! DEFINITION. The checkpoint engine (chapter 14): the eager copy, pages copied out and sheared, seals, the commit of the
cut policy, and the launch image, with the meanings of their commands. -/

namespace Sys2Proof.Machine

def pageSize : Nat := 0x10000

/-- Bytes that fill one page. -/
def onePage (b : List Byte) : List Byte := (padTo pageSize b).take pageSize

/-! ### The engine's own reads and writes (R208 to R222) -/

/-- Whether the engine's own access to `n` sectors of stacked memory waits: its stack calibrates, or a request of class REQ for one of
its pseudo-channels is ready (R214, R218). -/
def snapWaits (s : State) (a n : Nat) : Bool :=
  decide (a < 0x8000000000) && ((calibrating s && stackBusy s a n)
    || s.delivered.zipIdx.any (fun e =>
      decide (576 ≤ e.1.ep) && decide (e.1.ep < 608) && decide (e.1.pkt.cls = clsREQ) && addressOp e.1.pkt.opcode
        && (channelsOf s e.1.pkt.offset e.1.pkt.sectors).any (fun c => (channelsOf s a n).elem c) && readyAtPort s e.2 e.1))

/-- Whether an access to any of stacked memory would wait. -/
def snapBusy (s : State) : Bool :=
  calibrating s || s.delivered.zipIdx.any (fun e =>
    decide (576 ≤ e.1.ep) && decide (e.1.ep < 608) && decide (e.1.pkt.cls = clsREQ) && addressOp e.1.pkt.opcode && readyAtPort s e.2 e.1)

/-- A page as the engine reads it. -/
def ownPage (s : State) (a : Nat) : List Byte := (readPieces a 64 s).1

/-- Bytes from an address up, sector by sector: the sector, where in it they begin, and the bytes. -/
def sectorSlices (a : Nat) (b : List Byte) : List (Nat × Nat × List Byte) :=
  (List.range ((a % 32 + b.length + 31) / 32)).map (fun i =>
    let lo := 32 * i - a % 32
    (a / 32 * 32 + 32 * i, if i = 0 then a % 32 else 0, slice b lo (Nat.min b.length (32 * i + 32 - a % 32) - lo)))

/-- The engine writes bytes of one sector. A sector written in part keeps the rest, and is left as it is where the rest cannot be read;
one that its memory refuses (R70, R196, R222) is not written. In a tile's SRAM the write sets and tests the sector tag (R35, R36). -/
def storeOwn (x : Nat × Nat × List Byte) (s : State) : State :=
  let lpa := x.1
  let whole := decide (x.2.2.length = 32)
  let code := if whole then 0 else if lpa < 0x8000000000 then pieceCode s lpa 1 else sramCode s lpa 1
  let t := if whole then s else (readPiece lpa 1 658 s).2
  let b := if whole then x.2.2 else spliced (s.readMem lpa 32) x.2.1 x.2.2
  if code ≠ 0 then t
  else match placeOf lpa with
    | .sram k off =>
      if s.tileOn k = false ∨ ((s.tile k).state ≠ .idle ∧ inProgram s k (off / 32)) then t
      else writeSector k (off / 32) (writerOf s.nodeId 658) 0 0 b (aheadOfRelease k t)
    | .engineMem e _ => if s.enginePenned e then t else storeWhole lpa b 1 t
    | _ => storeWhole lpa b 1 t

/-- A section of the launch image at its destination (R353). -/
def State.storeSection (s : State) (a : Nat) (b : List Byte) : State := forEach (sectorSlices a b) storeOwn s

/-! ### The eager copy (R336 to R338) -/

/-- `n` tallies from an index up. -/
def talliesFrom (s : State) (i n : Nat) : List Tally := (List.range n).map (fun k => s.tally (i + k))

/-- The four pages of a bank: its records in the order of R128, or the pages of a bank that holds none. -/
def bankBytes (b : Bank) : List Byte :=
  if b.kind = .short ∧ b.chain.isNone then
    (List.range 16).flatMap (fun k => (drainBrick b 0 0 true (fun _ _ => 0) (k / 4) (k % 4)).1)
  else
    let l := Codec.bank.put b
    (padTo (4 * pageSize) (if l.length ≤ 4 * pageSize then l else Config.bankPages b)).take (4 * pageSize)

/-- The pages of a tile item: SRAM, bank records, and one page of the rest. Staging buffers and sector tags are not kept. -/
def tileItem (s : State) (t : Nat) : List (List Byte) :=
  let x := s.tile t
  (List.range 96).map (fun i => ownPage s (sramBase t + pageSize * i))
    ++ chunksOf pageSize 8 (bankBytes x.bank0 ++ bankBytes x.bank1)
    ++ [onePage (Codec.tilePage.put (x.kept, talliesFrom s (192 * t) 192, s.getReg (regAddr .tilFlags t)))]

def coreItem (s : State) (c : Nat) : List (List Byte) :=
  [onePage (Codec.corePage.put ((s.core c).kept, talliesFrom s (110592 + 192 * c) 192))]

def engineItem (s : State) (e : Nat) : List (List Byte) :=
  (List.range 96).map (fun i => ownPage s (engineBase e + pageSize * i))
    ++ [onePage (Codec.enginePage.put ((s.engine e).kept, talliesFrom s (122880 + 256 * e) 256))]

def commonsItem (s : State) : List (List Byte) :=
  (List.range 512).map (fun i => ownPage s (commonsBase + pageSize * i))

/-- The tallies of the HFI ports, HEC, CKP and hub, and SYN_STEP. -/
def synItem (s : State) : List (List Byte) :=
  [onePage (Codec.synPage.put (talliesFrom s 126976 4096, s.getReg (regAddr .synStep)))]

/-- The items after the directory, in the order of R338: kind, index, pages. -/
def stateItems (s : State) : List (Nat × Nat × List (List Byte)) :=
  (runningTiles s).map (fun t => (2, t, tileItem s t)) ++ (runningCores s).map (fun c => (3, c, coreItem s c))
    ++ (runningEngines s).map (fun e => (4, e, engineItem s e)) ++ [(5, 0, commonsItem s), (6, 0, synItem s)]

/-- Kind, index and first page of every item, the directory being page 0. -/
def itemPlaces : Nat → List (Nat × Nat × List (List Byte)) → List (Nat × Nat × Nat)
  | _, [] => []
  | p, (k, i, l) :: r => (k, i, p) :: itemPlaces (p + l.length) r

/-- Every page of the eager copy. -/
def statePages (s : State) : List (List Byte) :=
  let items := stateItems s
  onePage (Codec.directory.put ((0, 0, 0) :: itemPlaces 1 items)) :: items.flatMap (·.2.2)

/-- What reading the memories of the state items leaves behind (R410). -/
def itemsMet (s : State) : State :=
  bytesMet commonsBase (512 * pageSize) 658
    (forEach (runningEngines s) (fun e s => bytesMet (engineBase e) (96 * pageSize) 658 s)
      (forEach (runningTiles s) (fun t s => bytesMet (sramBase t) (96 * pageSize) 658 s) s))

/-- The destinations of the committed policy (R341). -/
def policyDests (s : State) : List DestRun :=
  [0, 1].filterMap (fun d =>
    let v := (s.getReg (regAddr .ckpDest d)).toNat
    let kind := bitsOf v 0 2
    if kind = 1 ∨ kind = 2 then
      some { d := d, kind := kind, node := bitsOf v 10 16, window := bitsOf v 2 8, size := bitsOf v 26 32,
             slot := match s.sealedSlot d with
               | some 0 => 1
               | _ => 0 }
    else none)

/-- Units of 64 KiB that a slot of `p` pages takes. -/
def slotUnits (p : Nat) : Nat := 1 + (p + 8191) / 8192 + p

/-- The scope pages marked and the eager copy made (R336 steps 5 to 7): the reserve holds the state items, the fleece begins,
and what was held goes on; agents stay held under HOLD (R352). -/
def eagerCopy (c : Nat) (s : State) : State :=
  let ps := statePages s
  let s := forEach ps.zipIdx (fun p s => storeWhole (s.reservePage p.2) p.1 2048 s) (itemsMet s)
  let f : Fleece := {
    step := c, epoch := s.field .ckpEpoch 0 0 0 32, jid := s.jid, scopePages := s.scopePages, statePages := ps.length,
    reserveUsed := ps.length, dests := policyDests s }
  let hold := s.bit .ckpCutCfg 0 22
  let s := { s with
    snap := s.scopePages.map (fun p => (p, true)),
    ckp := { s.ckp with quiesce := none, holdAfter := hold, fleece := some f },
    hec := { s.hec with held := false } }
  let s := if hold then s else pauseAgents false s
  forEach f.dests (fun d s => if d.size < slotUnits f.pageCount then failDestination d.d s else s) s

/-- Whether a write-back of any core is on its way (step 4 of R336). -/
def anyCleaning (s : State) : Bool :=
  s.awaits (fun p => match p with
    | .coreClean _ _ => true
    | _ => false)

/-- EAGER_COPY_COMPLETE: once the HEC's started messages have completed and the cores' lines are back (R336 steps 3, 4), and nothing
goes before the engine at the ports (R214, R218). -/
def eagerCopyDone (s : State) : State :=
  match s.ckp.quiesce with
  | some c => if s.hec.execs.isEmpty ∧ anyCleaning s = false ∧ snapBusy s = false then eagerCopy c s else s
  | none => s

def execEagerCopyComplete (s : State) : Host.Outcome State Fault Refusal := act (!s.akm.frozen) eagerCopyDone s

/-! ### Copying out (R340) -/

/-- Whether the copy of a page into the reserve waits. -/
def copyWaits (s : State) (f : Fleece) (page : Nat) : Bool :=
  snapWaits s (page * pageSize) 2048 || snapWaits s (s.reservePage f.reserveUsed) 2048

/-- PAGE_COPY_OUT: a page that a port asked for. With no free reserve page it goes to the destinations next, and keeps its
mark until then (R340). A copy that has to wait stays asked for. -/
def copyRequested (page : Nat) (s : State) : State :=
  let waits : Bool := match s.ckp.fleece with
    | some f => s.marked page && decide (f.reserveUsed < s.reservePages) && copyWaits s f page
    | none => false
  if waits then s else
  let s := { s with ckp := { s.ckp with copyRequests := s.ckp.copyRequests.filter (fun p => decide (p ≠ page)) } }
  match s.ckp.fleece with
  | none => s
  | some f =>
    if s.marked page = false then s.releaseHeld
    else if f.reserveUsed < s.reservePages then s.copyOut page
    else { s with ckp := { s.ckp with fleece := some { f with urgent := if f.urgent.elem page then f.urgent else f.urgent ++ [page] } } }

def execPageCopyOut (page : Nat) (s : State) : Host.Outcome State Fault Refusal :=
  act (s.ckp.copyRequests.elem page && s.ckp.fleece.isSome && !s.akm.frozen) (copyRequested page) s

/-! ### Shearing (R341 to R343) -/

/-- The contents at the cut of page `i` of a fleece as CKP reads them, with what the reads leave behind: a 1 KiB piece whose read
ends in ERR gives poison sectors (R208, R210, R211, R273). -/
def fleecePage (s : State) (f : Fleece) (i : Nat) : List Byte × State :=
  if i < f.scopeCount then
    let page := f.scopePages.getD i 0
    if (Table.get [] f.direct page).isEmpty then
      match Table.get none f.copied page with
      | some r => readPieces (s.reservePage r) 64 s
      | none => readPieces (page * pageSize) 64 s
    else (Table.get [] f.direct page, s)
  else readPieces (s.reservePage (i - f.scopeCount)) 64 s

/-- Whether the read of page `i` of a fleece waits. -/
def fleeceWaits (s : State) (f : Fleece) (i : Nat) : Bool :=
  if i < f.scopeCount then
    let page := f.scopePages.getD i 0
    (Table.get [] f.direct page).isEmpty
      && snapWaits s (match Table.get none f.copied page with
        | some r => s.reservePage r
        | none => page * pageSize) 2048
  else snapWaits s (s.reservePage (i - f.scopeCount)) 2048

/-- Writes bytes of a slot to a destination: SNWR pieces through its window, or SHEAR messages to the sink (R341, R370). -/
def writeSlot (d : DestRun) (page off : Nat) (bytes : List Byte) (s : State) : State :=
  let base := d.slot * d.size * pageSize + off
  match s.ckp.fleece with
  | none => s
  | some f =>
    if d.kind = 1 then
      let far := d.node * 2 ^ 48 + d.window * 2 ^ 40 + base % 2 ^ 40
      let ps := pieces far (bytes.length / 32)
      let s := s.setFleece (some (f.await page d.d ps.length))
      forEach ps (fun p s => s.send 658 (.ckpShear d.d page)
        (addressed { opcode := opSNWR, cls := clsSNAP, nsect := p.2, data := slice bytes p.1 (32 * p.2) } true far p.1)
        true) s
    else
      match s.sink with
      | none => failDestination d.d s
      | some slot =>
        let n := s.maxData
        let cs := (chunksOf n (bytes.length / n + 1) bytes).zipIdx
        let s := s.setFleece (some (f.await page d.d cs.length))
        forEach cs (fun c s =>
          let a := base + n * c.2
          let s := { s with hec := { s.hec with shears := s.hec.shears ++ [(d.d, a, c.1.length, page)] } }
          sendPayload slot (hostMessage 0x84 0 a d.d c.1) none s) s

/-- Ticks that `n` bytes to every live destination take under the share limit: on the Holtim ports together at 40 × SHARE bytes
a tick, to the host at 2.5 × SHARE (R342). -/
def shareTicks (s : State) (f : Fleece) (n : Nat) : Nat :=
  let share := Nat.max 1 (s.field .ckpCutCfg 0 0 16 6)
  let sent (k : Nat) : Nat := n * (f.live.filter (fun d => decide (d.kind = k))).length
  Nat.max ((sent 1 + 40 * share - 1) / (40 * share)) ((2 * sent 2 + 5 * share - 1) / (5 * share))

/-- The next transfer of the fleece may begin once the share limit lets it. -/
def paceBy (n : Nat) (s : State) : State :=
  match s.ckp.fleece with
  | some f => { s with ckp := { s.ckp with shearAt := s.now + shareTicks s f n } }
  | none => s

/-- A page of the fleece to every live destination, its CRC kept; `paced` under the share limit of R342. -/
def shearOne (i : Nat) (paced : Bool) (s : State) : State :=
  match s.ckp.fleece with
  | none => s
  | some f =>
    let (b, s) := fleecePage s f i
    let s := s.setFleece (some { f with crcs := Table.set none f.crcs i (some (crc64 b)) })
    let s := if paced then paceBy pageSize s else s
    let off := pageSize * (1 + (f.pageCount + 8191) / 8192 + i)
    settlePage i (forEach f.live (fun d s => writeSlot d i off b s) s)

/-- The page list (R341). -/
def pageList (f : Fleece) : List Byte :=
  (List.range f.pageCount).flatMap (fun i => bytesOf 8 ((Table.get none f.crcs i).getD 0))

/-- The scope map of the seal, from the fleece's own pages. -/
def scopeMap (f : Fleece) : Nat :=
  (List.range 508).foldl (fun m r => if f.scopePages.elem (16384 * r) then m + 2 ^ r else m) 0

/-- Bytes 0 to 511 of a seal record (R343). -/
def sealHead (s : State) (f : Fleece) (slot : Nat) : List Byte :=
  padTo 512 (bytesOf 2 1 ++ bytesOf 2 f.jid ++ bytesOf 4 f.epoch ++ bytesOf 8 f.step ++ bytesOf 2 s.nodeId ++ bytesOf 1 slot
    ++ zeros 5 ++ bytesOf 8 f.scopeCount ++ bytesOf 8 f.statePages ++ bytesOf 64 (scopeMap f) ++ sha512 (pageList f))

/-- A destination moved to a stage. -/
def setStage (d n : Nat) (s : State) : State :=
  match s.ckp.fleece with
  | some f => s.setFleece (some (f.modDest d (fun x => { x with stage := n })))
  | none => s

/-- A page that goes to the destinations out of turn and has not been sheared (R340). -/
def directWaiting (f : Fleece) : Option Nat :=
  (f.urgent ++ f.direct.map (·.1)).findSome? (fun p =>
    let i := f.scopePages.idxOf p
    if (Table.get none f.crcs i).isNone then some i else none)

/-- The next page in ascending order that has not been sheared out of turn. -/
def skipSheared (f : Fleece) : Nat → Nat → Nat
  | 0, i => i
  | n + 1, i => if (Table.get none f.crcs i).isSome then skipSheared f n (i + 1) else i

/-- What CKP does next for the fleece (R343): copy requests first (R340), then zeroes over the old seal, pages, the page list, the
signature. -/
def shearNext (s : State) : State :=
  match s.ckp.fleece with
  | none => s
  | some f =>
    match s.ckp.copyRequests with
    | page :: _ => copyRequested page s
    | [] =>
    let zeroed := f.live.filter (fun d => decide (d.stage = 1) && !f.destAwaits d.d)
    let s := forEach zeroed (fun d s => setStage d.d 2 s) s
    let f := s.ckp.fleece.getD f
    match f.live.find? (fun d => decide (d.stage = 0)) with
    | some d => writeSlot d f.zeroPage 0 (zeros 1024) (setStage d.d 1 s)
    | none =>
      if f.live.any (fun d => decide (d.stage = 1)) then s else
      match directWaiting f with
      | some i => if fleeceWaits s f i then s else shearOne i false s
      | none =>
        let next := skipSheared f f.pageCount f.nextPage
        if next < f.pageCount then
          if s.ckp.shearAt ≤ s.now ∧ fleeceWaits s f next = false then shearOne next true (s.setFleece (some { f with nextPage := next + 1 })) else s
        else match f.live.find? (fun d => decide (d.stage = 2)) with
          | some d =>
            if s.now < s.ckp.shearAt then s else
            let l := pageList f
            let s := paceBy l.length s
            writeSlot d f.listPage pageSize (padTo ((l.length + 31) / 32 * 32) l) (setStage d.d 3 s)
          | none => match f.live.find? (fun d => decide (d.stage = 3) && !f.destAwaits d.d) with
            | some d => requestSignature 658 (.seal d.d) (sealHead s f d.slot) (setStage d.d 4 s)
            | none => s

/-- SHEAR_PAGE (R342, R343). -/
def execShearPage (s : State) : Host.Outcome State Fault Refusal := act (s.ckp.fleece.isSome && !s.akm.frozen) shearNext s

/-- The seal record is written once its signature is there (R343). -/
def writeSeal (d : Nat) (head sig : List Byte) (s : State) : State :=
  match s.ckp.fleece with
  | some f =>
    match f.live.find? (fun x => decide (x.d = d) && decide (x.stage = 4)) with
    | some x => writeSlot x f.sealPage 0 ((padTo 1024 (head ++ sig)).take 1024) (setStage d 5 s)
    | none => s
  | none => s

/-! ### The cut policy (R339, R389) -/

/-- CKP_CUT_COMMIT: captured until the next cut release, or applied at once while no cut hurdle is armed. -/
def ckpCutCommit (v : Word) (s : State) : State :=
  commitLater .ckpCutCommit 0 1 2 cutAddrs (s.armed s.cutHurdle) applyCut v s

def execCkpCutCommit (src : Requester) (v : Word) (s : State) : Host.Outcome State Fault Refusal :=
  .next (guardedWrite src false (ckpCutCommit v) s)

/-! ### The launch image (R353 to R355) -/

def launchArea (s : State) : Nat := s.field .ckpLaunchArea 0 0 0 48
def launchChunks (s : State) : Nat := s.field .ckpLaunchCfg 0 0 0 17
def launchWindow (s : State) : Nat := s.field .ckpLaunchCfg 0 0 17 8
def launchChild (s : State) (i : Nat) : Nat := s.field .ckpLaunchChild (i / 4) 0 (16 * (i % 4)) 16

/-- Ticks without progress after which the launch stalls. -/
def chunkTmo (s : State) : Nat := ticksOfUs (100 * Nat.max 1 (s.field .ckpLaunchCfg 0 0 25 10))

def launchDigest (s : State) : List Byte :=
  (List.range 8).flatMap (fun k => bytesOf 8 (s.getReg (regAddr .ckpLaunchDigest k)).toNat)

/-- LAUNCH_STALL, to AKM and the host, with the chunks held. -/
def launchStallEvent (s : State) : State := s.akmEvent 0x0019 1 658 (bytesOf 3 s.chunksHeld)

/-- A chunk to a child: 64 SNWR pieces through the launch window of the child. -/
def relayChunk (i k : Nat) (s : State) : State :=
  let node := launchChild s i
  if node = 0 then s else
  let far := node * 2 ^ 48 + launchWindow s * 2 ^ 40 + pageSize * k
  let r := readPieces (launchArea s + pageSize * k) 64 s
  forEach (pieces far 2048) (fun p s => s.send 658 (.ckpRelay i k)
    (addressed { opcode := opSNWR, cls := clsSNAP, nsect := p.2, data := slice r.1 p.1 (32 * p.2) } true far p.1) true) r.2

/-- The chunks that are to go to children do, in their order, as far as the reads need not wait; `n` bounds how many. -/
def relayNext : Nat → State → State
  | 0, s => s
  | n + 1, s =>
    match s.ckp.relays with
    | [] => s
    | (i, k) :: rest =>
      if launchChild s i ≠ 0 ∧ snapWaits s (launchArea s + pageSize * k) 2048 then s
      else relayNext n (relayChunk i k { s with ckp := { s.ckp with relays := rest } })

/-- Chunks go to children behind those that wait. -/
def relayChunks (l : List (Nat × Nat)) (s : State) : State :=
  let all := s.ckp.relays ++ l
  relayNext all.length { s with ckp := { s.ckp with relays := all } }

/-- Whether a section's destination is job memory outside the launch area. -/
def sectionGood (s : State) (x : Nat × Nat × Nat) : Bool :=
  let area := launchArea s
  let stop := area + pageSize * launchChunks s
  windowRanges.any (fun r => decide (r.1 ≤ x.2.2) && decide (x.2.2 + x.2.1 ≤ r.2))
    && (decide (x.2.2 + x.2.1 ≤ area) || decide (stop ≤ x.2.2))

/-- The image is READY or BAD; READY may complete the launch round (R354). -/
def launchReady (s : State) : State :=
  let s := { s with ckp := { s.ckp with launching := false, readyAt := s.time } }
  progressHurdle s.launchHurdle (s.setBit .ckpLaunchStatus 0 0)

/-- The marked pages that sections are to be copied into. -/
def markedUnder (s : State) (secs : List (Nat × Nat × Nat)) : List Nat :=
  secs.flatMap (fun x => if x.2.2 < 0x8000000000 then
    ((List.range ((x.2.2 % pageSize + x.2.1 + pageSize - 1) / pageSize)).map (fun i => x.2.2 / pageSize + i)).filter s.marked else [])

/-- Every chunk is held: the digest is compared, and the sections of chunk 0 are copied (R353). It waits while its reads and writes
do; a marked page that a section goes to is copied out first (R340). -/
def completeImage (s : State) : State :=
  let area := launchArea s
  if snapWaits s area (2048 * launchChunks s) then s else
  let r := readOwn area (pageSize * launchChunks s) s
  let image := r.1
  let s := r.2
  if sha512 image ≠ launchDigest s then
    { s.setBit .ckpLaunchStatus 0 1 with ckp := { s.ckp with pieces := [], progressAt := s.now } }
  else
    let secs := Config.launchSections (image.take pageSize)
    if secs.all (sectionGood s) then
      let pages := markedUnder s secs
      if ¬ pages.isEmpty ∨ secs.any (fun x => snapWaits s (x.2.2 / 32 * 32) ((x.2.2 % 32 + x.2.1 + 31) / 32)) then
        { s with ckp := { s.ckp with copyRequests := s.ckp.copyRequests ++ pages.filter (fun p => !s.ckp.copyRequests.elem p) } }
      else launchReady (forEach secs (fun x s => s.storeSection x.2.2 (slice image x.1 x.2.1)) s)
    else { s.setBit .ckpLaunchStatus 0 1 with ckp := { s.ckp with launching := false } }

/-- Whether the image has every chunk and is not judged yet. -/
def imageWhole (s : State) : Bool := s.ckp.launching && decide (s.chunksHeld = launchChunks s)

/-- A chunk becomes held: it goes to every child, and to those a SEND named for it (R353, R355). -/
def chunkBecomesHeld (k : Nat) (s : State) : State :=
  let s := { s with ckp := { s.ckp with progressAt := s.now } }
  let named := (s.ckp.sends.filter (fun r => decide (r.first ≤ k) && decide (k < r.first + r.count))).map (·.child)
  let s := relayChunks ((List.range 8 ++ named).map (fun i => (i, k))) s
  if imageWhole s then completeImage s else s

/-- An acknowledged launch write of one whole piece (R353). -/
def launchPiece (lpa : Nat) (s : State) : State :=
  let area := launchArea s
  let off := lpa - area
  let k := off / pageSize
  if s.ckp.launching = false ∨ lpa < area ∨ off % 1024 ≠ 0 ∨ launchChunks s ≤ k ∨ s.chunkHeld k then s else
  let m := Table.get 0 s.ckp.pieces k ||| 2 ^ (off % pageSize / 1024)
  let s := { s with ckp := { s.ckp with pieces := Table.set 0 s.ckp.pieces k m } }
  if m = 2 ^ 64 - 1 then chunkBecomesHeld k s else s

/-- SNWR (R221): one through the launch window that covers a whole piece and is acknowledged is a launch write. -/
def serveSnapWrite (a : Arrival) (s : State) : State :=
  let p := a.pkt
  let t := serveWrite a s
  let acked : Bool := match t.flights.getLast? with
    | some f => decide (f.pkt.opcode = opACK) && decide (t.flights.length = s.flights.length + 1)
    | none => false
  if a.via.isSome ∧ p.window = launchWindow s ∧ p.nsect = 32 ∧ p.offset % 1024 = 0 ∧ acked then launchPiece p.offset t else t

def execSnwr (n : Nat) (s : State) : Host.Outcome State Fault Refusal := .next (serve n opSNWR serveSnapWrite s)

def launchAddrs : List Nat :=
  [regAddr .ckpLaunchCfg, regAddr .ckpLaunchArea] ++ (List.range 8).map (fun k => regAddr .ckpLaunchDigest k)
    ++ (List.range 2).map (fun k => regAddr .ckpLaunchChild k)

/-- An accepted commit: the held map and the status clear, M6 is extended, and an empty image is judged at once. -/
def launchCommitted (s : State) : State :=
  let s := extendMeas 6 (launchDigest s) s
  let s := { s with ckp := { s.ckp with
    pieces := [], sends := [], relays := [], progressAt := s.now, launching := decide (launchChunks s ≠ 0) } }
  let s := (((s.clearBit .ckpLaunchStatus 0 0).clearBit .ckpLaunchStatus 0 1).clearBit .ckpLaunchStatus 0 2).clearBit .ckpLaunchStatus 0 20
  if launchChunks s ≠ 0 then s
  else if launchDigest s = sha512 [] then launchReady s
  else s.setBit .ckpLaunchStatus 0 1

def ckpLaunchCommit (v : Word) (s : State) : State :=
  commitNow .ckpLaunchCommit 0 0 2 8 0xE 0 launchAddrs v
    (fun s => decide (65536 < bitsOf (s.getShadow (regAddr .ckpLaunchCfg)).toNat 0 17)) launchCommitted s

/-- CKP_LAUNCH_COMMIT (R353). -/
def execCkpLaunchCommit (src : Requester) (v : Word) (s : State) : Host.Outcome State Fault Refusal :=
  .next (guardedWrite src false (ckpLaunchCommit v) s)

/-- CKP_LAUNCH_SEND: held chunks go now, the others as they become held (R355). -/
def ckpLaunchSend (v : Word) (s : State) : State :=
  let r : SendRange := { child := bitsOf v.toNat 0 3, first := bitsOf v.toNat 3 17, count := bitsOf v.toNat 20 17 }
  let held := ((List.range r.count).map (fun i => r.first + i)).filter s.chunkHeld
  let s := relayChunks (held.map (fun k => (r.child, k))) s
  if r.count = 0 then s else { s with ckp := { s.ckp with sends := s.ckp.sends ++ [r] } }

def execCkpLaunchSend (src : Requester) (v : Word) (s : State) : Host.Outcome State Fault Refusal :=
  .next (guardedWrite src false (ckpLaunchSend v) s)

/-- LAUNCH_STALL (R355). -/
def stallDue (s : State) : Bool := s.ckp.launching && !imageWhole s && decide (s.ckp.progressAt + chunkTmo s ≤ s.now) && !s.akm.frozen

def stallLaunch (s : State) : State :=
  launchStallEvent ({ s with ckp := { s.ckp with progressAt := s.now } }.setBit .ckpLaunchStatus 0 2)

def execLaunchStall (s : State) : Host.Outcome State Fault Refusal := act (stallDue s) stallLaunch s

/-- A relay's write to a child ends in ERR (R353). -/
def relayFailed (s : State) : State := launchStallEvent (s.raiseBit .ckpLaunchStatus 0 20)

end Sys2Proof.Machine
end

