-- ==== Sys2Proof/Machine/Restore.lean ====
section
/-! DEFINITION. Restoring a cut (R346 to R350): the list, seals, page lists and targets checked in order, the pages copied,
and the fields of a tile rewritten, with the meanings of the commands. -/

namespace Sys2Proof.Machine

/-! ### The list -/

def listJid (b : List Byte) : Nat := natOf (slice b 0 2)
def listCount (b : List Byte) : Nat := natOf (slice b 2 2)
def listEpoch (b : List Byte) : Nat := natOf (slice b 4 4)
def listStep (b : List Byte) : Nat := natOf (slice b 8 8)

/-- The entries of a list, 32 bytes each. -/
def listEntries (b : List Byte) : List (List Byte) := (List.range (listCount b)).map (fun i => slice b (32 + 32 * i) 32)

def entryField (e : List Byte) (off n : Nat) : Nat := natOf (slice e off n)
def entryKind (e : List Byte) : Nat := entryField e 0 1
def entrySource (e : List Byte) : Nat := entryField e 1 1

/-- The entries with their index. -/
def numbered (b : List Byte) : List (List Byte × Nat) := (listEntries b).zipIdx

/-- The SOURCE entries in list order. -/
def listSources (b : List Byte) : List (List Byte × Nat) := (numbered b).filter (fun e => decide (entryKind e.1 = 0))

/-- The position among the SOURCE entries of the source that an entry names: the latest one before it. -/
def sourceOf (b : List Byte) (e : List Byte × Nat) : Option Nat :=
  let before := (listSources b).zipIdx.filter (fun x => decide (x.1.2 < e.2) && decide (entrySource x.1.1 = entrySource e.1))
  (before.getLast?).map (·.2)

/-- Whether the bytes of a list of ranges (first, count) are zero. -/
def zeroBytes (e : List Byte) (l : List (Nat × Nat)) : Bool := l.all (fun r => decide (entryField e r.1 r.2 = 0))

/-- Whether a PAGES destination lies in stacked memory outside the reserve. -/
def goodPages (s : State) (e : List Byte) : Bool :=
  let n := entryField e 8 4
  let lpa := entryField e 16 8
  decide (lpa % pageSize = 0) && decide (lpa ≤ 0x7EFFFFFFFF) && decide (lpa + pageSize * n ≤ 0x7F00000000)
    && (List.range (n / 16384 + 2)).all (fun i => !s.inReserve (Nat.min (lpa + 0x40000000 * i) (lpa + pageSize * (n - 1))))

/-- Whether an entry keeps the layout (the restore list). -/
def goodEntry (s : State) (b : List Byte) (e : List Byte × Nat) : Bool :=
  match entryKind e.1 with
  | 0 => decide (entrySource e.1 ≤ 15) && decide (entryField e.1 5 1 ≤ 3) && zeroBytes e.1 [(6, 2), (18, 14)]
  | 1 => (sourceOf b e).isSome && zeroBytes e.1 [(2, 2), (12, 4), (24, 8)] && goodPages s e.1
  | 2 => (sourceOf b e).isSome && zeroBytes e.1 [(2, 2), (8, 24)]
  | 3 => (sourceOf b e).isSome && zeroBytes e.1 [(2, 30)]
  | 4 => (sourceOf b e).isSome && zeroBytes e.1 [(2, 30)]
  | 5 => (sourceOf b e).isSome && zeroBytes e.1 [(2, 30)]
  | 6 => (sourceOf b e).isSome && zeroBytes e.1 [(2, 30)]
  | 7 => zeroBytes e.1 [(1, 1), (6, 26)]
  | _ => false

/-- Whether a range lies in commons SRAM or in stacked memory. -/
def listPlace (a n : Nat) : Bool :=
  decide (a % 32 = 0) && (decide (a + n ≤ 0x7F00000000) || (decide (commonsBase ≤ a) && decide (a + n ≤ 0x20002000000)))

/-- The first entry that breaks the layout; the header counts as entry 0. -/
def structureFault (s : State) (a : Nat) (b : List Byte) : Option Nat :=
  if decide (listCount b ≤ 4096) = false ∨ natOf (slice b 16 16) ≠ 0 ∨ listPlace a (32 + 32 * listCount b) = false then some 0
  else ((numbered b).find? (fun e => !goodEntry s b e)).map (·.2)

/-! ### Starting (R346) -/

/-- GO of CKP_RESTORE_CTL: rejected while a hurdle is armed or the JIDs differ, else every agent stops. A GO while a restore
runs does nothing (log entry 27). -/
def startRestore (v : Word) (s : State) : State :=
  if ¬ bitOf v.toNat 0 ∨ s.ckp.restore.isSome then s else
  let a := s.field .ckpRestore 0 0 0 48
  let head := (readOwn a 32 s).1
  let r := readOwn a (32 + 32 * Nat.min 4096 (listCount head)) s
  let b := r.1
  let s := r.2
  if s.anyArmed ∨ listJid b ≠ s.jid then s.setField .ckpRestoreCtl 0 0 1 1 1
  else
    let s := stopAgents (s.setReg (regAddr .ckpRestoreCtl) (BitVec.ofNat 64 4))
    { s with ckp := { s.ckp with restore := some { bytes := b }, restored := false, resume := [] } }

def execRestoreJob (src : Requester) (v : Word) (s : State) : Host.Outcome State Fault Refusal :=
  .next (guardedWrite src false (startRestore v) s)

/-! ### Reading the sources -/

def State.setRestore (s : State) (r : RestoreRun) : State := { s with ckp := { s.ckp with restore := some r } }

/-- Fields of a seal record (R343). -/
def sealScope (b : List Byte) : Nat := natOf (slice b 24 8)
def sealState (b : List Byte) : Nat := natOf (slice b 32 8)
def sealPages (b : List Byte) : Nat := sealScope b + sealState b

/-- The slot offset of page `i` of a sealed slot. -/
def slotPage (sl : List Byte) (i : Nat) : Nat := pageSize * (1 + (sealPages sl + 8191) / 8192 + i)

/-- SNRD requests for bytes of a source's slot. -/
def readSource (k off n : Nat) (r : RestoreRun) (s : State) : State :=
  let e := ((listSources r.bytes).getD k ([], 0)).1
  let far := entryField e 2 2 * 2 ^ 48 + entryField e 4 1 * 2 ^ 40 + (entryField e 8 8 + off) % 2 ^ 40
  let ps := pieces far ((n + 31) / 32)
  let s := s.setRestore { r with reading := some (k, off, n), got := [], left := ps.length }
  forEach ps (fun p s => s.send 658 (.ckpRestore p.1)
    (addressed { opcode := opSNRD, cls := clsSNAP, nsect := p.2 } true far p.1) true) s

/-- The code of a seal record against its entry and the header (R347): 0 where it passes. -/
def sealCode (s : State) (list e sl : List Byte) : Nat :=
  let key := Table.get none s.aks.peers (entryField e 5 1)
  let ok := decide (natOf (slice sl 0 2) = 1) && decide (natOf (slice sl 16 2) = entryField e 16 2)
    && decide (natOf (slice sl 18 1) ≤ 1) && decide (natOf (slice sl 19 5) = 0) && decide (natOf (slice sl 168 344) = 0)
    && (match key with
        | some k => Config.rsaVerify k (sl.take 512) (slice sl 512 512)
        | none => false)
  if ok = false then 2
  else if natOf (slice sl 2 2) ≠ listJid list then 3
  else if natOf (slice sl 4 4) ≠ listEpoch list then 4
  else if natOf (slice sl 8 8) ≠ listStep list then 5
  else 0

/-- The CRC that a source's page list gives page `i`. -/
def listedCrc (r : RestoreRun) (k i : Nat) : Nat := natOf (slice (r.lists.getD k []) (8 * i) 8)

/-! ### Targets and copies -/

/-- Whether an entry takes items that a source's directory lists. -/
def takesItems (e : List Byte × Nat) : Bool := decide (2 ≤ entryKind e.1) && decide (entryKind e.1 ≤ 6)

/-- Whether an entry takes items of source `k`. -/
def needsDirectory (r : RestoreRun) (k : Nat) : Bool :=
  (numbered r.bytes).any (fun e => takesItems e && decide (sourceOf r.bytes e = some k))

/-- The items of a source's directory of a kind: index and first slot page. None are known of a directory page that fails its
CRC-64, which is kept as no bytes. -/
def itemsOf (r : RestoreRun) (k kind : Nat) : List (Nat × Nat) :=
  let m := sealScope (r.seals.getD k [])
  let dir := r.dirs.getD k []
  if dir.isEmpty then [] else
  ((Codec.directory.read Config.directoryOf dir).filter (fun x => decide (x.1 = kind))).map (fun x => (x.2.1, m + x.2.2))

/-- The code of an entry's targets (R347 item 4): 7 for a target that is penned, HALTED or not enabled; 1 where the source
has no such item or page (log entry 27). -/
def targetCode (s : State) (r : RestoreRun) (e : List Byte × Nat) : Nat :=
  let k := (sourceOf r.bytes e).getD 0
  match entryKind e.1 with
  | 1 =>
    let m := sealScope (r.seals.getD k [])
    if m ≤ entryField e.1 4 4 ∨ m < entryField e.1 4 4 + entryField e.1 8 4 then 1 else 0
  | 2 =>
    let t := entryField e.1 6 2
    if (r.dirs.getD k []).isEmpty = false ∧ (itemsOf r k 2).any (fun x => decide (x.1 = entryField e.1 4 2)) = false then 1
    else if s.tileOn t = false ∨ (s.tile t).state = .halted then 7 else 0
  | 3 => if (itemsOf r k 3).any (fun x => decide (64 ≤ x.1) || s.corePenned x.1) then 7 else 0
  | 4 => if (itemsOf r k 4).any (fun x => decide (16 ≤ x.1) || s.enginePenned x.1) then 7 else 0
  | _ => 0

/-- The first entry that needs a directory page which fails its CRC-64: that page, too, is checked before anything of it is
written, after every target (R347). -/
def badDirectory (r : RestoreRun) : Option (Nat × Nat) :=
  ((numbered r.bytes).find? (fun e => takesItems e && (r.dirs.getD ((sourceOf r.bytes e).getD 0) []).isEmpty)).map (fun e => (8, e.2))

/-- The page copies of an entry: source, slot page, entry, where it goes. -/
def entryCopies (r : RestoreRun) (e : List Byte × Nat) : List (Nat × Nat × Nat × RestoreTo) :=
  let k := (sourceOf r.bytes e).getD 0
  let n := e.2
  match entryKind e.1 with
  | 1 => (List.range (entryField e.1 8 4)).map (fun i =>
      (k, entryField e.1 4 4 + i, n, .memory (entryField e.1 16 8 + pageSize * i)))
  | 2 => ((itemsOf r k 2).filter (fun x => decide (x.1 = entryField e.1 4 2))).flatMap (fun x =>
      (List.range 105).map (fun i => (k, x.2 + i, n, .tile x.1 (entryField e.1 6 2) i)))
  | 3 => (itemsOf r k 3).map (fun x => (k, x.2, n, .core x.1))
  | 4 => (itemsOf r k 4).flatMap (fun x =>
      (List.range 96).map (fun i => (k, x.2 + i, n, .memory (engineBase x.1 + pageSize * i))) ++ [(k, x.2 + 96, n, .engine x.1)])
  | 5 => (itemsOf r k 5).flatMap (fun x => (List.range 512).map (fun i => (k, x.2 + i, n, .memory (commonsBase + pageSize * i))))
  | 6 => (itemsOf r k 6).map (fun x => (k, x.2, n, .syn))
  | _ => []

/-! ### Rewriting (R349) -/

/-- The LPA that page `i` of a seal's scope had: its scope map in ascending order. -/
def scopePageLpa (sl : List Byte) (i : Nat) : Nat :=
  let map := natOf (slice sl 40 64)
  let regions := (List.range 508).filter (fun r => bitOf map r)
  regions.getD (i / 16384) 0 * 0x40000000 + i % 16384 * pageSize

/-- An LPA moved with the PAGES and TILE entries of the same source; an old tile's window is 8 MiB. -/
def rewriteLpa (r : RestoreRun) (k a : Nat) : Nat :=
  let sl := r.seals.getD k []
  let es := (numbered r.bytes).filter (fun e => decide (sourceOf r.bytes e = some k))
  let byPages := es.findSome? (fun e =>
    if entryKind e.1 = 1 then
      ((List.range (entryField e.1 8 4)).find? (fun i =>
        let p := scopePageLpa sl (entryField e.1 4 4 + i)
        decide (p ≤ a) && decide (a < p + pageSize))).map (fun i => entryField e.1 16 8 + pageSize * i + a % pageSize)
    else none)
  let byTile := es.findSome? (fun e =>
    let b := sramBase (entryField e.1 4 2)
    if entryKind e.1 = 2 ∧ b ≤ a ∧ a < b + 0x800000 then some (sramBase (entryField e.1 6 2) + (a - b)) else none)
  match byPages with
  | some x => x
  | none => byTile.getD a

/-- A node ID moved with the SUBST entries. -/
def rewriteNode (r : RestoreRun) (n : Nat) : Nat :=
  ((listEntries r.bytes).findSome? (fun e =>
    if entryKind e = 7 ∧ entryField e 2 2 = n then some (entryField e 4 2) else none)).getD n

/-- An address of a generator or a queued far operand. -/
def rewriteAddr (r : RestoreRun) (k : Nat) (a : Nat) (glb : Bool) : Nat :=
  if glb then putBits a 48 16 (rewriteNode r (globalNode a)) else rewriteLpa r k a

/-- A queued tally word: its node, and its tally where that is one of an old tile of this source (log entry 27). -/
def rewriteTally (r : RestoreRun) (k w : Nat) : Nat :=
  let origin := entryField ((listSources r.bytes).getD k ([], 0)).1 16 2
  let mode := bitsOf w 62 2
  let tally := bitsOf w 29 17
  let mine := decide (mode = 1) || (decide (mode = 2) && decide (bitsOf w 46 16 = origin))
  let moved := if mine then
      (numbered r.bytes).findSome? (fun e =>
        if entryKind e.1 = 2 ∧ sourceOf r.bytes e = some k ∧ tally / 192 = entryField e.1 4 2 then
          some (192 * entryField e.1 6 2 + tally % 192)
        else none)
    else none
  let w := putBits w 29 17 (moved.getD tally)
  if mode = 2 then putBits w 46 16 (rewriteNode r (bitsOf w 46 16)) else w

/-- A queued instruction: its far addresses and, of a STORE, its tally word. -/
def rewriteEntry (r : RestoreRun) (k : Nat) (e : Entry) : Entry :=
  let ns := namedBy e.opcode e.word e.ext
  { e with
    addrs := e.addrs.zipIdx.map (fun a =>
      if (ns.getD a.2 ⟨0, 0, true, false⟩).loc then a.1 else { a.1 with val := rewriteAddr r k a.1.val a.1.glb }),
    ext := if e.opcode = 0x30 then rewriteTally r k e.ext else e.ext }

/-- A restored bank: its accumulators from its records, or the whole bank from its pages. -/
def restoredBank (b : Bank) (bytes : List Byte) : Bank :=
  if b.kind = .short ∧ b.chain.isNone then
    let acc := (List.range 16384).foldl (fun (m : Table Acc) k =>
      let i := 1024 * (4 * (k / 128 / 32) + k % 128 / 32) + 32 * (k / 128 % 32) + k % 32
      Table.set b.dflt m k (accOfRecord b.frac (slice bytes (16 * i) 16)).1) []
    { b with acc := acc, finals := [] }
  else { Codec.bank.read Config.bankOfPages bytes with finals := [] }

/-- A restored tile: as the cut held it, rewritten, IDLE until the launch release. The sync instruction that was in its wait
goes on waiting, one just over it goes on there, and each posts its credits once its wait is over. -/
def restoredTile (r : RestoreRun) (k now : Nat) (x : Tile) : Tile :=
  let q := x.queues
  let f := rewriteEntry r k
  { x with
    state := .idle, staged := [], tags := [], held := false, stores := [], atoms := [], excAt := 0, mxuFree := now, vxuFree := now,
    inflight := (x.inflight.filter (fun g => decide (g.unit = .sync))).map (fun g => { g with due := now }), gens := x.gens.map (fun g => (g.1, { g.2 with base := rewriteAddr r k g.2.base g.2.glb })),
    queues := { load := q.load.map f, matrix := q.matrix.map f, vector := q.vector.map f, store := q.store.map f,
                sync := q.sync.map f },
    bank0 := restoredBank x.bank0 (r.held.take (4 * pageSize)),
    bank1 := restoredBank x.bank1 (r.held.drop (4 * pageSize)) }

/-- Tallies written from an index up. -/
def writeTallies (i : Nat) (l : List Tally) (s : State) : State :=
  forEach l.zipIdx (fun t s => s.setTally (i + t.2) t.1) s

def resumeAt (a : Nat) (s : State) : State := { s with ckp := { s.ckp with resume := s.ckp.resume ++ [a] } }

/-- One restored page goes to its place. -/
def placePage (r : RestoreRun) (k : Nat) (dest : RestoreTo) (b : List Byte) (s : State) : State :=
  match dest with
  | .memory a => storeWhole a b 2048 s
  | .tile _ t p =>
    if p < 96 then storeWhole (sramBase t + pageSize * p) b 2048 s
    else if p < 104 then s.setRestore { r with held := (if p = 96 then [] else r.held) ++ b }
    else
      let (x, ts, flags) := Codec.tilePage.read Config.tileOfPage b
      let s := s.setTile t (restoredTile r k s.now x)
      resumeAt t ((writeTallies (192 * t) (ts.take 192) s).setReg (regAddr .tilFlags t) flags)
  | .core c =>
    let (x, ts) := Codec.corePage.read Config.coreOfPage b
    let s := s.setCore c x.kept
    resumeAt (576 + c) (writeTallies (110592 + 192 * c) (ts.take 192) s)
  | .engine e =>
    let (x, ts) := Codec.enginePage.read Config.engineOfPage b
    let state := if (s.engine e).state = .stopped then .stopped else x.kept.state
    let s := s.setEngine e { x.kept with next := s.now, state := state }
    resumeAt (640 + e) (writeTallies (122880 + 256 * e) (ts.take 256) s)
  | .syn => writeTallies 126976 ((Codec.synPage.read Config.synOfPage b).1.take 4096) s

/-! ### Going on -/

/-- The restore meets a failure at an entry. -/
def failRestore (code entry : Nat) (r : RestoreRun) (s : State) : State :=
  s.setRestore { r with fail := some (code, entry), reading := none, left := 0, got := [] }

/-- The entry of a source by its position. -/
def sourceEntry (r : RestoreRun) (k : Nat) : Nat := ((listSources r.bytes).getD k ([], 0)).2

/-- The sources whose directory no entry needs are passed over. -/
def passDirectories (r : RestoreRun) : Nat → RestoreRun
  | 0 => r
  | k + 1 => if needsDirectory r r.dirs.length then r else passDirectories { r with dirs := r.dirs ++ [[]] } k

/-- The next read, or the end, in the order of R347: of a source's directory page only where an entry takes items of it. -/
def nextRead (r : RestoreRun) (s : State) : State :=
  let n := (listSources r.bytes).length
  if r.seals.length < n then readSource r.seals.length 0 1024 r s
  else if r.lists.length < n then
    readSource r.lists.length pageSize (8 * Nat.max 1 (sealPages (r.seals.getD r.lists.length []))) r s
  else
  let r := passDirectories r (n - r.dirs.length)
  if r.dirs.length < n then
    let sl := r.seals.getD r.dirs.length []
    readSource r.dirs.length (slotPage sl (sealScope sl)) pageSize r s
  else
    let bad := if r.checked then none
      else ((numbered r.bytes).findSome? (fun e =>
        let c := targetCode s r e
        if c = 0 then none else some (c, e.2))).orElse (fun _ => badDirectory r)
    match bad with
    | some (c, e) => failRestore c e r s
    | none =>
      let copies := if r.checked then r.copies else (numbered r.bytes).flatMap (entryCopies r)
      let r := { r with checked := true, copies := copies }
      match copies with
      | [] => s.setRestore { r with finished := true }
      | (k, page, _, _) :: _ => readSource k (slotPage (r.seals.getD k []) page) pageSize r s

/-- What was read is checked and used (R347). -/
def useRead (k : Nat) (data : List Byte) (r : RestoreRun) (s : State) : State :=
  let n := (listSources r.bytes).length
  let r := { r with reading := none, got := [] }
  let entry := sourceEntry r k
  if r.seals.length < n then
    let c := sealCode s r.bytes ((listSources r.bytes).getD k ([], 0)).1 data
    if c ≠ 0 then failRestore c entry r s else nextRead { r with seals := r.seals ++ [data] } s
  else if r.lists.length < n then
    let sl := r.seals.getD k []
    let l := data.take (8 * sealPages sl)
    if sha512 l ≠ slice sl 104 64 then failRestore 6 entry r s else nextRead { r with lists := r.lists ++ [l] } s
  else if r.dirs.length < n then
    nextRead { r with dirs := r.dirs ++ [if crc64 data = listedCrc r k (sealScope (r.seals.getD k [])) then data else []] } s
  else match r.copies with
    | [] => s
    | (k, page, e, dest) :: rest =>
      if crc64 data ≠ listedCrc r k page then failRestore 8 e r s
      else
        let s := placePage r k dest data (s.setRestore r)
        nextRead { (s.ckp.restore.getD r) with copies := rest } s

/-- Whether what was read must wait before it is placed: its place lies on stacked memory where something goes before the engine
(R214, R218). -/
def placeWaits (s : State) (r : RestoreRun) : Bool :=
  match r.copies with
  | (_, _, _, .memory a) :: _ => r.checked && snapWaits s a 2048
  | _ => false

/-- The read in hand is used once it is whole and its place takes it. -/
def useWhole (s : State) : State :=
  match s.ckp.restore with
  | none => s
  | some r =>
    match r.reading with
    | none => s
    | some (k, _, n) => if r.left ≠ 0 ∨ placeWaits s r then s else useRead k ((joined r.got).take n) r s

/-- A piece of a restore read arrives, or ends in ERR. -/
def restorePiece (off code : Nat) (data : List Byte) (s : State) : State :=
  match s.ckp.restore with
  | none => s
  | some r =>
    match r.reading with
    | none => s
    | some (k, _, _) =>
      if code ≠ 0 then failRestore 9 (match r.copies with
        | (_, _, e, _) :: _ => if r.checked then e else sourceEntry r k
        | [] => sourceEntry r k) r s
      else
        useWhole (s.setRestore { r with got := r.got ++ [(off, data)], left := r.left - 1 })

/-! ### The end (R350) -/

/-- Whether a request of the job is outstanding (R346, R404). -/
def jobOutstanding (s : State) : Bool :=
  s.requests.any (fun r => match r.purpose with
    | .ckpRestore _ => false
    | .timeReq => false
    | .nodeArrive _ => false
    | .nodeRelease _ _ => false
    | _ => decide (r.pkt.jid ≠ 0) || decide (s.jid = 0))

def isRestoreRead : Purpose → Bool
  | .ckpRestore _ => true
  | _ => false

/-- Success: tags cleared, rounds 0, SYN_STEP the list's, M7 extended, the launch arrival free to complete. -/
def restoreSucceeds (r : RestoreRun) (s : State) : State :=
  let s := forEach (s.tiles.map (·.1)) (fun t s => s.modTile t (fun x => { x with tags := [] })) s
  let s := forEach (s.hurdles.map (·.1)) (fun h s => s.setHurdle h { s.hurdle h with round := 0 }) s
  let s := extendMeas 7 r.seals.flatten s
  let s := s.setReg (regAddr .synStep) (BitVec.ofNat 64 (listStep r.bytes))
  let s := s.setReg (regAddr .ckpRestoreCtl) (BitVec.ofNat 64 8)
  let s := { s with ckp := { s.ckp with restore := none, restored := true, blocked := false, holdAfter := false, readyAt := s.time } }
  progressHurdle s.launchHurdle (flushGated s)

/-- A failure: STATE 3 with its code and entry; codes 8 and 9 withhold the launch arrival (R348). -/
def restoreFails (code entry : Nat) (s : State) : State :=
  let s := s.setReg (regAddr .ckpRestoreCtl) (BitVec.ofNat 64 (12 + code * 2 ^ 4 + entry % 2 ^ 12 * 2 ^ 8))
  { s with ckp := { s.ckp with
    restore := none, restored := false, resume := [], blocked := s.ckp.blocked || decide (8 ≤ code) } }

/-- RESTORE_COMPLETE: the list is taken up once the job's requests have ended; the end is recorded once it is there. -/
def restoreStep (s : State) : State :=
  match s.ckp.restore with
  | none => s
  | some r =>
    match r.fail with
    | some (code, entry) => restoreFails code entry s
    | none =>
      if r.finished then restoreSucceeds r s
      else if r.reading.isSome ∨ jobOutstanding s ∨ s.awaits isRestoreRead then s
      else match structureFault s (s.field .ckpRestore 0 0 0 48) r.bytes with
        | some e => failRestore 1 e r s
        | none => nextRead r s

def execRestoreComplete (s : State) : Host.Outcome State Fault Refusal := act (s.ckp.restore.isSome && !s.akm.frozen) restoreStep s

end Sys2Proof.Machine
end

