-- ==== Sys2Proof/Machine/Session.lean ====
section
/-! DEFINITION. Datagrams from the host (R358 to R365, R400 to R403): handshakes, DATA, ACK and CLOSE, the timers of a
session, the Ethernet links, and the frames the node answers, with the meanings of their commands. -/

namespace Sys2Proof.Machine

/-! ### The header of a datagram (R360) -/

structure CrookHead where
  type : Nat
  num : Nat
  seq : Nat
  ackn : Nat
  sack : Nat
  len : Nat
  deriving DecidableEq, Repr

/-- The header of a datagram; none where R361 has it discarded: VERSION, a reserved field, or LEN beyond its limit. A tag of
`tag` bytes follows the payload. -/
def parseHead (s : State) (tag : Nat) (dg : List Byte) : Option CrookHead :=
  let h := natOf (dg.take 32)
  let len := bitsOf h 224 16
  if dg.length = 32 + len + tag ∧ bitsOf h 0 8 = 1 ∧ bitsOf h 16 16 = 0 ∧ bitsOf h 240 16 = 0 ∧ len ≤ s.maxData + 64 then
    some { type := bitsOf h 8 8, num := bitsOf h 32 32, seq := bitsOf h 64 64, ackn := bitsOf h 128 64,
           sack := bitsOf h 192 32, len := len }
  else none

/-- Whether Crook is served: READY or FATAL_HOLD, on a link that is up (R372, R379). -/
def crookOn (s : State) (k : Nat) : Bool := (s.ready || s.fatalHold) && decide (k < 4) && s.bit .hecLinkStatus k 0

/-- The slot of an open session by its number and link (R364). -/
def slotOf (s : State) (k num : Nat) : Option Nat :=
  (s.hec.sessions.find? (fun e => match e.2 with
    | some x => decide (x.num = num) && decide (x.link = k)
    | none => false)).map (·.1)

/-- Bytes that a link's receive buffer holds, and its size (R359). -/
def rxBytes (s : State) (k : Nat) : Nat := (Table.get [] s.hec.rx k).foldl (fun n d => n + d.length) 0
def rxSize : Nat := 0x1000000

/-- A Crook datagram enters its link's receive buffer; a full buffer discards it, counted in RX_DROP (R359). -/
def bufferDatagram (k : Nat) (dg : List Byte) (s : State) : State :=
  if rxSize < rxBytes s k + dg.length then s.bump .hecErrStatus 0 16 32
  else { s with hec := { s.hec with rx := Table.modify [] s.hec.rx k (fun l => l ++ [dg]) } }

/-- A datagram that arrives by its own command: the engine takes it at once where none waits before it, else it goes through the
buffer as any other (R359; log entry 50). -/
def arriveDatagram (k : Nat) (dg : List Byte) (take : State → State) (s : State) : State :=
  if (Table.get [] s.hec.rx k).isEmpty then take s else bufferDatagram k dg s

/-! ### Handshakes (R401 to R403) -/

def isHandshake (k hid : Nat) (h : Handshake) : Bool := decide (h.link = k) && decide (h.hid = hid)

def dropHandshake (k hid : Nat) (s : State) : State :=
  { s with hec := { s.hec with handshakes := s.hec.handshakes.filter (fun h => !isHandshake k hid h) } }

def setHandshake (h : Handshake) (s : State) : State :=
  let s := dropHandshake h.link h.hid s
  { s with hec := { s.hec with handshakes := s.hec.handshakes ++ [h] } }

def handshakeOf (s : State) (k hid : Nat) : Option Handshake := s.hec.handshakes.find? (isHandshake k hid)

/-- A fragment prefix and body: index, count, handshake ID, body; none where the prefix breaks R401. -/
def fragmentOf (dg : List Byte) : Option (Nat × Nat × Nat × List Byte) :=
  let b := dg.drop 32
  let index := (b.getD 0 0).toNat
  let count := (b.getD 1 0).toNat
  if 4 ≤ b.length ∧ index < count ∧ count ≤ 8 then some (index, count, natOf (slice b 2 2), b.drop 4) else none

/-- The fragments with one more; the first of each index counts. -/
def addFragment (l : List (Nat × List Byte)) (i : Nat) (b : List Byte) : List (Nat × List Byte) :=
  if l.any (fun x => decide (x.1 = i)) then l else l ++ [(i, b)]

/-- The message, once every fragment is there. -/
def wholeMessage (l : List (Nat × List Byte)) (count : Nat) : Option (List Byte) :=
  if (List.range count).all (fun i => l.any (fun x => decide (x.1 = i))) then
    some ((List.range count).flatMap (fun i => ((l.find? (fun x => decide (x.1 = i))).map (·.2)).getD []))
  else none

/-- The host key of an INIT body; none where R400 or the layout refuses it. -/
def initKey (s : State) (body : List Byte) : Option (List Byte) :=
  let n := natOf (slice body 32 2)
  if body.length ≠ 34 + n then none
  else match Config.certKey (slice body 34 n) with
    | some key => if (Config.policyHosts (s.section_ 6)).take 4 |>.elem (sha512 key) then some key else none
    | none => none

/-- A whole INIT: the next session number, R_n and S_n, and the request for the REPLY's signature (R396, R401). -/
def acceptInit (h : Handshake) (body key : List Byte) (id : List Byte × List Byte × List Byte × List Byte) (s : State) :
    State :=
  let num := s.hec.lastNum + 1
  let rn := (padTo 32 (Config.freeBytes s.freeCtr)).take 32
  let sn := (padTo 32 (Config.freeBytes (s.freeCtr + 1))).take 32
  let cert := id.2.2.1
  let draft := rn ++ bytesOf 4 num ++ bytesOf 2 cert.length ++ cert
    ++ Config.oaepSeal key sn (Config.freeBytes (s.freeCtr + 2))
  let s := s.fresh.fresh.fresh
  let s := { s with hec := { s.hec with lastNum := num } }
  let s := setHandshake { h with init := body, num := num, hostKey := key, sn := sn, draft := draft } s
  requestSignature (linkEp h.link) (.reply h.link h.hid) (sha512 (body ++ draft)) s

/-- INIT (R364, R395, R401): discarded while 16 sessions are open, after the last number, or without the identity key. -/
def takeInit (k : Nat) (dg : List Byte) (s : State) : State :=
  match parseHead s 0 dg, fragmentOf dg with
  | some head, some (i, count, hid, b) =>
    if head.num ≠ 0 then s
    else if 16 ≤ s.hec.sessions.length ∨ 0xFFFFFFFF ≤ s.hec.lastNum then authFail s
    else match s.aks.identity with
      | none => s
      | some id =>
        let h := (handshakeOf s k hid).getD { link := k, hid := hid, startAt := s.now }
        if h.num ≠ 0 then s else
        let h := { h with initFrags := addFragment h.initFrags i b }
        match wholeMessage h.initFrags count with
        | none => setHandshake h s
        | some body => match initKey s body with
          | some key => acceptInit h body key id s
          | none => authFail (dropHandshake k hid s)
  | some _, none => authFail s
  | none, _ => s

def execInit (k : Nat) (dg : List Byte) (s : State) : Host.Outcome State Fault Refusal := act (crookOn s k) (arriveDatagram k dg (takeInit k dg)) s

/-- The REPLY goes out in fragments once its signature is there (R401). -/
def sendReply (k hid : Nat) (sig : List Byte) (s : State) : State :=
  match handshakeOf s k hid with
  | none => s
  | some h =>
    let body := h.draft ++ sig
    let cs := chunksOf s.maxData 8 body
    let s := setHandshake { h with reply := some body } s
    forEach cs.zipIdx (fun c s =>
      s.sendDatagram k (handshakeDatagram 0x02 h.num c.2 cs.length hid c.1)) s

/-- The lowest free slot (R364). -/
def freeSlot (s : State) : Option Nat := (List.range 16).find? (fun i => (s.session i).isNone)

/-- A FINISH body checked: S_h where it verifies (R401, R402). -/
def finishSecret (s : State) (h : Handshake) (reply body : List Byte) : Option (List Byte) :=
  match s.aks.identity with
  | none => none
  | some id =>
    if body.length ≠ 1028 ∨ natOf (body.take 4) ≠ h.num then none
    else if Config.rsaVerify h.hostKey (sha512 (h.init ++ reply ++ body.take 516)) (body.drop 516) = false then none
    else match Config.oaepOpen id.1 (slice body 4 512) with
      | some sh => if sh.length = 32 then some sh else none
      | none => none

/-- The session opens with its keys (R402). -/
def openSession (h : Handshake) (reply body sh : List Byte) (slot : Nat) (s : State) : State :=
  let t := sha512 (h.init ++ reply ++ body)
  let km := hmac512 (sh ++ h.sn) (ascii "crook" ++ t)
  (dropHandshake h.link h.hid s).setSession slot (some {
    num := h.num, link := h.link, hostKey := km.take 32, nodeKey := slice km 32 32, secret := sh ++ h.sn,
    heardAt := s.now })

/-- FINISH (R402). -/
def takeFinish (k : Nat) (dg : List Byte) (s : State) : State :=
  match parseHead s 0 dg, fragmentOf dg with
  | some head, some (i, count, hid, b) =>
    match handshakeOf s k hid with
    | none => s
    | some h =>
      match h.reply with
      | none => s
      | some reply =>
        if head.num ≠ h.num then s else
        let h := { h with finFrags := addFragment h.finFrags i b }
        match wholeMessage h.finFrags count with
        | none => setHandshake h s
        | some body =>
          match finishSecret s h reply body, freeSlot s with
          | some sh, some slot => openSession h reply body sh slot s
          | _, _ => authFail (setHandshake { h with finFrags := [] } s)
  | some _, none => authFail s
  | none, _ => s

def execFinishMsg (k : Nat) (dg : List Byte) (s : State) : Host.Outcome State Fault Refusal :=
  act (crookOn s k) (arriveDatagram k dg (takeFinish k dg)) s

/-- CLOSE (R401, R403): of one fragment or several, joined under the host's handshake ID; a valid tag ends the session. -/
def takeClose (k : Nat) (dg : List Byte) (s : State) : State :=
  match parseHead s 0 dg with
  | none => s
  | some head =>
    match slotOf s k head.num with
    | none => s
    | some slot =>
      match s.session slot, fragmentOf dg with
      | some x, some (0, 1, _, b) =>
        if b = bytesOf 4 x.num ++ x.closeTag 0 then endSession slot s else authFail s
      | some x, some (i, count, hid, b) =>
        let frags := addFragment (if x.closing.1 = hid then x.closing.2 else []) i b
        match wholeMessage frags count with
        | none => s.setSession slot (some { x with closing := (hid, frags) })
        | some body =>
          if body = bytesOf 4 x.num ++ x.closeTag 0 then endSession slot s
          else authFail (s.setSession slot (some { x with closing := (0, []) }))
      | _, _ => authFail s

def execClose (k : Nat) (dg : List Byte) (s : State) : Host.Outcome State Fault Refusal :=
  act (crookOn s k) (arriveDatagram k dg (takeClose k dg)) s

/-- HANDSHAKE_TIMEOUT (R401): 1 s after the first INIT fragment. -/
def overdueHandshake (s : State) (n : Nat) : Option Handshake :=
  match s.hec.handshakes[n]? with
  | some h => if h.startAt + ticksPerSecond ≤ s.now then some h else none
  | none => none

def timeOutHandshake (n : Nat) (s : State) : State :=
  match overdueHandshake s n with
  | some h => dropHandshake h.link h.hid s
  | none => s

def execHandshakeTimeout (n : Nat) (s : State) : Host.Outcome State Fault Refusal := .next (timeOutHandshake n s)

/-! ### DATA and ACK (R361, R362) -/

/-- A datagram of a session whose tag verifies: its slot and plaintext. A failing tag is counted. -/
def openDatagram (k : Nat) (head : CrookHead) (dg : List Byte) (s : State) : State × Option (Nat × List Byte) :=
  match slotOf s k head.num with
  | none => (s, none)
  | some slot =>
    match s.session slot with
    | none => (s, none)
    | some x =>
      match gcmOpen x.hostKey (crookNonce 0 head.seq) (dg.take 32) (dg.drop 32) with
      | some p => (s.setSession slot (some { x with heardAt := s.now }), some (slot, p))
      | none => (authFail s, none)

/-- The payloads that now follow in SEQ order are delivered, each once. -/
def deliverInOrder (slot : Nat) : Nat → State → State
  | 0, s => s
  | n + 1, s =>
    match s.session slot with
    | none => s
    | some x =>
      match x.early.find? (fun e => decide (e.1 = x.ackn)) with
      | none => s
      | some e =>
        let s := s.setSession slot (some { x with ackn := x.ackn + 1, early := x.early.filter (fun y => decide (y.1 ≠ x.ackn)) })
        deliverInOrder slot n (deliver slot e.2 s)

/-- An authentic DATA datagram (R362). One whose SEQ lies from ACKN to ACKN + 255 is accepted: its acknowledgements count, it is
acknowledged, and it is delivered in order. Of one received before, only the acknowledgement is sent again; any other is
discarded. When SEQ comes to 2^32, the node closes the session (R403). -/
def acceptData (slot : Nat) (head : CrookHead) (p : List Byte) (s : State) : State :=
  match s.session slot with
  | none => s
  | some x =>
    if x.ackn + 255 < head.seq then s
    else if head.seq < x.ackn then sendAck slot s
    else
      let old := x.early.any (fun e => decide (e.1 = head.seq))
      let s := s.setSession slot (some (if old then x else { x with early := x.early ++ [(head.seq, p)] }))
      let s := acknowledgeUpTo slot head.ackn head.sack s
      let s := sendAck slot (deliverInOrder slot 256 s)
      match s.session slot with
      | some y => if y.num = x.num ∧ 2 ^ 32 ≤ y.ackn then closeByNode slot s else s
      | none => s

/-- DATA (R362). -/
def takeData (k : Nat) (dg : List Byte) (s : State) : State :=
  match parseHead s 16 dg with
  | none => s
  | some head =>
    match openDatagram k head dg s with
    | (s, some (slot, p)) => acceptData slot head p s
    | (s, none) => s

def execDataMsg (k : Nat) (dg : List Byte) (s : State) : Host.Outcome State Fault Refusal :=
  act (crookOn s k) (arriveDatagram k dg (takeData k dg)) s

/-- ACK (R362, R363): LEN is 0. -/
def takeAck (k : Nat) (dg : List Byte) (s : State) : State :=
  match parseHead s 16 dg with
  | none => s
  | some head =>
    if head.len ≠ 0 then s else
    match openDatagram k head dg s with
    | (s, some (slot, _)) => acknowledgeUpTo slot head.ackn head.sack s
    | (s, none) => s

def execCrookAck (k : Nat) (dg : List Byte) (s : State) : Host.Outcome State Fault Refusal :=
  act (crookOn s k) (arriveDatagram k dg (takeAck k dg)) s

/-! ### Timers (R363, R365) -/

/-- RETRANSMIT: RTO after the last sending; a datagram sent 16 times ends the session instead. -/
def retransmit (slot seq : Nat) (s : State) : State :=
  match s.session slot with
  | none => s
  | some x =>
    match x.unacked.find? (fun u => decide (u.seq = seq)) with
    | none => s
    | some u =>
      if s.now < u.sentAt + s.rto then s
      else if 16 ≤ u.times then endSession slot (s.raiseBit .hecErrStatus 0 0)
      else
        let again (v : Unacked) : Unacked := if v.seq = seq then { v with sentAt := s.now, times := v.times + 1 } else v
        (s.setSession slot (some { x with unacked := x.unacked.map again })).sendDatagram x.link u.datagram

def execRetransmit (slot seq : Nat) (s : State) : Host.Outcome State Fault Refusal := .next (retransmit slot seq s)

/-- SESSION_IDLE_TIMEOUT. -/
def idleSession (slot : Nat) (s : State) : Bool :=
  match s.session slot with
  | some x => decide (x.heardAt + s.idleTmo ≤ s.now)
  | none => false

def execSessionIdleTimeout (slot : Nat) (s : State) : Host.Outcome State Fault Refusal :=
  act (idleSession slot s) (endSession slot) s

/-! ### Ethernet links (R356, R365) -/

/-- ETH_LINK_UP: a link that the image sets up trains, from P5 on. -/
def ethUp (k : Nat) (s : State) : State := (s.setBit .hecLinkStatus k 0).linkEvent 1 k 1 (linkEp k)

def execEthLinkUp (k : Nat) (s : State) : Host.Outcome State Fault Refusal :=
  act (decide (k < 4) && decide (s.field .hecLinkStatus k 0 1 2 ≠ 0) && !s.bit .hecLinkStatus k 0 && !s.brc.tapDrive && decide (5 ≤ s.bootPhase))
    (ethUp k) s

/-- ETH_LINK_DOWN: the link's sessions and handshakes end (R365). -/
def ethDown (k : Nat) (s : State) : State :=
  let s := ((s.clearBit .hecLinkStatus k 0).raiseBit .hecErrStatus 0 1).linkEvent 1 k 0 (linkEp k)
  let s := { s with hec := { s.hec with handshakes := s.hec.handshakes.filter (fun h => decide (h.link ≠ k)) } }
  forEach (List.range 16) (fun i s => match s.session i with
    | some x => if x.link = k then endSession i s else s
    | none => s) s

def execEthLinkDown (k : Nat) (s : State) : Host.Outcome State Fault Refusal :=
  act (decide (k < 4) && s.bit .hecLinkStatus k 0) (ethDown k) s

/-! ### Frames (R357, R358) -/

/-- The Internet checksum of bytes: the complement of the ones' complement sum of 16-bit words. -/
def inetSum (b : List Byte) : Nat :=
  let sum := (chunksOf 2 (b.length + 1) b).foldl (fun n w => n + natBE (padTo 2 w)) 0
  let f (n : Nat) : Nat := n % 65536 + n / 65536
  65535 - f (f (f sum))

/-- A frame of a link, padded to the 60 bytes of the shortest one. -/
def sendFrame (k : Nat) (dst vlan : List Byte) (type : Nat) (body : List Byte) (s : State) : State :=
  s.transmit (.frame k (padTo 60 (dst ++ macBytes s k ++ vlan ++ bytesBE 2 type ++ body)))

/-- The answer to an ARP request for an address of the link. -/
def answerArp (k : Nat) (vlan b : List Byte) (s : State) : State :=
  let tpa := slice b 24 4
  if b.take 8 = [0, 1, 8, 0, 6, 4, 0, 1] ∧ (linkAddrs s k).elem tpa then
    sendFrame k (slice b 8 6) vlan 0x0806
      ([0, 1, 8, 0, 6, 4, 0, 2] ++ macBytes s k ++ tpa ++ slice b 8 6 ++ slice b 14 4) s
  else s

/-- An IPv4 packet with its header checksum. -/
def ipv4 (src dst : List Byte) (proto : Nat) (body : List Byte) : List Byte :=
  let h := [0x45, 0] ++ bytesBE 2 (20 + body.length) ++ zeros 4 ++ [64, BitVec.ofNat 8 proto] ++ zeros 2 ++ src ++ dst
  h.take 10 ++ bytesBE 2 (inetSum h) ++ h.drop 12 ++ body

/-- An IPv6 packet with an ICMPv6 message, whose checksum stands at its bytes 2 and 3. -/
def icmpv6 (src dst msg : List Byte) : List Byte :=
  let pseudo := src ++ dst ++ bytesBE 4 msg.length ++ [0, 0, 0, 58]
  let m := msg.take 2 ++ bytesBE 2 (inetSum (pseudo ++ msg)) ++ msg.drop 4
  [0x60, 0, 0, 0] ++ bytesBE 2 m.length ++ [58, 255] ++ src ++ dst ++ m

/-- A Crook datagram by its type (R360); others are discarded. -/
def takeDatagram (k : Nat) (dg : List Byte) (s : State) : State :=
  match (dg.getD 1 0).toNat with
  | 0x01 => takeInit k dg s
  | 0x03 => takeFinish k dg s
  | 0x04 => takeClose k dg s
  | 0x10 => takeData k dg s
  | 0x11 => takeAck k dg s
  | _ => s

/-- The engine takes the oldest datagram of a link's buffer (log entry 50). -/
def takeBuffered (k : Nat) (s : State) : State :=
  match Table.get [] s.hec.rx k with
  | [] => s
  | dg :: rest =>
    let s := { s with hec := { s.hec with rx := Table.set [] s.hec.rx k rest } }
    if crookOn s k then takeDatagram k dg s else s

/-- A UDP datagram to the node's port (R358). -/
def takeUdp (k : Nat) (u : List Byte) (s : State) : State :=
  if natBE (slice u 2 2) = s.field .hecCfg 0 0 0 16 ∧ crookOn s k then
    bufferDatagram k ((u.take (natBE (slice u 4 2))).drop 8) s
  else s

/-- An IPv4 packet: echo requests and UDP to an address of the link. -/
def takeIpv4 (k : Nat) (from_ vlan b : List Byte) (s : State) : State :=
  let hl := 4 * ((b.getD 0 0).toNat % 16)
  let dst := slice b 16 4
  let body := (b.take (natBE (slice b 2 2))).drop hl
  if (linkAddrs s k).elem dst = false then s
  else match (b.getD 9 0).toNat with
    | 1 =>
      if body.getD 0 0 = 8 ∧ body.getD 1 0 = 0 then
        let m := zeros 4 ++ body.drop 4
        sendFrame k from_ vlan 0x0800 (ipv4 dst (slice b 12 4) 1 (zeros 2 ++ bytesBE 2 (inetSum m) ++ body.drop 4)) s
      else s
    | 17 => takeUdp k body s
    | _ => s

/-- An IPv6 packet: neighbour solicitations for an address of the link, echo requests and UDP to one. -/
def takeIpv6 (k : Nat) (from_ vlan b : List Byte) (s : State) : State :=
  let src := slice b 8 16
  let dst := slice b 24 16
  let body := (b.take (40 + natBE (slice b 4 2))).drop 40
  let mine := (linkAddrs s k).elem dst
  match (b.getD 6 0).toNat with
  | 58 =>
    let target := slice body 8 16
    if body.getD 0 0 = 135 ∧ (linkAddrs s k).elem target then
      sendFrame k from_ vlan 0x86DD
        (icmpv6 target src ([136, 0, 0, 0, 0x60, 0, 0, 0] ++ target ++ [2, 1] ++ macBytes s k)) s
    else if body.getD 0 0 = 128 ∧ mine then
      sendFrame k from_ vlan 0x86DD (icmpv6 dst src ([129, 0, 0, 0] ++ body.drop 4)) s
    else s
  | 17 => if mine then takeUdp k body s else s
  | _ => s

/-- Whether a frame keeps the link's VLAN (R356): its tag names the VLAN that the image sets, and it has no tag where none is set. -/
def goodTag (s : State) (k : Nat) (f : List Byte) : Bool :=
  let tagged := decide (slice f 12 2 = [0x81, 0])
  match Config.policyVlan (s.section_ 6) k with
  | some id => tagged && decide (bitsOf (natBE (slice f 14 2)) 0 12 = id.toNat)
  | none => !tagged

/-- ETHERNET_FRAME (R358): what is for the node's own addresses, in the link's VLAN, is answered or is a Crook datagram; every other
frame is discarded. -/
def takeFrame_ (k : Nat) (f : List Byte) (s : State) : State :=
  if goodTag s k f = false then s else
  let dst := f.take 6
  let vlan := linkTag s k
  let f' := f.drop (12 + vlan.length)
  let body := f'.drop 2
  let from_ := slice f 6 6
  if dst ≠ macBytes s k ∧ (dst.getD 0 0).toNat % 2 = 0 then s
  else match natBE (f'.take 2) with
    | 0x0806 => answerArp k vlan body s
    | 0x0800 => takeIpv4 k from_ vlan body s
    | 0x86DD => takeIpv6 k from_ vlan body s
    | _ => s

def execEthernetFrame (k : Nat) (frame : List Byte) (s : State) : Host.Outcome State Fault Refusal :=
  act (decide (k < 4) && s.bit .hecLinkStatus k 0 && decide (frame.length ≤ 9216)) (takeFrame_ k frame) s

end Sys2Proof.Machine
end

