-- ==== Sys2Proof/Machine/Aks.lean ====
section
/-! DEFINITION. Akenavis security (chapter 17): job changes, quotes, peer certificates, debug tokens and signatures, with the
meanings of their commands. -/

namespace Sys2Proof.Machine

/-- The endpoint a requester's requests carry. -/
def requesterEp : Requester → Nat
  | .tile t => t
  | .core c _ => 608 + c % 16
  | .engine e => 624 + e
  | .hfi p => 640 + p
  | .hec p => if p = 0 then 656 else 657
  | .ckp => 658
  | .hub => 659
  | .akm => 660
  | .aks => 661

/-- Whether a requester is the HEC Crook engine or AKM. -/
def hecOrAkm : Requester → Bool
  | .hec _ => true
  | .akm => true
  | _ => false

/-! ### The job change (R404, R405) -/

/-- Every hurdle disarmed, live and shadow, which ends the waiting of captured groups, and every window's V cleared. -/
def disarmAll (s : State) : State :=
  let s := forEach ((List.range 1024).filter (fun h => s.armed h || bitOf (s.getShadow (regAddr .synHcfg h)).toNat 0)) (fun h s =>
    let a := regAddr .synHcfg h
    let s := s.setReg a (BitVec.ofNat 64 (putBits (s.getReg a).toNat 0 1 0))
    let s := s.setShadow a (BitVec.ofNat 64 (putBits (s.getShadow a).toNat 0 1 0))
    let x := s.hurdle h
    s.setHurdle h { ({} : Hurdle) with round := x.round, last := x.last, late := x.late }) s
  let s := applyFree s
  forEach ((List.range 256).filter (fun w => s.field .hfiWinAttr w 0 32 1 = 1)) (fun w s => s.setField .hfiWinAttr w 0 32 1 0) s

/-- Steps 1 and 2: JID reads 0, BUSY is set, agents stop, a restore is dropped (log entry 27), hurdles and windows go. -/
def startJobChange (next : Nat) (s : State) : State :=
  let s := (s.setField .aksJob 0 0 0 16 0).setField .aksJob 0 0 33 1 1
  let s := { s with aks := { s.aks with jobChange := some next } }
  let s := stopAgents s
  let s := if s.ckp.restore.isSome then
      { s.setReg (regAddr .ckpRestoreCtl) 0 with ckp := { s.ckp with restore := none } }
    else s
  disarmAll s

/-- A write of AKS_JOB by the HEC or AKM: NEXT, and GO where it is 1. -/
def writeJob (v : Word) (s : State) : State :=
  let s := s.setField .aksJob 0 0 16 16 (bitsOf v.toNat 16 16)
  if ¬ bitOf v.toNat 32 then s
  else
    let s := s.setField .aksJob 0 0 34 1 0
    if s.fatalHold then s.setField .aksJob 0 0 34 1 1
    else if bitsOf v.toNat 16 16 = s.jid ∨ s.aks.jobChange.isSome then s
    else startJobChange (bitsOf v.toNat 16 16) s

/-- JOB_CHANGE. -/
def execJobChange (src : Requester) (v : Word) (s : State) : Host.Outcome State Fault Refusal :=
  .next (guardedWrite src (!hecOrAkm src) (writeJob v) s)

/-- Whether a packet is a request of a job: no response, no time message, with a JID. -/
def Packet.ofJob (p : Packet) : Bool :=
  decide (p.cls ≠ clsRSP) && decide (p.opcode ≠ opTIME_REQ) && decide (p.opcode ≠ opTIME_RSP) && decide (p.jid ≠ 0)

/-- Whether a request of the old job has not ended (R404 step 3): those of the agents, every other of the node with its JID, and those
of other nodes that are on their way here, wait at an endpoint, or are held. -/
def oldJobOutstanding (s : State) : Bool :=
  s.flights.any (fun f => f.pkt.ofJob) || s.delivered.any (fun a => a.pkt.ofJob) || s.heldWrites.any (fun h => h.arr.pkt.ofJob)
  || s.requests.any (fun r => match r.purpose with
    | .timeReq => false
    | .hecRead _ _ => decide (r.pkt.jid ≠ 0)
    | .hecWrite _ _ => decide (r.pkt.jid ≠ 0)
    | .hecCredit _ => decide (r.pkt.jid ≠ 0)
    | .hecLaunch _ _ _ => decide (r.pkt.jid ≠ 0)
    | _ => true)

/-- The registers of block TIL. -/
def isTilReg (a : Nat) : Bool := decide (0xF0000000000 ≤ a) && decide (a < 0xF1000000000)

/-- Zeroisation (R404 step 4, R223, R224): memories but the dump area, tiles with their registers, tallies, engines; core
caches are dropped without write-back. -/
def zeroise (s : State) : State :=
  { s with
    mem := dumpCells s,
    poison := s.poison.filter (fun e => decide (0x7F00000000 ≤ 32 * e.1) && decide (32 * e.1 < 0x8000000000)),
    wrong := s.wrong.filter (fun e => decide (0x7F00000000 ≤ 32 * e.1) && decide (32 * e.1 < 0x8000000000)),
    tiles := [], tallies := [], engines := [], lines := [],
    regs := s.regs.filter (fun e => !isTilReg e.1),
    shadow := s.shadow.filter (fun e => !isTilReg e.1),
    cores := s.cores.map (fun e => (e.1, { e.2 with icache := [] })),
    ckp := { s.ckp with resume := [], restored := false },
    akm := { s.akm with undertaken := [] } }

/-- Step 5: M6 is extended, JID is the new one, BUSY clears; the scopes of accepted tokens are enabled (R407); gated messages
that the step has passed are answered (R369). -/
def endJobChange (next : Nat) (s : State) : State :=
  let s := extendMeas 6 (bytesOf 2 next) (zeroise s).trim
  let s := (s.clearBit .ckpStatus 0 5).clearBit .ckpStatus 0 7
  let s := (s.setField .aksJob 0 0 0 16 next).setField .aksJob 0 0 33 1 0
  let s := match s.aks.debugScope with
    | some scope =>
      let s := s.setField .aksStatus 0 0 1 3 (s.field .aksStatus 0 0 1 3 ||| scope)
      if bitOf scope 2 then
        { s.clearBit .aksStatus 0 0 with aks := { s.aks with identity := none, kLog := [], debugScope := none } }.akmEvent 0x001D 1 661 []
      else { s with aks := { s.aks with debugScope := none } }
    | none => s
  flushGated { s with aks := { s.aks with jobChange := none } }

/-- JOB_CHANGE_COMPLETE. -/
def completeJobChange (s : State) : State :=
  match s.aks.jobChange with
  | some next => if oldJobOutstanding s then s else endJobChange next s
  | none => s

def execJobChangeComplete (s : State) : Host.Outcome State Fault Refusal := act (!s.akm.frozen) completeJobChange s

/-! ### Quotes (R398) -/

/-- The 1,536 bytes that a quote's signature covers. -/
def quoteBody (s : State) : List Byte :=
  let nonce := (List.range 8).flatMap (fun k => bytesOf 8 (s.getReg (regAddr .aksNonce k)).toNat)
  padTo 1536 (bytesOf 2 1 ++ bytesOf 8 s.aks.serial ++ bytesOf 8 s.time
    ++ bytesOf 8 (s.getReg (regAddr .brcImageVer 0)).toNat ++ bytesOf 1 s.bootedSlot ++ bytesOf 1 (s.field .aksStatus 0 0 1 3)
    ++ bytesOf 2 s.jid ++ zeros 34 ++ nonce ++ (List.range 8).flatMap (fun m => measurement s m))

/-- AKS_QUOTE: GO while BUSY = 0 captures the fields; without the identity key the quote ends with NO_IDENTITY (R395). -/
def startQuote (src : Requester) (v : Word) (s : State) : State :=
  if ¬ bitOf v.toNat 0 ∨ s.bit .aksQuoteCtl 0 1 then s
  else if s.aks.identity.isNone then s.setReg (regAddr .aksQuoteCtl) 8
  else
    let b := quoteBody s
    let s := { s.setReg (regAddr .aksQuoteCtl) 2 with aks := { s.aks with quote := some b } }
    requestSignature (requesterEp src) .quote b s

def execAksQuote (src : Requester) (v : Word) (s : State) : Host.Outcome State Fault Refusal :=
  .next (guardedWrite src false (startQuote src v) s)

/-- The signature of a message by the identity key, with a free salt of 64 bytes. -/
def signWith (s : State) (msg : List Byte) : Option (List Byte) :=
  match s.aks.identity with
  | some id => some (Config.rsaSign id.1 msg ((padTo 64 (Config.freeBytes s.freeCtr)).take 64))
  | none => none

/-- QUOTE_COMPLETE: the quote's signature is the next that AKS ends (R396). -/
def endQuote (s : State) : State :=
  match s.aks.signing with
  | (_, _, .quote, msg) :: rest =>
    let sig := signWith s msg
    let s := { s.fresh with aks := { s.aks with signing := rest, quote := none } }
    match sig with
    | none => s.setReg (regAddr .aksQuoteCtl) 8
    | some g =>
      let q := msg ++ g
      let s := forEach (List.range 256) (fun k s =>
        s.setReg (regAddr .aksQuote k) (BitVec.ofNat 64 (natOf (slice q (8 * k) 8)))) s
      s.setReg (regAddr .aksQuoteCtl) 4
  | _ => s

def execQuoteComplete (s : State) : Host.Outcome State Fault Refusal := .next (endQuote s)

/-- SIGNATURE_COMPLETE (R396): the REPLY goes out, or the seal is written. -/
def endSignature (s : State) : State :=
  match s.aks.signing with
  | (_, _, .reply k hid, msg) :: rest =>
    let sig := signWith s msg
    let s := { s.fresh with aks := { s.aks with signing := rest } }
    match sig with
    | some g => sendReply k hid g s
    | none => dropHandshake k hid s
  | (_, _, .seal d, msg) :: rest =>
    let sig := signWith s msg
    let s := { s.fresh with aks := { s.aks with signing := rest } }
    match sig with
    | some g => writeSeal d msg g s
    | none => failDestination d s
  | _ => s

def execSignatureComplete (s : State) : Host.Outcome State Fault Refusal := .next (endSignature s)

/-! ### Peer certificates -/

/-- A buffer of AKS registers as bytes. -/
def aksBuffer (s : State) (n : RegName) (words : Nat) : List Byte :=
  (List.range words).flatMap (fun k => bytesOf 8 (s.getReg (regAddr n k)).toNat)

/-- The key and serial of a certificate that the node's identity CA verifies (R395). -/
def peerKey (s : State) (cert : List Byte) : Option (List Byte × Nat) :=
  match s.aks.identity with
  | none => none
  | some id =>
    match Config.certKey id.2.2.2, Config.certKey cert, Config.certSerial cert with
    | some ca, some key, some serial => if Config.certVerifies ca cert then some (key, serial) else none
    | _, _, _ => none

/-- PEER_LOAD: RESULT 1 with the key stored in its slot, or RESULT 2; a GO while a restore runs is refused. -/
def loadPeer (v : Word) (s : State) : State :=
  if ¬ bitOf v.toNat 0 then s else
  let slot := bitsOf v.toNat 4 2
  match s.ckp.restore, peerKey s (aksBuffer s .aksPeerBuf 512) with
  | none, some (key, serial) =>
    let s := { s with aks := { s.aks with peers := Table.set none s.aks.peers slot (some key) } }
    (s.setReg (regAddr .aksPeerSerial slot) (BitVec.ofNat 64 serial)).setReg (regAddr .aksPeerCtl) 4
  | _, _ => s.setReg (regAddr .aksPeerCtl) 8

def execPeerLoad (src : Requester) (v : Word) (s : State) : Host.Outcome State Fault Refusal :=
  .next (guardedWrite src false (loadPeer v) s)

/-! ### Debug tokens (R406, R407) -/

/-- The scope of a token that is accepted; none for one that is refused. -/
def tokenScope (s : State) (t : List Byte) : Option Nat :=
  let nonce := aksBuffer s .aksDebugNonce 4
  let scope := (t.getD 42 0).toNat
  let lk := natOf (slice t 46 2)
  let key := slice t 48 lk
  if natOf nonce ≠ 0 ∧ natOf (t.take 2) = 1 ∧ natOf (slice t 2 8) = s.aks.serial ∧ slice t 10 32 = nonce ∧ scope ≠ 0 ∧ scope < 8
      ∧ natOf (slice t 43 3) = 0 ∧ lk ≤ 976 ∧ natOf (slice t (48 + lk) (976 - lk)) = 0 ∧ natOf (slice t 1536 512) = 0
      ∧ sha512 key = Config.romDebugHash ∧ Config.rsaVerify key (t.take 1024) (slice t 1024 512) then
    some scope
  else none

/-- DEBUG_TOKEN: an accepted token extends M5 and starts a job change to JID 0, after which its scope is enabled; a refused
one is counted, and the third is a SECURITY reset (R407, R408). A new nonce follows each verification. -/
def checkToken (v : Word) (s : State) : State :=
  if ¬ bitOf v.toNat 0 then s else
  let t := aksBuffer s .aksToken 256
  match tokenScope s t with
  | some scope =>
    let s := newDebugNonce (extendMeas 5 t (s.setField .aksDebugCtl 0 0 2 2 1))
    startJobChange 0 { s with aks := { s.aks with debugScope := some (scope ||| s.aks.debugScope.getD 0) } }
  | none =>
    let fails := Nat.min 3 (s.field .aksDebugCtl 0 0 6 2 + 1)
    let s := newDebugNonce ((s.setField .aksDebugCtl 0 0 2 2 2).setField .aksDebugCtl 0 0 6 2 fails)
    if fails = 3 then recognise causeSECURITY 4 s else s

def execDebugToken (src : Requester) (v : Word) (s : State) : Host.Outcome State Fault Refusal :=
  .next (guardedWrite src false (checkToken v) s)

end Sys2Proof.Machine
end

