-- ==== Sys2Proof/Machine/Akm.lean ====
section
/-! DEFINITION. Akenavis management (chapter 18): pen commands, the credits of penned units, fold voltages and the ageing log,
telemetry, and the fatal dump; power, tsync and the TAP (chapter 19); with the meanings of their commands. -/

namespace Sys2Proof.Machine

/-- AKM works: the node is neither OFF nor in a reset hold, nor frozen by a fatal error. -/
def akmWorks (s : State) : Bool := s.working && !s.akm.frozen

/-! ### Penning by command (R412) and undertaken credits (R415) -/

/-- AKM_PEN_CMD: GO pens the unit with reason 6. -/
def penCommand (v : Word) (s : State) : State :=
  if bitOf v.toNat 12 then s.duePen (bitsOf v.toNat 0 2) (bitsOf v.toNat 2 10) (some 6) else s

/-- Whether a requester is the HEC Crook engine. -/
def isHec : Requester → Bool
  | .hec _ => true
  | _ => false

def execAkmPenCmd (src : Requester) (v : Word) (s : State) : Host.Outcome State Fault Refusal :=
  .next (guardedWrite src (!isHec src) (penCommand v) s)

/-- The agent a request belongs to, by agent index (R230). -/
def Purpose.agent : Purpose → Option Nat
  | .tileLoad t _ _ _ => some t
  | .tilePre t _ _ _ => some t
  | .tileStore t _ => some t
  | .tileAtom t _ _ _ _ => some t
  | .tileCredit t _ => some t
  | .tileArrive t _ _ _ => some t
  | .coreLoad c _ _ => some (576 + c)
  | .coreVLoad c _ _ _ _ => some (576 + c)
  | .coreRead c _ => some (576 + c)
  | .coreWrite c _ => some (576 + c)
  | .coreClean c _ => some (576 + c)
  | .coreAtom c _ => some (576 + c)
  | .coreCredit c => some (576 + c)
  | .coreArrive c _ => some (576 + c)
  | .marWrite e _ => some (640 + e)
  | .marCopyRead e _ => some (640 + e)
  | .marCopyWrite e => some (640 + e)
  | .marCredit e _ _ _ => some (640 + e)
  | .marArrive e _ => some (640 + e)
  | _ => none

/-- Credit `n` of the undertaken credits goes out with TERR = 1 once no earlier request of its unit is outstanding. -/
def sendUndertaken (n : Nat) (s : State) : State :=
  match s.akm.undertaken[n]? with
  | some (agent, ep, node, tally, amount) =>
    if s.awaits (fun p => decide (p.agent = some agent)) then s else
    let s := { s with akm := { s.akm with undertaken := dropAt s.akm.undertaken n } }
    s.send ep .undertaken (creditPacket node tally amount true) node.isSome
  | none => s

def execUndertakenCredit (n : Nat) (s : State) : Host.Outcome State Fault Refusal := act (akmWorks s) (sendUndertaken n) s

/-! ### Ageing and margins (R422 to R425) -/

/-- V_LO and V_HI of a fold (the TRIMS section). -/
def foldLow (s : State) (f : Nat) : Nat := Config.trimLow (s.section_ 3) f
def foldHigh (s : State) (f : Nat) : Nat := Config.trimHigh (s.section_ 3) f
def foldVolt (s : State) (f : Nat) : Nat := s.field .akmFold f 0 0 12

/-- The slack that tile `j` of a fold showed last: 0xFF where it is penned, due to be, or not enabled. -/
def tileSlack (s : State) (f j : Nat) : Nat :=
  if s.tileOn (foldTile f j) ∧ s.penIsDue 0 (foldTile f j) = false then Nat.min 255 ((Table.get [] s.akm.slacks f).getD j 255) else 255

/-- The least slack over a fold's enabled, unpenned tiles (R422). -/
def leastSlack (s : State) (f : Nat) : Nat :=
  (List.range 36).foldl (fun m j => Nat.min m (tileSlack s f j)) 255

/-- Ticks in an hour. -/
def ticksPerHour : Nat := 3600 * ticksPerSecond

/-- Bytes 0 to 223 of an ageing-log record of a fold (R425). -/
def ageingRecord (f kind : Nat) (s : State) : List Byte :=
  let pens := (List.range 36).foldl (fun m j => if s.akm.marginPens.elem (foldTile f j) then m + 2 ^ j else m) 0
  padTo 224 (bytesOf 8 s.akm.logSeq ++ bytesOf 8 (Config.operationSeconds + s.operated / ticksPerSecond) ++ bytesOf 1 f
    ++ bytesOf 1 kind ++ bytesOf 2 (foldVolt s f) ++ (List.range 36).map (fun j => BitVec.ofNat 8 (tileSlack s f j))
    ++ bytesOf 5 pens)

/-- Records written in the last hour of operation. -/
def recentRecords (s : State) : List Nat := s.akm.logHour.filter (fun t => decide (s.operated < t + ticksPerHour))

/-- A record's bytes go into the log, under the next sequence number; without K_log nothing is written. -/
def putRecord (body : List Byte) (s : State) : State :=
  let n := s.akm.logSeq
  let s := { s with akm := { s.akm with logSeq := n + 1, logHour := recentRecords s ++ [s.operated] } }
  if s.aks.kLog.isEmpty then s else writeRecord ageingLog (n % ageingSlots) (bytesOf 8 n ++ body.drop 8) s

/-- A record of a fold: written, or held as the fold's newest while 64 have been written within the hour (R425). -/
def logAgeing (f kind : Nat) (s : State) : State :=
  let body := ageingRecord f kind s
  if (recentRecords s).length < 64 then
    putRecord body { s with akm := { s.akm with logHeld := Table.set [] s.akm.logHeld f [] } }
  else { s with akm := { s.akm with logHeld := Table.set [] s.akm.logHeld f body } }

/-- Held records go out as the hour allows. -/
def flushAgeing (s : State) : State :=
  match s.akm.logHeld with
  | [] => s
  | (f, body) :: _ =>
    if (recentRecords s).length < 64 then
      putRecord body { s with akm := { s.akm with logHeld := Table.set [] s.akm.logHeld f [] } }
    else s

/-- A step of 5 mV, with its MARGIN event and its record. -/
def stepVoltage (f : Nat) (up : Bool) (slack : Nat) (s : State) : State :=
  let v := if up then foldVolt s f + 5 else foldVolt s f - 5
  let s := s.setField .akmFold f 0 0 12 v
  let s := if up then s.bump .akmFold f 20 16 else s
  let s := s.akmEvent 0x001E 0 660 (bytesOf 1 f ++ bytesOf 2 v ++ bytesOf 1 (Nat.min 255 slack)) f
  logAgeing f (if up then 1 else 2) s

/-- A margin penning (reason 4), with its record. -/
def marginPen (t : Nat) (s : State) : State :=
  let s := s.duePen 0 t (some 4)
  let s := { s with akm := { s.akm with
    marginPens := if s.akm.marginPens.elem t then s.akm.marginPens else t :: s.akm.marginPens } }
  logAgeing (foldOf t) 3 s

/-- MARGIN_ALARM (R423): one step up below V_HI, else the tile is penned. -/
def alarm (t slack : Nat) (s : State) : State :=
  let f := foldOf t
  if foldVolt s f < foldHigh s f then stepVoltage f true slack s else marginPen t s

def execMarginAlarm (t slack : Nat) (s : State) : Host.Outcome State Fault Refusal :=
  act (akmWorks s && s.tileOn t && decide (slack < 20)) (alarm t slack) s

/-- Whether a background user may work in window `k` (R418). -/
def windowServes (s : State) (k user : Nat) : Bool := isOpen s k && bitOf (qwinField s k 48 16) user

/-- AGEING_MEASUREMENT (R422): the slacks of tiles 0 to 575, fold by fold. -/
def measureFolds (slacks : List Nat) (s : State) : State :=
  forEach (List.range 16) (fun f s =>
    let s := { s with akm := { s.akm with
      slacks := Table.set [] s.akm.slacks f ((List.range 36).map (fun j => slacks.getD (foldTile f j) 0)) } }
    let sf := leastSlack s f
    let runs := if 80 < sf then Nat.min 8 (Table.get 0 s.akm.highRuns f + 1) else 0
    let s := { s with akm := { s.akm with highRuns := Table.set 0 s.akm.highRuns f runs } }
    s.setField .akmFold f 0 12 8 sf) s

def execAgeingMeasurement (k : Nat) (slacks : List Nat) (s : State) : Host.Outcome State Fault Refusal :=
  act (akmWorks s && windowServes s k 1) (measureFolds slacks) s

/-- R424 for one fold, in the order of its rows. -/
def adjustFold (f : Nat) (s : State) : State :=
  let sf := s.field .akmFold f 0 12 8
  let v := foldVolt s f
  let tight := (List.range 36).filter (fun j => decide (tileSlack s f j < 20))
  if sf < 40 ∧ v < foldHigh s f then stepVoltage f true sf s
  else if Table.get 0 s.akm.highRuns f = 8 ∧ foldLow s f < v then stepVoltage f false sf s
  else if foldHigh s f ≤ v ∧ tight.isEmpty = false then
    let s := forEach tight (fun j s => marginPen (foldTile f j) s) s
    s.setField .akmFold f 0 12 8 (leastSlack s f)
  else s

/-- MARGIN_ADJUSTMENT (R424): every fold that has been measured, in ascending order. -/
def execMarginAdjustment (k : Nat) (s : State) : Host.Outcome State Fault Refusal :=
  act (akmWorks s && windowServes s k 2)
    (forEach (List.range 16) (fun f s => if (Table.get [] s.akm.slacks f).isEmpty then s else adjustFold f s)) s

/-- DAILY_AGEING_RECORD (R425): at least 24 hours of operation after the fold's last. -/
def dailyDue (s : State) (f : Nat) : Bool :=
  akmWorks s && decide (f < 16) && decide (3 ≤ s.bootPhase)
    && decide (Table.get 0 s.akm.dayAt f + 24 * ticksPerHour ≤ s.operated)

def dailyRecord (f : Nat) (s : State) : State :=
  logAgeing f 0 { s with akm := { s.akm with dayAt := Table.set 0 s.akm.dayAt f s.operated } }

def execDailyAgeingRecord (f : Nat) (s : State) : Host.Outcome State Fault Refusal := act (dailyDue s f) (dailyRecord f) s

/-! ### Telemetry (R419) and power (R434, R435) -/

/-- TELEMETRY_SAMPLE: once in a tick of step phase that is a multiple of PERIOD × 256. -/
def telemetryDue (s : State) : Bool :=
  let period := s.field .akmTelem 0 0 0 16
  akmWorks s && decide (period ≠ 0) && decide (s.phase % (256 * period) = 0) && decide (s.akm.telemAt ≤ s.now)

def sampleSensors (temps : List Int) (vin : Nat) (s : State) : State :=
  let s := { s with akm := { s.akm with telemAt := s.now + 1 } }
  let s := s.setField .pwrStatus 0 0 0 16 (Nat.min 65535 vin)
  forEach (temps.take 31).zipIdx (fun p s => noteTemp p.2 p.1 s) s

def execTelemetrySample (temps : List Int) (vin : Nat) (s : State) : Host.Outcome State Fault Refusal :=
  act (telemetryDue s) (sampleSensors temps vin) s

/-- POWER_COMPARISON: every 12,500 ticks. -/
def comparisonDue (s : State) : Bool :=
  s.working && decide (s.now % 12500 = 0) && decide (s.akm.cmpAt ≤ s.now)

/-- The level that a comparison makes of level `k` (R434). -/
def nextSkip (limit k mean : Nat) : Nat :=
  if limit < mean then Nat.min 63 (k + 1) else if 100 * mean < 95 * limit then k - 1 else k

/-- The skip level after a comparison of a mean with a limit, and CAPPED where it rises above 0. -/
def State.skipLevel (s : State) (limit k mean : Nat) : State :=
  let s := s.setSkip (nextSkip limit k mean)
  if k = 0 ∧ 0 < nextSkip limit k mean then s.raiseBit .pwrStatus 0 38 else s

/-- The mean of the last 100 µs against LIMIT moves the skip level by one; CAPPED is set when it rises above 0; the energy
of 10 µs at this power is added (R434). -/
def comparePower (mean : Nat) (s : State) : State :=
  let limit := s.field .pwrCap 0 0 0 16
  let k := s.field .pwrStatus 0 0 32 6
  let capped := s.bit .pwrStatus 0 38
  let s := (s.setField .pwrStatus 0 0 16 16 (Nat.min 65535 mean)).skipLevel limit k mean
  let s := { s with akm := { s.akm with cmpAt := s.now + 1, cmpSkip := k, cmpCapped := capped, cmpMean := mean, energy := s.akm.energy + mean } }
  s.setReg (regAddr .pwrEnergy) (BitVec.ofNat 64 (s.akm.energy / 100))

def execPowerComparison (mean : Nat) (s : State) : Host.Outcome State Fault Refusal := act (comparisonDue s) (comparePower mean) s

/-- A comparison of this tick made again with a new limit, from what stood before it (R435). -/
def compareAgain (limit : Nat) (s : State) : State :=
  let s := s.setField .pwrStatus 0 0 38 1 s.akm.cmpCapped.toNat
  { s with raised := Table.set 0 s.raised (regAddr .pwrStatus) 0 }.skipLevel limit s.akm.cmpSkip s.akm.cmpMean

/-- PWR_CAP (R435): LIMIT between 1,600 W and the grade maximum; 1,600 W until the end of P1. A comparison made in this tick
uses the new value. -/
def writeCap (v : Word) (s : State) : State :=
  let w := bitsOf v.toNat 0 16
  let limit := if s.bootPhase < 2 then 1600 else Nat.max 1600 (Nat.min w (gradeWatts s))
  let s := s.setReg (regAddr .pwrCap) (BitVec.ofNat 64 limit)
  if s.akm.cmpAt = s.now + 1 then compareAgain limit s else s

def execPwrCap (src : Requester) (v : Word) (s : State) : Host.Outcome State Fault Refusal :=
  .next (guardedWrite src (!hecOrAkm src) (writeCap v) s)

/-- Ticks in 100 ns, which tsync has to be low before an edge is accepted (R438). -/
def tsyncLow : Nat := 125

/-- TSYNC_EDGE (R438, R244): an edge less than 1,125,000 ticks after the last accepted one is counted and ignored; one so soon after
another that tsync cannot have been low for 100 ns is ignored. -/
def tsyncEdge (s : State) : State :=
  let within (at_ : Option Nat) (n : Nat) : Bool := match at_ with
    | some t => decide (s.now < t + n)
    | none => false
  let short := within s.tstate.rose tsyncLow
  let early := within s.tstate.edgeAt 1125000
  let s := { s with tstate := { s.tstate with rose := some s.now } }
  if early then s.bump .pwrStatus 0 48 16 else if short then s else tsyncAccepted s

def execTsyncEdge (s : State) : Host.Outcome State Fault Refusal := act s.working tsyncEdge s

/-! ### The fatal dump (R426 to R430) -/

/-- FATAL_ERROR: the codes of R426; D2D_FAIL only after P2. -/
def fatalCounts (s : State) (code : Nat) : Bool :=
  s.working && decide (1 ≤ code) && decide (code ≤ 5) && (decide (code ≠ 2) || decide (3 ≤ s.bootPhase))

def execFatalError (code : Nat) (s : State) : Host.Outcome State Fault Refusal := act (fatalCounts s code) (raiseFatal code) s

def fatalStage (s : State) : Nat := s.field .akmFatal 0 0 32 2

/-- Whether the freeze, or the dump, has gone on longer than its limit (R429). -/
def freezeOverdue (s : State) : Bool := decide (s.akm.freezeAt.getD 0 + ticksOfUs 10000 < s.now)
def dumpOverdue (s : State) : Bool := decide (s.akm.dumpAt.getD 0 + 2 * ticksPerSecond < s.now)

/-- FREEZE_COMPLETE, but in BOOT_FAIL, where nothing else is done (R380): every agent is held as in step 1 of R346, alert_n goes low, STATE is FATAL_HOLD, and the dump begins. -/
def freezeNode (s : State) : State :=
  let s := stopUnits s
  let s := (s.setField .akmFatal 0 0 32 2 2).setField .brcBootStatus 0 0 3 2 3
  { s with
    akm := { s.akm with frozen := true, freezeTime := s.time, dumpAt := some s.now },
    brc := { s.brc with alertN := false } }

def execFreezeComplete (s : State) : Host.Outcome State Fault Refusal :=
  act (s.working && decide (fatalStage s = 1) && !freezeOverdue s) freezeNode s

/-- FREEZE_TIMEOUT and DUMP_TIMEOUT: cause FATAL_ESC, with bit 15 of DETAIL set. -/
def escalate (s : State) : State := recognise causeFATAL_ESC (s.field .akmFatal 0 0 0 16 ||| 0x8000) s

def execFreezeTimeout (s : State) : Host.Outcome State Fault Refusal :=
  act (s.working && decide (fatalStage s = 1) && freezeOverdue s) escalate s

def execDumpTimeout (s : State) : Host.Outcome State Fault Refusal :=
  act (decide (fatalStage s = 2) && dumpOverdue s) escalate s

/-- AKM_MEMORY_UE (R429): at once, with no dump. -/
def execAkmMemoryUe (s : State) : Host.Outcome State Fault Refusal :=
  act (!s.brc.off && s.brc.hold.isNone) (fun s => recognise causeFATAL_ESC (s.field .akmFatal 0 0 0 16) s) s

/-- The addresses of the registers of the IMSIC files and of the APLIC domains (R296). -/
def aiaAddrs : List Nat :=
  let base := 0x0F3000000000
  (List.range 64).flatMap (fun c => [0x100000, 0x100004, 0x200000, 0x200004].map (fun o => base + o + 0x1000 * c))
    ++ ((List.range 0x1000).filter (fun k => aplicNames (4 * k))).flatMap (fun k => [base + 0x300000 + 4 * k, base + 0x308000 + 4 * k])

/-- The address and value of every register, in ascending address. -/
def registerPairs (s : State) : List (Nat × Word) :=
  let all := regRows.flatMap (fun r => (List.range r.count).flatMap (fun i => (List.range r.count2).map (fun j => (r, i, j))))
  (all.map (fun e => (e.1.addr e.2.1 e.2.2, s.readNamed e.1 e.2.1 e.2.2)) ++ aiaAddrs.map (fun a => (a, (s.readRegister a).2))).mergeSort
    (fun x y => decide (x.1 ≤ y.1))

/-- A part of the dump: kind, index, whether absent, and its bytes. -/
structure DumpPart where
  kind : Nat
  index : Nat
  absent : Bool
  bytes : List Byte

/-- A part of a unit: zeros where the unit is penned or not enabled. -/
def unitPart (kind index : Nat) (on : Bool) (pages : Nat) (item : List (List Byte)) : DumpPart :=
  { kind, index, absent := !on, bytes := if on then item.flatten else zeros (pages * pageSize) }

/-- Whether AKM can read the commons SRAM whole: no sector of it is stored poison (R410, R428). -/
def commonsWhole (s : State) : Bool := s.poison.all (fun e => !(e.2 && decide (placeOf (32 * e.1) = .commons)))

/-- The parts of the dump in their order (R428). -/
def dumpParts (s : State) : List DumpPart :=
  [{ kind := 1, index := 0, absent := false,
     bytes := (registerPairs s).flatMap (fun p => bytesOf 8 p.1 ++ bytesOf 8 p.2.toNat) },
   { kind := 2, index := 0, absent := false, bytes := padTo 0x40000 (s.hec.ring.flatMap Event.body) }]
  ++ (List.range 576).map (fun t => unitPart 3 t (s.tileOn t) 105 (tileItem s t))
  ++ (List.range 64).map (fun c => unitPart 4 c (!s.corePenned c) 1 (coreItem s c))
  ++ (List.range 16).map (fun e => unitPart 5 e (!s.enginePenned e) 97 (engineItem s e))
  ++ [{ kind := 6, index := 0, absent := !commonsWhole s, bytes := if commonsWhole s then (commonsItem s).flatten else zeros 0x2000000 }]

/-- Offsets of parts laid from an offset up, each from a 64 KiB boundary. -/
def placeParts : Nat → List DumpPart → List (Nat × DumpPart)
  | _, [] => []
  | a, p :: r => (a, p) :: placeParts (a + (p.bytes.length + pageSize - 1) / pageSize * pageSize) r

/-- Bytes 65,536 to the end of the dump. -/
def dumpBody (parts : List DumpPart) : List Byte :=
  parts.flatMap (fun p => padTo ((p.bytes.length + pageSize - 1) / pageSize * pageSize) p.bytes)

/-- The dump header (R428). -/
def dumpHeader (s : State) (parts : List DumpPart) (body : List Byte) : List Byte :=
  onePage (bytesOf 4 0x0D01D00D ++ bytesOf 2 1 ++ bytesOf 8 s.aks.serial ++ bytesOf 8 s.akm.freezeTime
    ++ bytesOf 8 s.stepNo ++ bytesOf 2 s.jid ++ bytesOf 2 (s.field .akmFatal 0 0 0 16)
    ++ bytesOf 2 (s.field .akmFatal 0 0 16 16) ++ bytesOf 1 s.bootedSlot ++ zeros 3
    ++ bytesOf 8 (s.getReg (regAddr .brcImageVer 0)).toNat ++ bytesOf 2 parts.length ++ zeros 6
    ++ bytesOf 8 (pageSize + body.length) ++ sha512 body
    ++ (placeParts pageSize parts).flatMap (fun e =>
      bytesOf 2 e.2.kind ++ bytesOf 2 e.2.index ++ bytesOf 1 (if e.2.absent then 1 else 0) ++ zeros 3
        ++ bytesOf 8 e.1 ++ bytesOf 8 e.2.bytes.length ++ zeros 8))

/-- The first byte of the dump area. -/
def dumpBase : Nat := 0x7F00000000

/-- DUMP_COMPLETE: the dump stands, the FATAL event goes out, and the hold timer starts. -/
def finishDump (s : State) : State :=
  let parts := dumpParts s
  let body := dumpBody parts
  let head := dumpHeader s parts body
  let s := storeWhole dumpBase (head ++ body) ((head.length + body.length) / 32) s
  let s := s.akmEvent 0x0021 3 660 (bytesOf 2 (s.field .akmFatal 0 0 0 16) ++ bytesOf 2 (s.field .akmFatal 0 0 16 16))
  let s := s.setField .akmFatal 0 0 32 2 3
  { s with akm := { s.akm with
    dumpRead := [], holdUntil := some (s.now + ticksPerSecond * (Config.policyHold (s.section_ 6)).toNat) } }

def execDumpComplete (s : State) : Host.Outcome State Fault Refusal :=
  act (decide (fatalStage s = 2) && !dumpOverdue s) finishDump s

/-- HOLD_EXPIRY (R430). -/
def holdExpired (s : State) : Bool :=
  match s.akm.holdUntil with
  | some t => decide (fatalStage s = 3) && decide (t ≤ s.now)
  | none => false

def execHoldExpiry (s : State) : Host.Outcome State Fault Refusal :=
  act (holdExpired s) (fun s => recognise causeHOLD_EXPIRY 0 s) s

/-! ### The test access port (R439, R440) -/

/-- The TAP works while power-good is true. -/
def tapWorks (s : State) : Bool := !s.brc.off && s.brc.pwrOk && decide (s.brc.pgUntil ≤ s.now)

/-- Every Holtim and Ethernet link that is up goes down. -/
def linksDown (s : State) : State :=
  let s := forEach (List.range 16) (fun p s => if (s.port p).trained then dropLink p s else s) s
  forEach (List.range 4) (fun k s => if s.bit .hecLinkStatus k 0 then ethDown k s else s) s

/-- The signal pins but those of the TAP, in the order of the signal-pin table (R439; log entry 58). -/
def boundaryPins : Nat := 561

/-- What a pin shows where the model has it: pwr_ok, rst_n, alert_n and fl_rst_n, which is low for the hold. -/
def nodePin (s : State) (k : Nat) : Option Bool :=
  match k with
  | 0 => some s.brc.pwrOk
  | 1 => some (s.brc.rstN && decide (s.brc.pinUntil ≤ s.now))
  | 2 => some s.brc.alertN
  | 7 => some s.brc.hold.isNone
  | _ => none

/-- The level of a signal pin: none where it floats or its signal has no level in the model; while the boundary register drives the
pins, its own (R440). -/
def pinLevel (s : State) (k : Nat) : Option Bool :=
  if s.brc.tapFloat then none else if s.brc.tapDrive then s.brc.preload[k]? else nodePin s k

/-- An instruction becomes the current one; `drive` for those of R440. The bypass register is clear where one selects it. -/
def selectTap (op : Nat) (drive float : Bool) (s : State) : State :=
  let s := { s with brc := { s.brc with tapInstr := op, tapDrive := drive, tapFloat := float, bypass := false } }
  if drive then linksDown s else s

/-- An instruction scan: the instruction register captures 0b0000_0001 before it takes the new opcode (R439). -/
def scanTap (op : Nat) (drive float : Bool) (s : State) : State :=
  selectTap op drive float { s with brc := { s.brc with tapCapture := 1 } }

def execTapReset (s : State) : Host.Outcome State Fault Refusal := act (tapWorks s) (selectTap 0xFF false false) s

/-- SAMPLE/PRELOAD: the boundary register takes the pins, and what is shifted into it, which the command does not bring, stands ready
for them: the model's levels of the pins, every other bit free (log entries 2 and 58). -/
def samplePins (s : State) : State :=
  let s := scanTap 0x01 false false s
  let bit (n k : Nat) : Bool := bitOf ((Config.freeBytes n).getD k 0).toNat 0
  { s with brc := { s.brc with
      boundary := (List.range boundaryPins).map (fun k => (nodePin s k).getD (bit s.freeCtr k)),
      preload := (List.range boundaryPins).map (bit (s.freeCtr + 1)) } }.fresh.fresh

def execSamplePreload (s : State) : Host.Outcome State Fault Refusal := act (tapWorks s) samplePins s
def execExtest (s : State) : Host.Outcome State Fault Refusal := act (tapWorks s) (scanTap 0x02 true false) s
def execExtestPulse (s : State) : Host.Outcome State Fault Refusal := act (tapWorks s) (scanTap 0x03 true false) s
def execExtestTrain (s : State) : Host.Outcome State Fault Refusal := act (tapWorks s) (scanTap 0x04 true false) s
def execTapClamp (s : State) : Host.Outcome State Fault Refusal := act (tapWorks s) (scanTap 0x05 true false) s
def execHighz (s : State) : Host.Outcome State Fault Refusal := act (tapWorks s) (scanTap 0x06 true true) s
def execTapBypass (s : State) : Host.Outcome State Fault Refusal := act (tapWorks s) (scanTap 0xFF false false) s

/-- A debug opcode: BYPASS unless it lies in its range and its scope is unlocked; then the spec leaves its effect to the
debug key holder's documentation. -/
def debugOp (op lo scope : Nat) (s : State) : Host.Outcome State Fault Refusal :=
  if tapWorks s ∧ lo ≤ op ∧ op < lo + 16 ∧ s.bit .aksStatus 0 (1 + scope) then .refused (.debugUndocumented op)
  else act (tapWorks s) (scanTap 0xFF false false) s

def execCoreDebug (op : Byte) (s : State) : Host.Outcome State Fault Refusal := debugOp op.toNat 0x40 0 s
def execInternalScan (op : Byte) (s : State) : Host.Outcome State Fault Refusal := debugOp op.toNat 0x50 1 s

end Sys2Proof.Machine
end

