-- ==== Sys2Proof/Machine/Memory.lean ====
section
/-! DEFINITION. Stacked memory's own work: refresh, calibration and patrol scrub (R213 to R215, R420), port saturation
(R217), the region modes (R205) and penning of a pseudo-channel (R222). -/

namespace Sys2Proof.Machine

/-- Whether stacked memory is trained (R380: from the end of P3 on). -/
def memoryUp (s : State) : Bool := s.working && decide (4 ≤ s.bootPhase)

/-- REFRESH (R213): a bank of a pseudo-channel that is not penned refreshes. It changes when requests are served and
nothing that is read or written (R215). -/
def execRefresh (pc bank : Nat) (s : State) : Host.Outcome State Fault Refusal :=
  act (decide (pc < 512) && decide (bank < 64) && memoryUp s && !s.pcPenned pc) id s

/-! ### Calibration -/

/-- The stack calibrated longest ago among those not yet done in window `k`, the lower number among equals (R420). -/
def nextStack (s : State) (k : Nat) : Option Nat :=
  let left := (List.range 8).filter (fun x => !s.akm.calDone.elem (k, x))
  left.find? (fun x => left.all (fun y => decide (calibratedAt s x ≤ calibratedAt s y)))

/-- Whether window `k` starts a calibration in this tick of step phase (R420). -/
def calibrationDue (s : State) (k : Nat) : Bool :=
  let start := 256 * qwinField s k 8 24
  let stop := start + 256 * qwinField s k 32 16
  memoryUp s && isOpen s k && inWindow s k && bitOf (qwinField s k 48 16) 0
    && decide ((s.phase - start) % 1024 = 0) && decide (s.phase + 1000 ≤ stop) && !calibrating s

/-- A stack calibrates: the tick of the timebase is noted (tick 0 counts as tick 1). -/
def calibrate (x : Nat) (s : State) : State := { s with calAt := Table.set 0 s.calAt x (Nat.max 1 s.time) }

/-- STACK_CALIBRATION (R420). -/
def calibrateNext (k : Nat) (s : State) : State :=
  match nextStack s k with
  | some x =>
    let s := calibrate x s
    { s with akm := { s.akm with calDone := s.akm.calDone ++ [(k, x)] } }
  | none => s

def execStackCalibration (k : Nat) (s : State) : Host.Outcome State Fault Refusal :=
  act (calibrationDue s k) (calibrateNext k) s

/-- FORCED_CALIBRATION (R214): 1,250,000 ticks of the timebase after the stack's last one, while no other stack calibrates. -/
def forcedDue (s : State) (x : Nat) : Bool :=
  decide (x < 8) && memoryUp s && decide (calibratedAt s x + 1250000 ≤ s.time) && !calibrating s

def execForcedCalibration (x : Nat) (s : State) : Host.Outcome State Fault Refusal := act (forcedDue s x) (calibrate x) s

/-! ### Patrol scrub -/

/-- The LPA of an address in a pseudo-channel: the inverse of the maps of R204. -/
def lpaOf (s : State) (pc addr : Nat) : Nat :=
  let st := pc / 64
  let q := pc / 16 % 4
  let c := pc % 16
  let m := addr / 0x800000
  if s.regionLocal (4 * m) then
    let hi := bitsOf addr 8 15
    let sel := st % 2 * 4 + q * 8 + c / 4 * 32 + c % 4
    let a := hi * 2 ^ 15
    let lo := sel ^^^ bitsOf a 15 7 ^^^ bitsOf a 22 7
    (4 * m + st / 2) * 2 ^ 30 + a + lo * 256 + addr % 256
  else
    let a := bitsOf addr 8 13 * 2 ^ 17
    let sel := c / 4 * 128 + st * 16 + q * 4 + c % 4
    let lo := sel ^^^ bitsOf a 17 9 ^^^ bitsOf a 26 4
    addr / 0x200000 * 2 ^ 30 + a + lo * 256 + addr % 256

/-- INTERVAL × 256 ticks. -/
def scrubPeriod (s : State) : Nat := 256 * s.field .memScrub 0 0 0 16

/-- The LPA of a pseudo-channel's next granule. -/
def scrubLpa (s : State) (pc : Nat) : Nat := lpaOf s pc (256 * Table.get 0 s.scrub pc)

/-- Whether a pseudo-channel's next granule is due (R215, R222) and may be read: its stack does not calibrate, and no request to
its sectors waits (R206, R214). -/
def scrubDue (s : State) (pc : Nat) : Bool :=
  decide (pc < 512) && memoryUp s && !s.pcPenned pc && decide (scrubPeriod s ≠ 0)
    && decide (Table.get 0 s.scrubAt pc + scrubPeriod s ≤ s.now)
    && !stackCalibrates s (pc / 64) && !sectorBusy s (576 + pc / 16) (scrubLpa s pc) 8 false

/-- One granule of 8 sectors read, corrected and, where uncorrectable, stored as poison; then the next in ascending order
(R210, R211, R215). The next interval counts from the tick in which this one is read (log entry 51). -/
def scrubGranule (pc : Nat) (ce ue : List Nat) (s : State) : State :=
  let g := Table.get 0 s.scrub pc
  let base := scrubLpa s pc
  let s := scanPiece base 8 (strike ce ue base 8 (repeatCommand ce base s))
  let last := decide (g + 1 = 2 ^ 22)
  let s := if last ∧ pc = 0 then s.bump .memScrub 0 16 32 else s
  { s with scrub := Table.set 0 s.scrub pc (if last then 0 else g + 1), scrubAt := Table.set 0 s.scrubAt pc s.now }

/-- PATROL_SCRUB (R215). -/
def execPatrolScrub (pc : Nat) (ce ue : List Nat) (s : State) : Host.Outcome State Fault Refusal :=
  act (scrubDue s pc) (scrubGranule pc ce ue) s

/-! ### Saturation (R217) -/

/-- The LEVEL_SAT event (R411). -/
def levelSat (kind index level ep : Nat) (s : State) : State :=
  s.akmEvent 0x0014 1 ep (bytesOf 1 kind ++ bytesOf 1 index ++ bytesOf 1 level)

/-- Whether a port's queue has been full for 4,096 ticks in a row. -/
def portSaturated (s : State) (p : Nat) : Bool :=
  decide (p < 32) && (match Table.get none s.fullSince p with
    | some t => decide (t + 4096 ≤ s.now)
    | none => false)

/-- PORT_SATURATION (R217). -/
def saturatePort (p : Nat) (s : State) : State := levelSat 0 p 0 (576 + p) (s.raiseBit .memSatStatus 0 p)

def execPortSaturation (p : Nat) (s : State) : Host.Outcome State Fault Refusal :=
  act (portSaturated s p) (saturatePort p) s

/-! ### Region modes and penning -/

def mapAddrs : List Nat := (List.range 8).map (fun k => regAddr .memMode k)

/-- The rejection rules of MEM_MAP (R205): a mixed quad, a bit of quad 127, or a JID that is not 0. -/
def mapBad (s : State) : Bool :=
  let mode (r : Nat) : Bool := bitOf (s.getShadow (regAddr .memMode (r / 64))).toNat (r % 64)
  (List.range 128).any (fun m => !(decide (mode (4 * m) = mode (4 * m + 1)) && decide (mode (4 * m) = mode (4 * m + 2))
      && decide (mode (4 * m) = mode (4 * m + 3))))
    || (List.range 4).any (fun j => mode (508 + j))
    || decide (s.jid ≠ 0)

/-- The LPA under the modes of a state of what lay at an LPA of stacked memory under the modes of another: the pseudo-channels
keep their contents, and the new placement names the slices anew (R203, R204). -/
def movedLpa (old new : State) (a : Nat) : Nat :=
  if a < 0x8000000000 then lpaOf new (old.pcOf a).1 (old.pcOf a).2 else a

/-- A change of the region modes: every byte, mark of poison and wrong symbol stays in its pseudo-channel (R203). -/
def remap (old new : State) : State :=
  if (List.range 512).all (fun r => decide (old.regionLocal r = new.regionLocal r)) then new else
  { new with
    mem := new.mem.foldl (fun m c => Table.set 0 m (movedLpa old new c.1) c.2) [],
    poison := new.poison.foldl (fun m c => Table.set false m (movedLpa old new (32 * c.1) / 32) c.2) [],
    wrong := new.wrong.foldl (fun m c => Table.set 0 m (movedLpa old new (32 * c.1) / 32) c.2) [] }

def memMapCommit (v : Word) (s : State) : State := commitNow .memMapCommit 0 0 2 2 1 0 mapAddrs v mapBad (remap s) s

/-- MEM_MAP_COMMIT (R205). -/
def execMemMapCommit (src : Requester) (v : Word) (s : State) : Host.Outcome State Fault Refusal :=
  .next (guardedWrite src false (memMapCommit v) s)

/-- MEM_PEN_REQ (R222): AKM pens a pseudo-channel. -/
def memPenReq (v : Word) (s : State) : State := s.duePen 3 (bitsOf v.toNat 0 9) none

def execMemPenReq (src : Requester) (v : Word) (s : State) : Host.Outcome State Fault Refusal :=
  .next (guardedWrite src (decide (src ≠ .akm)) (memPenReq v) s)

end Sys2Proof.Machine
end

