-- ==== Sys2Proof/Machine/Trans.lean ====
section
/-! DEFINITION. The functions that are correctly rounded to FP32 (R152, R164): each value is enclosed between two
fixed-point numbers of 512 fraction bits and both ends are rounded; where they round apart, the outcome is
`Config.roundTie`. Reciprocal and reciprocal square root are exact. -/

namespace Sys2Proof.Machine

/-- Fraction bits of the fixed-point numbers of this file. -/
def fixP : Nat := 512

/-- The fixed-point one. -/
def fixOne : Nat := 2 ^ fixP

/-- Product of two fixed-point numbers, truncated. -/
def fixMul (a b : Nat) : Nat := a * b / fixOne

/-- Σ z^(2k+1) / (2k+1) with the sign alternating where `alt`, from a first term. -/
def oddSeries (alt : Bool) (z2 : Nat) : Nat → Nat → Nat → Int
  | 0, _, _ => 0
  | fuel + 1, k, p =>
    let rest := oddSeries alt z2 fuel (k + 1) (fixMul p z2)
    (p / (2 * k + 1) : Nat) + (if alt then -rest else rest)

/-- atanh and arctangent of a fixed-point number of at most 1/3. -/
def fixAtanh (z : Nat) : Nat := (oddSeries false (fixMul z z) 180 0 z).toNat
def fixAtan (z : Nat) : Nat := (oddSeries true (fixMul z z) 180 0 z).toNat

/-- ln 2 and π. -/
def fixLn2 : Nat := 2 * fixAtanh (fixOne / 3)
def fixPi : Nat := 16 * fixAtan (fixOne / 5) - 4 * fixAtan (fixOne / 239)

/-- Σ x^k / k!, from a term on. -/
def expSeries (x : Nat) : Nat → Nat → Nat → Nat
  | 0, _, _ => 0
  | fuel + 1, k, p => p + expSeries x fuel (k + 1) (fixMul p x / (k + 1))

/-- e^x for 0 ≤ x ≤ 1. -/
def fixExp (x : Nat) : Nat := expSeries x 140 0 fixOne

/-- The sine series, from a term on. -/
def sinSeries (x2 : Nat) : Nat → Nat → Nat → Int
  | 0, _, _ => 0
  | fuel + 1, k, p => (p : Int) - sinSeries x2 fuel (k + 1) (fixMul p x2 / ((2 * k + 2) * (2 * k + 3)))

/-- sin x for 0 ≤ x ≤ π/2. -/
def fixSin (x : Nat) : Nat := (sinSeries (fixMul x x) 80 0 x).toNat

/-- The bound on the error of every enclosure of this file, in units of 2^-512. -/
def fixErr : Nat := 2 ^ 64

/-- A value enclosed within `fixErr` of `y × 2^(e - 512)`, rounded RNE to FP32. -/
def roundEnclosed (fn x : Nat) (neg : Bool) (y : Nat) (e : Int) : Nat × Flags :=
  let lo := roundFloat fmtFp32 .rne (.fin neg (y - fixErr) (e - fixP) true)
  let hi := roundFloat fmtFp32 .rne (.fin neg (y + fixErr) (e - fixP) true)
  if lo.1 = hi.1 ∨ Config.roundTie fn x then hi else lo

/-- A magnitude `m × 2^e` as a fixed-point number of its fraction, and its integer part. -/
def splitFixed (m : Nat) (e : Int) : Nat × Nat :=
  let v := if 0 ≤ e + fixP then m * 2 ^ (e + fixP).toNat else m / 2 ^ (-(e + fixP)).toNat
  (v / fixOne, v % fixOne)

/-- Whether a magnitude is an integer. -/
def isInteger (m : Nat) (e : Int) : Bool := if 0 ≤ e then true else decide (m % 2 ^ (-e).toNat = 0)

/-- An exact value rounded RNE to FP32. -/
def fp32Of (x : Exact) : Nat × Flags := roundFloat fmtFp32 .rne x

/-- The canonical NaN of FP32 with INVALID. -/
def fp32Invalid : Nat × Flags := (fmtFp32.canonNan, flagInvalid)

/-- The FP32 one, with a sign. -/
def fp32One (neg : Bool) : Nat × Flags := fp32Of (.fin neg 1 0 false)

/-- 2^x (R152). -/
def exp2Fp32 (x : Nat) : Nat × Flags :=
  match decodeFloat fmtFp32 x with
  | .nan => (fmtFp32.canonNan, {})
  | .inf neg => fp32Of (if neg then .fin false 0 0 false else .inf false)
  | .fin neg m e _ =>
    if m = 0 then fp32One false
    else if 9 ≤ (Nat.log2 m : Int) + e then fp32Of (.fin false 1 (if neg then -512 else 512) false)
    else
      let (n, f) := splitFixed m e
      if isInteger m e then fp32Of (.fin false 1 (if neg then -(n : Int) else n) false)
      else if neg then roundEnclosed 0 x false (fixExp (fixMul (fixOne - f) fixLn2)) (-(n : Int) - 1)
      else roundEnclosed 0 x false (fixExp (fixMul f fixLn2)) n

/-- log2 of a number in [1, 2), as fixed point. -/
def fixLog2 (v : Nat) : Nat := 2 * fixAtanh ((v - fixOne) * fixOne / (v + fixOne)) * fixOne / fixLn2

/-- log2 x (R152). -/
def log2Fp32 (x : Nat) : Nat × Flags :=
  match decodeFloat fmtFp32 x with
  | .nan => (fmtFp32.canonNan, {})
  | .inf neg => if neg then fp32Invalid else fp32Of (.inf false)
  | .fin neg m e _ =>
    if m = 0 then fp32Of (.inf true)
    else if neg then fp32Invalid
    else
      let k := Nat.log2 m
      let n : Int := (k : Int) + e
      if m = 2 ^ k then fp32Of (exactOfInt n 0)
      else
        let v : Int := n * fixOne + fixLog2 (m * 2 ^ (fixP - k))
        roundEnclosed 1 x (decide (v < 0)) v.natAbs 0

/-- 1/x (R152). -/
def rcpFp32 (x : Nat) : Nat × Flags :=
  match decodeFloat fmtFp32 x with
  | .nan => (fmtFp32.canonNan, {})
  | v => fp32Of (divExact (exactOfInt 1 0) v).1

/-- 1/√x (R152): the floor of the root of 2^400 / m, with a tail. -/
def rsqrtFp32 (x : Nat) : Nat × Flags :=
  match decodeFloat fmtFp32 x with
  | .nan => (fmtFp32.canonNan, {})
  | .inf neg => if neg then fp32Invalid else fp32Of (.fin false 0 0 false)
  | .fin neg m e _ =>
    if m = 0 then fp32Of (.inf neg)
    else if neg then fp32Invalid
    else
      let odd := decide (e % 2 ≠ 0)
      let m' := if odd then 2 * m else m
      let e' := if odd then e - 1 else e
      let r := isqrt (2 ^ 400 / m')
      fp32Of (.fin false r (-200 - e' / 2) (decide (r * r * m' ≠ 2 ^ 400)))

/-- sin πt for 0 < t < 1 as fixed point. -/
def fixSinPi (t : Nat) : Nat := fixSin (fixMul (if fixOne < 2 * t then fixOne - t else t) fixPi)

/-- sin πx (R152). -/
def sinpiFp32 (x : Nat) : Nat × Flags :=
  match decodeFloat fmtFp32 x with
  | .nan => (fmtFp32.canonNan, {})
  | .inf _ => fp32Invalid
  | .fin neg m e _ =>
    let (n, f) := splitFixed m e
    if isInteger m e then fp32Of (.fin neg 0 0 false)
    else
      let sign := neg != decide (n % 2 = 1)
      if 2 * f = fixOne then fp32One sign else roundEnclosed 2 x sign (fixSinPi f) 0

/-- cos πx (R152). -/
def cospiFp32 (x : Nat) : Nat × Flags :=
  match decodeFloat fmtFp32 x with
  | .nan => (fmtFp32.canonNan, {})
  | .inf _ => fp32Invalid
  | .fin _ m e _ =>
    let (n, f) := splitFixed m e
    let odd := decide (n % 2 = 1)
    if isInteger m e then fp32One odd
    else if 2 * f = fixOne then fp32Of (.fin false 0 0 false)
    else
      let c := if odd then fixOne - f else f
      if 2 * c < fixOne then roundEnclosed 3 x false (fixSinPi (fixOne / 2 - c)) 0
      else roundEnclosed 3 x true (fixSinPi (c - fixOne / 2)) 0

/-- e^(−y) of an exact value, rounded RNE to FP32 (R164, VDSOFTP); `x` names the operand for a tie. -/
def expNegFp32 (x : Nat) (y : Exact) : Nat × Flags :=
  match y with
  | .nan => (fmtFp32.canonNan, {})
  | .inf neg => fp32Of (if neg then .inf false else .fin false 0 0 false)
  | .fin neg m e _ =>
    if m = 0 then fp32One false
    else if 8 ≤ (Nat.log2 m : Int) + e then fp32Of (.fin false 1 (if neg then 512 else -512) false)
    else
      let (n, f) := splitFixed m e
      let v := n * fixOne + f
      let q := v / fixLn2
      let r := v - q * fixLn2
      if neg then roundEnclosed 4 x false (fixExp r) q
      else roundEnclosed 4 x false (fixExp (fixLn2 - r)) (-(q : Int) - 1)

end Sys2Proof.Machine
end

