-- ==== Sys2Proof/Machine/Solve.lean ====
section
/-! DEFINITION. The arithmetic of a Marionette solve (R310 to R323): exact values, words of the eight quantity classes, one
rounding for each assignment, saturation, pivots, and the listings of chapter 13. -/

namespace Sys2Proof.Machine

/-! ### Exact values -/

/-- An exact rational value `num / den × 2^exp`. -/
structure Ratio where
  num : Int
  den : Nat := 1
  exp : Int := 0
  deriving DecidableEq, Repr, Inhabited

namespace Ratio

def zero : Ratio := { num := 0 }
def one : Ratio := { num := 1 }
def neg (a : Ratio) : Ratio := { a with num := -a.num }

/-- The exact sum. -/
def add (a b : Ratio) : Ratio :=
  if a.num = 0 then b else if b.num = 0 then a else
  let e := if a.exp ≤ b.exp then a.exp else b.exp
  let x := a.num * 2 ^ (a.exp - e).toNat
  let y := b.num * 2 ^ (b.exp - e).toNat
  if a.den = b.den then ⟨x + y, a.den, e⟩ else ⟨x * b.den + y * a.den, a.den * b.den, e⟩

def sub (a b : Ratio) : Ratio := add a (neg b)
def mul (a b : Ratio) : Ratio := ⟨a.num * b.num, a.den * b.den, a.exp + b.exp⟩

/-- The exact quotient; the divisor is a pivot and never zero (R315). -/
def div (a b : Ratio) : Ratio :=
  ⟨(if b.num < 0 then -a.num else a.num) * b.den, a.den * b.num.natAbs, a.exp - b.exp⟩

/-- `a < b`. -/
def lt (a b : Ratio) : Bool := decide ((sub a b).num < 0)

/-- The multiple of 2^-f nearest a value, ties to even (R313). -/
def round (f : Nat) (a : Ratio) : Int :=
  let up := a.exp + f
  let n := a.num * 2 ^ up.toNat
  let d : Int := (a.den : Int) * 2 ^ (-up).toNat
  let k := n / d
  let r := n - k * d
  if d < 2 * r ∨ (d = 2 * r ∧ k % 2 = 1) then k + 1 else k

end Ratio

/-- The sum of `f 0` to `f (n - 1)`. -/
def ratioSum (n : Nat) (f : Nat → Ratio) : Ratio := (List.range n).foldl (fun a i => a.add (f i)) Ratio.zero

/-- An exact vector and matrix, indexed from 0. -/
abbrev Vec := Nat → Ratio
abbrev Mat := Nat → Nat → Ratio

def basis (k : Nat) : Vec := fun i => if i = k then Ratio.one else Ratio.zero
def vecAdd (a b : Vec) : Vec := fun i => (a i).add (b i)
def vecSub (a b : Vec) : Vec := fun i => (a i).sub (b i)
def scaleVec (x : Ratio) (a : Vec) : Vec := fun i => x.mul (a i)
def dot (n : Nat) (a b : Vec) : Ratio := ratioSum n (fun i => (a i).mul (b i))
def matVec (n : Nat) (m : Mat) (a : Vec) : Vec := fun i => ratioSum n (fun k => (m i k).mul (a k))
def matMul (n : Nat) (a b : Mat) : Mat := fun i j => ratioSum n (fun k => (a i k).mul (b k j))
def transposeMat (m : Mat) : Mat := fun i j => m j i

/-- The cross product of two vectors of 3. -/
def cross (a b : Vec) : Vec := fun i =>
  ((a ((i + 1) % 3)).mul (b ((i + 2) % 3))).sub ((a ((i + 2) % 3)).mul (b ((i + 1) % 3)))

/-- `[a]×`. -/
def skew (a : Vec) : Mat := fun i j => cross a (basis j) i

/-- The two halves of a spatial vector, and the vector of two halves. -/
def top (v : Vec) : Vec := fun i => v i
def low (v : Vec) : Vec := fun i => v (i + 3)
def spatial (a b : Vec) : Vec := fun i => if i < 3 then a i else b (i - 3)

/-- xm, xf, xi, crm and crf of R323. -/
def xm (e : Mat) (r v : Vec) : Vec :=
  spatial (matVec 3 (transposeMat e) (top v)) (matVec 3 (transposeMat e) (vecAdd (low v) (cross (top v) r)))

def xf (e : Mat) (r f : Vec) : Vec :=
  let ef := matVec 3 e (low f)
  spatial (vecAdd (matVec 3 e (top f)) (cross r ef)) ef

def xi (e : Mat) (r : Vec) (m : Mat) : Mat :=
  let x : Mat := fun i j => xm e r (basis j) i
  fun i j => ratioSum 6 (fun k => (x k i).mul (ratioSum 6 (fun l => (m k l).mul (x l j))))

def crm (v m : Vec) : Vec :=
  spatial (cross (top v) (top m)) (vecAdd (cross (low v) (top m)) (cross (top v) (low m)))

def crf (v f : Vec) : Vec :=
  spatial (vecAdd (cross (top v) (top f)) (cross (low v) (low f))) (cross (top v) (low f))

/-! ### Words (R312 to R315) -/

/-- The quantity classes of R312. -/
def qANG : Nat := 0
def qVEL : Nat := 1
def qACC : Nat := 2
def qFRC : Nat := 3
def qMAS : Nat := 4
def qINV : Nat := 5
def qDIM : Nat := 6
def qTIM : Nat := 7

/-- What a solve reads: the descriptor's words, and the records after the delta list. -/
structure SolveIn where
  desc : List Nat
  joints : List (List Nat)
  rows : List (List Nat)
  targets : List (List Nat)
  deriving DecidableEq, Repr

/-- A solve at work: phase and index of the assignment in hand, the first SAT and the first clamp, and the words computed so
far, one list for each joint or row. -/
structure Work where
  phase : Nat := 0
  index : Nat := 0
  sat : Option (Nat × Nat) := none
  clamp : Option (Nat × Nat) := none
  q : List Int
  qd : List Int
  qdd : List Int
  w : List Int
  lam : List Int
  e : List (List Int) := []
  r : List (List Int) := []
  v : List (List Int) := []
  c : List (List Int) := []
  ia : List (List Int) := []
  pa : List (List Int) := []
  um : List (List Int) := []
  dm : List Int := []
  uf : List Int := []
  a : List (List Int) := []
  k : List Int := []
  deriving DecidableEq, Repr

abbrev Solving := StateM Work

namespace SolveIn

/-- Fraction bits of a class (R312). -/
def frac (s : SolveIn) (k : Nat) : Nat := 47 - bitsOf (s.desc.getD 3 0) (6 * k) 6

/-- The value of a raw integer of a class. -/
def val (s : SolveIn) (k : Nat) (n : Int) : Ratio := ⟨n, 1, -(s.frac k : Int)⟩

/-- The value in a container: bits [47:0] (R312). -/
def word (s : SolveIn) (k : Nat) (l : List Nat) (i : Nat) : Ratio := s.val k (signedOf 48 (l.getD i 0))

/-- The vector of words from a position in a record. -/
def words (s : SolveIn) (k : Nat) (l : List Nat) (i : Nat) : Vec := fun n => s.word k l (i + n)

/-- The exact vector and 3 × 3 and 6 × 6 matrices of raw words. -/
def vec (s : SolveIn) (k : Nat) (l : List Int) : Vec := fun i => s.val k (l.getD i 0)
def mat (s : SolveIn) (k n : Nat) (l : List Int) : Mat := fun i j => s.val k (l.getD (n * i + j) 0)

/-- One assignment: rounded once, and saturated with SAT (R313, R314). -/
def assign (s : SolveIn) (k : Nat) (x : Ratio) : Solving Int := do
  let n := x.round (s.frac k)
  let hi : Int := 2 ^ 47 - 1
  let lo : Int := -2 ^ 47
  if lo ≤ n ∧ n ≤ hi then return n
  modify (fun w => { w with sat := w.sat.orElse (fun _ => some (w.phase, w.index)) })
  return if n < lo then lo else hi

/-- An assignment of every element of a list. -/
def assignAll (s : SolveIn) (k : Nat) (l : List Ratio) : Solving (List Int) := l.mapM (s.assign k)
def assignVec (s : SolveIn) (k n : Nat) (v : Vec) : Solving (List Int) := s.assignAll k ((List.range n).map v)
def assignMat (s : SolveIn) (k n : Nat) (m : Mat) : Solving (List Int) :=
  s.assignAll k ((List.range (n * n)).map (fun i => m (i / n) (i % n)))

/-- A pivot: assigned, then clamped with PIVOT_CLAMP (R315). -/
def pivot (s : SolveIn) (k : Nat) (x : Ratio) : Solving Int := do
  let p ← s.assign k x
  let least : Int := Nat.max 1 (bitsOf (s.desc.getD 4 0) 0 47)
  if p.natAbs < least then
    modify (fun w => { w with clamp := w.clamp.orElse (fun _ => some (w.phase, w.index)) })
    return if p < 0 then -least else least
  return p

/-- The phase and index of what follows. -/
def at_ (phase index : Nat) : Solving Unit := modify (fun w => { w with phase := phase, index := index })

/-! ### Records (R319, R321) -/

def joint (s : SolveIn) (i : Nat) : List Nat := s.joints.getD i []
def row (s : SolveIn) (i : Nat) : List Nat := s.rows.getD i []
def target (s : SolveIn) (i : Nat) : List Nat := s.targets.getD i []
def head (l : List Nat) : Nat := l.getD 0 0

/-- The parent of a joint: none for a root, and for a PARENT that is not below the joint's own index. -/
def parent (s : SolveIn) (i : Nat) : Option Nat :=
  let p := bitsOf (head (s.joint i)) 0 10
  if p < i then some p else none

def prismatic (s : SolveIn) (i : Nat) : Bool := bitOf (head (s.joint i)) 10
def byIk (s : SolveIn) (i : Nat) : Bool := bitOf (head (s.joint i)) 11
def axis (s : SolveIn) (i : Nat) : Vec := s.words qDIM (s.joint i) 1

/-- The motion axis S_i. -/
def motion (s : SolveIn) (i : Nat) : Vec :=
  let z : Vec := fun _ => Ratio.zero
  if s.prismatic i then spatial z (s.axis i) else spatial (s.axis i) z

/-- The time step. -/
def step (s : SolveIn) : Ratio := s.word qTIM s.desc 5

/-- The entries of a row that are not skipped: joint and coefficient. -/
def entries (s : SolveIn) (k : Nat) : List (Nat × Ratio) :=
  ((List.range (Nat.min 8 (bitsOf (head (s.row k)) 1 4))).map
    (fun n => (bitsOf ((s.row k).getD (4 + n) 0) 54 10, s.word qDIM (s.row k) (4 + n)))).filter
    (fun x => decide (x.1 < s.joints.length))

/-- Whether some record fails a structural check (R321). -/
def structBad (s : SolveIn) : Bool :=
  let j := s.joints.length
  (List.range j).any (fun i =>
      decide (bitsOf (head (s.joint i)) 0 10 ≠ 0x3FF) && decide (i ≤ bitsOf (head (s.joint i)) 0 10))
    || (List.range s.rows.length).any (fun k =>
      (List.range (Nat.min 8 (bitsOf (head (s.row k)) 1 4))).any
          (fun n => decide (j ≤ bitsOf ((s.row k).getD (4 + n) 0) 54 10))
        || (bitOf (head (s.row k)) 0 && decide (k ≤ bitsOf (head (s.row k)) 5 12)))
    || s.targets.any (fun t => decide (j ≤ bitsOf (head t) 0 10))

/-! ### Joint transforms -/

/-- sin or cos of a raw ANG word, rounded to DIM: an enclosure within `fixErr`, both ends rounded. -/
def trig (s : SolveIn) (cosine : Bool) (q : Int) : Solving Int := do
  let x := q.natAbs * 2 ^ (fixP - s.frac qANG)
  let k := 2 * x / fixPi
  let rest := x - k * fixPi / 2
  let quarter := if cosine then k + 1 else k
  let y := if quarter % 2 = 0 then fixSin rest else fixSin (fixPi / 2 - rest)
  let flip := decide (2 ≤ quarter % 4) != (!cosine && decide (q < 0))
  let v : Int := if flip then -(y : Int) else y
  let exact := decide (q = 0)
  let lo : Ratio := ⟨v - (if exact then 0 else fixErr), 1, -(fixP : Int)⟩
  let hi : Ratio := ⟨v + (if exact then 0 else fixErr), 1, -(fixP : Int)⟩
  let a := lo.round (s.frac qDIM)
  let b := hi.round (s.frac qDIM)
  let n := if a = b ∨ Config.roundTie (if cosine then 6 else 5) (wrapNat 48 q) then b else a
  s.assign qDIM (s.val qDIM n)

/-- xj(i): rotation and translation of a joint at a position. -/
def xj (s : SolveIn) (i : Nat) (q : Int) : Solving (List Int × List Int) := do
  let ax := s.axis i
  let r0 := s.words qANG (s.joint i) 4
  if s.prismatic i then
    let e ← s.assignMat qDIM 3 (fun a b => basis a b)
    let r ← s.assignVec qANG 3 (vecAdd r0 (scaleVec (s.val qANG q) ax))
    return (e, r)
  let c ← s.trig true q
  let sn ← s.trig false q
  let cv := s.val qDIM c
  let rot : Mat := fun a b =>
    ((cv.mul (basis a b)).add ((Ratio.one.sub cv).mul ((ax a).mul (ax b)))).add ((s.val qDIM sn).mul (skew ax a b))
  let e ← s.assignMat qDIM 3 rot
  let r ← s.assignVec qANG 3 r0
  return (e, r)

/-! ### Inverse kinematics -/

/-- The joints from the root to a joint, ascending. -/
def pathTo (s : SolveIn) : Nat → Nat → List Nat
  | 0, i => [i]
  | fuel + 1, i =>
    match s.parent i with
    | some p => s.pathTo fuel p ++ [i]
    | none => [i]

/-- The root-frame transforms along a path: joint, R and o. -/
def compose (s : SolveIn) : List Nat → List Int × List Int → Solving (List (Nat × List Int × List Int))
  | [], _ => return []
  | j :: rest, (rp, op) => do
    let q := (← get).q.getD j 0
    let (e, r) ← s.xj j q
    let rj ← s.assignMat qDIM 3 (matMul 3 (s.mat qDIM 3 rp) (s.mat qDIM 3 e))
    let oj ← s.assignVec qANG 3 (vecAdd (s.vec qANG op) (matVec 3 (s.mat qDIM 3 rp) (s.vec qANG r)))
    let more ← s.compose rest (rj, oj)
    return (j, rj, oj) :: more

/-- As `compose`, for the root itself: R and o of no joint are the identity and zero. -/
def composeRoot (s : SolveIn) : List Nat → Solving (List (Nat × List Int × List Int))
  | [] => return []
  | j :: rest => do
    let q := (← get).q.getD j 0
    let (e, r) ← s.xj j q
    let rj ← s.assignMat qDIM 3 (s.mat qDIM 3 e)
    let oj ← s.assignVec qANG 3 (s.vec qANG r)
    let more ← s.compose rest (rj, oj)
    return (j, rj, oj) :: more

/-- One target of one iteration. -/
def ikTarget (s : SolveIn) (t : Nat) : Solving Unit := do
  at_ 3 t
  let rec_ := s.target t
  let j := bitsOf (head rec_) 0 10
  if s.joints.length ≤ j then return ()
  let frames ← s.composeRoot (s.pathTo s.joints.length j)
  let oEnd := s.vec qANG ((frames.getLast?.map (fun f => f.2.2)).getD [])
  let err ← s.assignVec qANG 3 (scaleVec (s.word qDIM rec_ 4) (vecSub (s.words qANG rec_ 1) oEnd))
  let moved := frames.filter (fun f => s.byIk f.1)
  let cols ← moved.mapM (fun f => do
    let ra := matVec 3 (s.mat qDIM 3 f.2.1) (s.axis f.1)
    let col := if s.prismatic f.1 then ra else cross ra (vecSub oEnd (s.vec qANG f.2.2))
    return (f.1, ← s.assignVec qANG 3 col))
  let entry (i k : Nat) : Ratio :=
    (cols.foldl (fun a c => a.add ((s.vec qANG c.2 i).mul (s.vec qANG c.2 k))) Ratio.zero).add
      (if i = k then s.word qINV rec_ 5 else Ratio.zero)
  let a ← s.assignMat qINV 3 entry
  let am := s.mat qINV 3 a
  let iv (n : Int) := s.val qINV n
  let dv (n : Int) := s.val qDIM n
  let d0 ← s.pivot qINV (am 0 0)
  let l10 ← s.assign qDIM ((am 1 0).div (iv d0))
  let l20 ← s.assign qDIM ((am 2 0).div (iv d0))
  let d1 ← s.pivot qINV ((am 1 1).sub (((dv l10).mul (dv l10)).mul (iv d0)))
  let l21 ← s.assign qDIM (((am 2 1).sub (((dv l20).mul (dv l10)).mul (iv d0))).div (iv d1))
  let d2 ← s.pivot qINV
    (((am 2 2).sub (((dv l20).mul (dv l20)).mul (iv d0))).sub (((dv l21).mul (dv l21)).mul (iv d1)))
  let ev := s.vec qANG err
  let z0 ← s.assign qINV (ev 0)
  let z1 ← s.assign qINV ((ev 1).sub ((dv l10).mul (iv z0)))
  let z2 ← s.assign qINV (((ev 2).sub ((dv l20).mul (iv z0))).sub ((dv l21).mul (iv z1)))
  let w0 ← s.assign qINV ((iv z0).div (iv d0))
  let w1 ← s.assign qINV ((iv z1).div (iv d1))
  let w2 ← s.assign qINV ((iv z2).div (iv d2))
  let y1 ← s.assign qINV ((iv w1).sub ((dv l21).mul (iv w2)))
  let y0 ← s.assign qINV (((iv w0).sub ((dv l10).mul (iv y1))).sub ((dv l20).mul (iv w2)))
  let y := s.vec qINV [y0, y1, w2]
  for c in cols do
    let q ← s.assign qANG ((s.val qANG ((← get).q.getD c.1 0)).add (dot 3 (s.vec qANG c.2) y))
    modify (fun w => { w with q := w.q.set c.1 q })

/-! ### The articulated-body method -/

/-- The spatial inertia of a joint's body. -/
def inertia (s : SolveIn) (i : Nat) : Mat :=
  let m := s.word qMAS (s.joint i) 7
  let c := s.words qANG (s.joint i) 8
  let pm := s.words qMAS (s.joint i) 11
  let cc := dot 3 c c
  let rotary : Mat := fun a b =>
    (if a = b then (pm a).add (m.mul cc) else Ratio.zero).sub (m.mul ((c a).mul (c b)))
  fun a b =>
    if a < 3 then (if b < 3 then rotary a b else m.mul (skew c a (b - 3)))
    else (if b < 3 then m.mul (skew c b (a - 3)) else if a = b then m else Ratio.zero)

def abaVel (s : SolveIn) (i : Nat) : Solving Unit := do
  at_ 4 i
  let w ← get
  let (e, r) ← s.xj i (w.q.getD i 0)
  let vp : Vec := match s.parent i with
    | some p => s.vec qVEL (w.v.getD p [])
    | none => fun _ => Ratio.zero
  let qdv := s.val qVEL (w.qd.getD i 0)
  let sq := scaleVec qdv (s.motion i)
  let v ← s.assignVec qVEL 6 (vecAdd (xm (s.mat qDIM 3 e) (s.vec qANG r) vp) sq)
  let c ← s.assignVec qACC 6 (crm (s.vec qVEL v) sq)
  let ia ← s.assignMat qMAS 6 (s.inertia i)
  let pa ← s.assignVec qFRC 6 (crf (s.vec qVEL v) (matVec 6 (s.mat qMAS 6 ia) (s.vec qVEL v)))
  modify (fun w => { w with
    e := w.e ++ [e], r := w.r ++ [r], v := w.v ++ [v], c := w.c ++ [c], ia := w.ia ++ [ia], pa := w.pa ++ [pa] })

def abaFact (s : SolveIn) (i : Nat) : Solving Unit := do
  at_ 5 i
  let w ← get
  let ia := s.mat qMAS 6 (w.ia.getD i [])
  let pa := s.vec qFRC (w.pa.getD i [])
  let sv := s.motion i
  let u ← s.assignVec qMAS 6 (matVec 6 ia sv)
  let uv := s.vec qMAS u
  let d ← s.pivot qMAS ((dot 6 sv uv).add (s.word qMAS (s.joint i) 14))
  let dv := s.val qMAS d
  let uf ← s.assign qFRC ((s.word qFRC (s.joint i) 15).sub (dot 6 sv pa))
  modify (fun w => { w with um := w.um.set i u, dm := w.dm.set i d, uf := w.uf.set i uf })
  match s.parent i with
  | none => return ()
  | some p =>
    let e := s.mat qDIM 3 (w.e.getD i [])
    let r := s.vec qANG (w.r.getD i [])
    let left : Mat := fun a b => (ia a b).sub (((uv a).mul (uv b)).div dv)
    let ip := s.mat qMAS 6 (w.ia.getD p [])
    let more := xi e r left
    let iaP ← s.assignMat qMAS 6 (fun a b => (ip a b).add (more a b))
    let cv := s.vec qACC (w.c.getD i [])
    let force := vecAdd (vecAdd pa (matVec 6 left cv)) (fun a => ((uv a).mul (s.val qFRC uf)).div dv)
    let paP ← s.assignVec qFRC 6 (vecAdd (s.vec qFRC (w.pa.getD p [])) (xf e r force))
    modify (fun w => { w with ia := w.ia.set p iaP, pa := w.pa.set p paP })

/-- a of a joint's parent; of the root it is −G, assigned in its class (R314). -/
def parentAcc (s : SolveIn) (i : Nat) : Solving Vec := do
  match s.parent i with
  | some p => return s.vec qACC ((← get).a.getD p [])
  | none =>
    let g := s.words qACC s.desc 6
    return s.vec qACC (← s.assignVec qACC 6 (spatial (fun _ => Ratio.zero) (fun k => (g k).neg)))

def abaAcc (s : SolveIn) (i : Nat) : Solving Unit := do
  at_ 6 i
  let w ← get
  let ap ← s.parentAcc i
  let a' ← s.assignVec qACC 6
    (vecAdd (xm (s.mat qDIM 3 (w.e.getD i [])) (s.vec qANG (w.r.getD i [])) ap) (s.vec qACC (w.c.getD i [])))
  let ua := dot 6 (s.vec qMAS (w.um.getD i [])) (s.vec qACC a')
  let qdd ← s.assign qACC (((s.val qFRC (w.uf.getD i 0)).sub ua).div (s.val qMAS (w.dm.getD i 0)))
  let a ← s.assignVec qACC 6 (vecAdd (s.vec qACC a') (scaleVec (s.val qACC qdd) (s.motion i)))
  let wi ← s.assign qVEL ((s.val qVEL (w.qd.getD i 0)).add (s.step.mul (s.val qACC qdd)))
  modify (fun w => { w with qdd := w.qdd.set i qdd, a := w.a ++ [a], w := w.w.set i wi })

/-! ### Projected Gauss–Seidel -/

/-- The bounds of a row: its own, or those of its friction pair; 0 where the pair is not below the row (R321). -/
def bounds (s : SolveIn) (k : Nat) : Solving (Int × Int) := do
  let rec_ := s.row k
  if bitOf (head rec_) 0 then
    let p := bitsOf (head rec_) 5 12
    if k ≤ p then return (0, 0)
    let x := (s.word qDIM rec_ 3).mul (s.val qFRC ((← get).lam.getD p 0))
    return (← s.assign qFRC x.neg, ← s.assign qFRC x)
  return (signedOf 48 (rec_.getD 2 0), signedOf 48 (rec_.getD 3 0))

/-- The exact value held between two bounds. Where they cross, the spec names no result: either end (log entry 25). -/
def clampTo (s : SolveIn) (lo hi : Int) (x : Ratio) : Ratio :=
  let l := s.val qFRC lo
  let h := s.val qFRC hi
  if hi < lo then (if Config.crossedBounds lo hi then l else h)
  else if x.lt l then l else if h.lt x then h else x

def pgsRow (s : SolveIn) (first : Bool) (k : Nat) : Solving Unit := do
  at_ 7 k
  let es := s.entries k
  let dOf (w : Work) (j : Nat) : Ratio := s.val qMAS (w.dm.getD j 0)
  if first then
    let w ← get
    let sum := es.foldl (fun a x => a.add ((x.2.mul x.2).div (dOf w x.1))) Ratio.zero
    let kk ← s.pivot qINV sum
    modify (fun w => { w with k := w.k.set k kk })
  let (lo, hi) ← s.bounds k
  let w ← get
  let old := w.lam.getD k 0
  let drive := (es.foldl (fun a x => a.add (x.2.mul (s.val qVEL (w.w.getD x.1 0)))) Ratio.zero).add
    (s.word qVEL (s.row k) 1)
  let new ← s.assign qFRC
    (s.clampTo lo hi ((s.val qFRC old).sub (drive.div (s.val qINV (w.k.getD k 1)))))
  let delta ← s.assign qFRC (s.val qFRC (new - old))
  modify (fun w => { w with lam := w.lam.set k new })
  for x in es do
    let w ← get
    let v ← s.assign qVEL
      ((s.val qVEL (w.w.getD x.1 0)).add ((x.2.mul (s.val qFRC delta)).div (dOf w x.1)))
    modify (fun w => { w with w := w.w.set x.1 v })

/-! ### The whole solve -/

def finishJoint (s : SolveIn) (i : Nat) : Solving Unit := do
  at_ 8 i
  let w ← get
  let qd := w.w.getD i 0
  let q ← s.assign qANG ((s.val qANG (w.q.getD i 0)).add (s.step.mul (s.val qVEL qd)))
  modify (fun w => { w with qd := w.qd.set i qd, q := w.q.set i q })

/-- Every phase in order (R323). -/
def run (s : SolveIn) (nIk nPgs : Nat) : Solving Unit := do
  let joints := List.range s.joints.length
  for _ in List.range nIk do
    for t in List.range s.targets.length do s.ikTarget t
  for i in joints do s.abaVel i
  for i in joints.reverse do s.abaFact i
  for i in joints do s.abaAcc i
  for sweep in List.range nPgs do
    for k in List.range s.rows.length do s.pgsRow (decide (sweep = 0)) k
  for i in joints do s.finishJoint i

/-- The solve from a state block's q, q̇ and λ. -/
def solve (s : SolveIn) (nIk nPgs : Nat) (q qd lam : List Int) : Work :=
  let zeros := List.replicate s.joints.length (0 : Int)
  (s.run nIk nPgs { q := q, qd := qd, qdd := zeros, w := zeros, lam := lam, um := zeros.map (fun _ => []), dm := zeros,
                    uf := zeros, k := List.replicate s.rows.length 1 }).2

end SolveIn

end Sys2Proof.Machine
end

