-- ==== Sys2Proof/Machine/Marionette.lean ====
section
/-! DEFINITION. The Marionette engines (R316 to R332): descriptors, delta lists, solves from start to FINISH, deadlines, the
command list, and the commit of a start entry, with the meanings of their commands. -/

namespace Sys2Proof.Machine

/-! ### Structure and state memory -/

def structSize : Nat := 0x200000
def stateSize : Nat := 0x400000
def stateBase (e : Nat) : Nat := engineBase e + structSize

/-- A 64-bit word of an engine's structure memory, and a run of them. -/
def structWord (s : State) (e off : Nat) : Nat := natOf (s.readMem (engineBase e + off) 8)
def structWords (s : State) (e off n : Nat) : List Nat := (List.range n).map (fun i => structWord s e (off + 8 * i))

/-- An engine reads `n` bytes of its own memories, from an offset of its structure memory on: double-bit errors there are met
(R410). -/
def engineMet (e off n : Nat) (s : State) : State := bytesMet (engineBase e + off) n (624 + e) s

/-- A container of the state memory as a raw integer (R312). -/
def stateRaw (s : State) (e off : Nat) : Int := signedOf 48 (natOf (s.readMem (stateBase e + off) 8))

/-- The bytes of a word in its container, sign-extended. -/
def container (n : Int) : List Byte := bytesOf 8 (wrapNat 64 n)

/-! ### Descriptors (R317, R318) -/

def descWord (d : List Nat) (i : Nat) : Nat := d.getD i 0
def dJoints (d : List Nat) : Nat := bitsOf (descWord d 0) 0 11
def dRows (d : List Nat) : Nat := bitsOf (descWord d 0) 11 13
def dTargets (d : List Nat) : Nat := bitsOf (descWord d 0) 24 9
def dPgs (d : List Nat) : Nat := bitsOf (descWord d 0) 33 8
def dIk (d : List Nat) : Nat := bitsOf (descWord d 0) 41 8
def dJointOff (d : List Nat) : Nat := bitsOf (descWord d 1) 0 21
def dRowOff (d : List Nat) : Nat := bitsOf (descWord d 1) 21 21
def dTargetOff (d : List Nat) : Nat := bitsOf (descWord d 1) 42 21
def dDeltaOff (d : List Nat) : Nat := bitsOf (descWord d 2) 0 21
def dStateOff (d : List Nat) : Nat := bitsOf (descWord d 2) 21 22
def dOutFmt (d : List Nat) : Nat := bitsOf (descWord d 10) 1 2
def dResult (d : List Nat) : Nat := descWord d 11
def dDeadline (d : List Nat) : Nat := bitsOf (descWord d 12) 0 40

/-- Bytes of a state block (R320). -/
def stateBlockSize (d : List Nat) : Nat := 32 + 32 * dJoints d + 8 * dRows d

/-- Bits of each descriptor word below those outside its fields; RESULT has its own layout. -/
def descUnused : List Nat := [50, 63, 43, 48, 47, 48, 48, 48, 48, 64, 3, 64, 40, 0, 0, 0]

/-- Whether records lie in the record area of structure memory. -/
def recordsFit (off n : Nat) : Bool := decide (n = 0) || (decide (0x3000 ≤ off) && decide (off + n ≤ structSize))

/-- Whether a descriptor is invalid (R318). -/
def descBad (d : List Nat) : Bool :=
  !bitOf (descWord d 0) 49
    || decide (1024 < dJoints d) || decide (4096 < dRows d) || decide (256 < dTargets d)
    || (List.range 8).any (fun k =>
      decide (bitsOf (descWord d 3) (6 * k) 6 < 1) || decide (46 < bitsOf (descWord d 3) (6 * k) 6))
    || [dJointOff d, dRowOff d, dTargetOff d, dDeltaOff d, dStateOff d].any (fun o => decide (o % 32 ≠ 0))
    || !recordsFit (dJointOff d) (128 * dJoints d) || !recordsFit (dRowOff d) (128 * dRows d)
    || !recordsFit (dTargetOff d) (64 * dTargets d)
    || decide (stateSize < dStateOff d + stateBlockSize d)
    || (decide (dOutFmt d ≠ 3) && decide (descWord d 9 % 32 ≠ 0))
    || (List.range 16).any (fun i => decide (2 ^ descUnused.getD i 0 ≤ descWord d i)) || !legalTally (dResult d)

/-- System descriptor `sys` of an engine. -/
def descriptor (s : State) (e sys : Nat) : List Nat := structWords s e (0x1000 + 128 * sys) 16

/-! ### Delta lists (R322) -/

/-- COUNT of a delta list. -/
def deltaCount (s : State) (e : Nat) (d : List Nat) : Nat := bitsOf (structWord s e (dDeltaOff d)) 0 11

/-- Whether a whole list cannot be applied. -/
def deltaListBad (s : State) (e : Nat) (d : List Nat) : Bool :=
  let n := deltaCount s e d
  decide (1024 < n) || decide (dDeltaOff d < 0x3000) || decide (structSize < dDeltaOff d + 32 + 16 * n)

/-- The entries of a list: INDEX, WORD, KIND, whether a bit stands outside the fields, and the value. -/
def deltaEntries (s : State) (e : Nat) (d : List Nat) : List (Nat × Nat × Nat × Bool × Nat) :=
  (List.range (deltaCount s e d)).map (fun i =>
    let a := dDeltaOff d + 32 + 16 * i
    let w := structWord s e a
    (bitsOf w 0 12, bitsOf w 12 4, bitsOf w 16 2, decide (2 ^ 18 ≤ w), structWord s e (a + 8)))

/-- Whether an entry is ignored. -/
def deltaBad (d : List Nat) (x : Nat × Nat × Nat × Bool × Nat) : Bool :=
  let (index, word, kind, extra, _) := x
  let count := match kind with
    | 1 => dRows d
    | 2 => dTargets d
    | _ => dJoints d
  let words := match kind with
    | 2 => 8
    | 3 => 2
    | _ => 16
  extra || decide (count ≤ index) || decide (words ≤ word)

/-- The record an entry names: its offset in structure memory. -/
def deltaPlace (d : List Nat) (index word kind : Nat) : Nat :=
  match kind with
  | 0 => dJointOff d + 128 * index + 8 * word
  | 1 => dRowOff d + 128 * index + 8 * word
  | _ => dTargetOff d + 64 * index + 8 * word

/-- Bytes of a delta list that the engine reads. -/
def deltaBytes (s : State) (e : Nat) (d : List Nat) : Nat :=
  if structSize < dDeltaOff d + 8 then 0 else if deltaListBad s e d then 8 else 32 + 16 * deltaCount s e d

/-- Everything a solve reads from its engine's memories once its descriptor is read (R316). -/
def solveMet (e : Nat) (d : List Nat) (s : State) : State :=
  let n := deltaBytes s e d
  engineMet e (structSize + dStateOff d) (stateBlockSize d) (engineMet e (dDeltaOff d) n
    (engineMet e (dTargetOff d) (64 * dTargets d) (engineMet e (dRowOff d) (128 * dRows d)
      (engineMet e (dJointOff d) (128 * dJoints d) s))))

/-- The record entries written into structure memory, in ascending order, then COUNT := 0. -/
def applyDeltas (e : Nat) (d : List Nat) (s : State) : State :=
  let good := (deltaEntries s e d).filter (fun x => !deltaBad d x)
  let s := forEach good (fun (x : Nat × Nat × Nat × Bool × Nat) s =>
    let (index, word, kind, _, v) := x
    if kind = 3 then s else s.writeMem (engineBase e + deltaPlace d index word kind) (bytesOf 8 v)) s
  let h := structWord s e (dDeltaOff d)
  s.writeMem (engineBase e + dDeltaOff d) (bytesOf 8 (putBits h 0 11 0))

/-- q (word 0) or q̇ (word 1) after the joint-state entries. -/
def deltaState (l : List (Nat × Nat × Nat × Bool × Nat)) (word : Nat) (q : List Int) : List Int :=
  l.foldl (fun q x => if x.2.2.1 = 3 ∧ x.2.1 = word then q.set x.1 (signedOf 48 x.2.2.2.2) else q) q

/-! ### A solve (R320, R323, R332) -/

/-- The phases of a solve: the offset each begins at, and its code. -/
def solvePhases (d : List Nat) (deltas : Nat) : List (Nat × Nat) :=
  let ik := 48 * dTargets d * dIk d
  let j := dJoints d
  let a := 128 + 2 * deltas
  [(0, 1), (128, 2), (a, 3), (a + ik, 4), (a + ik + 6 * j, 5), (a + ik + 18 * j, 6), (a + ik + 24 * j, 7),
    (a + ik + 24 * j + 6 * dRows d * dPgs d, 8)]

/-- T (R323). -/
def solveTicks (d : List Nat) (deltas : Nat) : Nat :=
  256 + 24 * dJoints d + 6 * dRows d * dPgs d + 48 * dTargets d * dIk d + 2 * deltas

/-- The offset at which the phase of an offset begins. -/
def phaseStart (phases : List (Nat × Nat)) (off : Nat) : Nat :=
  phases.foldl (fun p x => if x.1 ≤ off then x.1 else p) 0

/-- ITER and SUB at an offset from the first tick (the phase table). -/
def progressAt (r : SolveRun) (off : Nat) : Nat × Nat :=
  let o := off - phaseStart r.phases off
  match phaseAt r.phases off with
  | 2 => (o / 2, 0)
  | 3 => (o / (48 * dTargets r.desc), o % (48 * dTargets r.desc) / 48)
  | 4 => (o / 6, 0)
  | 5 => (o / 12, 0)
  | 6 => (o / 6, 0)
  | 7 => (o / (6 * dRows r.desc), o % (6 * dRows r.desc) / 6)
  | _ => (0, 0)

/-- The bytes of one word in the output block: a container, an FP32 rounded RNE, or an FP64. -/
def outputWord (fmt : Nat) (frac : Nat) (n : Int) : List Byte :=
  match fmt with
  | 0 => container n
  | 1 => bytesOf 4 (roundFloat fmtFp32 .rne (exactOfInt n (-(frac : Int)))).1
  | _ => bytesOf 8 (roundFloat fmtFp64 .rne (exactOfInt n (-(frac : Int)))).1

/-- The output block: q then q̇ of each joint, padded to a whole sector. -/
def outputBlock (x : SolveIn) (w : Work) : List Byte :=
  let fmt := dOutFmt x.desc
  let b := (List.range x.joints.length).flatMap (fun i =>
    outputWord fmt (x.frac qANG) (w.q.getD i 0) ++ outputWord fmt (x.frac qVEL) (w.qd.getD i 0))
  padTo ((b.length + 31) / 32 * 32) b

/-- The location word (R332). -/
def locationWord (w : Work) : Nat :=
  let c := w.clamp.getD (0, 0)
  let t := w.sat.getD (0, 0)
  c.1 % 16 + c.2 % 4096 * 2 ^ 4 + t.1 % 16 * 2 ^ 16 + t.2 % 4096 * 2 ^ 20

/-- The state block behind the status word: location, count, a zero word, the joints and the impulses (R320). -/
def stateTail (x : SolveIn) (w : Work) (count : Nat) : List Byte :=
  bytesOf 8 (locationWord w) ++ bytesOf 8 ((count + 1) % 2 ^ 64) ++ zeros 8
    ++ (List.range x.joints.length).flatMap (fun i =>
      container (w.q.getD i 0) ++ container (w.qd.getD i 0) ++ container (w.qdd.getD i 0) ++ zeros 8)
    ++ w.lam.flatMap container

/-- The LATE record of this tick, if it is one with the step phase at or past the deadline: phase code, ITER and SUB, or BEFORE where
the deadline has passed as the solve starts (R325). -/
def lateRecord (s : State) (r : SolveRun) : Option (Nat × Nat × Nat) :=
  if r.deadline = 0 ∨ r.bad ∨ s.phase < r.deadline then none
  else if s.now = r.start ∧ r.deadline < s.phase then some (0, 0, 0)
  else
    let off := s.now - r.start
    let (iter, sub) := progressAt r off
    some (phaseAt r.phases off, iter, sub)

/-- A running solve is compared with its deadline; its first LATE record stays (R325). -/
def noteLate (e : Nat) (s : State) : State :=
  match (s.engine e).solve with
  | some r => s.modEngine e (fun g => { g with solve := some { r with late := r.late.orElse (fun _ => lateRecord s r) } })
  | none => s

/-- The comparison of every engine with a solve, in every tick (R325). -/
def noteLates (s : State) : State :=
  forEach ((s.engines.filter (fun e => e.2.solve.isSome)).map (·.1)) noteLate s

/-- The solve of a valid descriptor that starts in this tick: the delta list is applied, everything else is read, and what
FINISH writes is computed (R316). -/
def beginSolve (e sys : Nat) (d : List Nat) (s : State) : State :=
  let whole := deltaListBad s e d
  let entries := if whole then [] else deltaEntries s e d
  let good := entries.filter (fun x => !deltaBad d x)
  let s := if whole then s else applyDeltas e d s
  let j := dJoints d
  let base := dStateOff d
  let x : SolveIn := {
    desc := d,
    joints := (List.range j).map (fun i => structWords s e (dJointOff d + 128 * i) 16),
    rows := (List.range (dRows d)).map (fun i => structWords s e (dRowOff d + 128 * i) 16),
    targets := (List.range (dTargets d)).map (fun i => structWords s e (dTargetOff d + 64 * i) 8) }
  let q := deltaState good 0 ((List.range j).map (fun i => stateRaw s e (base + 32 + 32 * i)))
  let qd := deltaState good 1 ((List.range j).map (fun i => stateRaw s e (base + 40 + 32 * i)))
  let lam := (List.range (dRows d)).map (fun i => stateRaw s e (base + 32 + 32 * j + 8 * i))
  let count := natOf (s.readMem (stateBase e + base + 16) 8)
  let w := x.solve (dIk d) (dPgs d) q qd lam
  let flags := (if w.clamp.isSome then 2 else 0) + (if w.sat.isSome then 4 else 0) + (if x.structBad then 8 else 0)
    + (if whole || decide (good.length ≠ entries.length) then 16 else 0)
  let out := outputBlock x w
  noteLate e <| s.modEngine e (fun g => { g with sys := sys, solve := some {
    sys := sys, start := s.now, len := solveTicks d entries.length, deadline := dDeadline d, desc := d,
    phases := solvePhases d entries.length, bad := false, late := none, flags := flags, loc := locationWord w,
    stateWrites := [(stateBase e + base + 8, stateTail x w count)],
    output := (if dOutFmt d = 3 ∨ out.isEmpty then none else some (descWord d 9, bitOf (descWord d 10) 0, out)),
    tally := dResult d, statusAt := stateBase e + base } })

/-- An invalid descriptor: SYS_BAD, and 256 ticks that write nothing (R318). -/
def beginBadSolve (e sys : Nat) (d : List Nat) (s : State) : State :=
  let s := s.modEngine e (fun g => { g with sys := sys, solve := some {
    sys := sys, start := s.now, len := 256, deadline := 0, desc := d, phases := [(0, 1)], bad := true, late := none,
    flags := 0, loc := 0, stateWrites := [], output := none, tally := dResult d, statusAt := 0 } })
  marStatus e (2 ^ 6) sys 0 s

/-- The status word of a solve (R332). -/
def statusWord (r : SolveRun) : Nat :=
  match r.late with
  | some (p, i, k) => r.flags + 1 + p * 2 ^ 8 + i % 2 ^ 11 * 2 ^ 12 + k % 2 ^ 12 * 2 ^ 23
  | none => r.flags

/-- A credit of an engine leaves (R324, R329): RESULT and CREDIT name status bit 5, COPY bit 7. -/
def sendResult (e bit cmd sys tally : Nat) (err : Bool) (s : State) : State :=
  if carriesCredit tally then
    s.send (624 + e) (.marCredit e bit cmd sys)
      (creditPacket (tallyNode tally) (bitsOf tally 29 17) (bitsOf tally 0 16) err) (tallyNode tally).isSome
  else s

/-- Bytes of output not yet acknowledged (the 64 KiB buffer of R324). -/
def bufferedBytes (g : Engine) : Nat := g.results.foldl (fun n r => n + r.bytes) 0

/-- Whether an engine may go on: RUNNING, not penned, not held, the node not frozen. -/
def engineOn (s : State) (e : Nat) : Bool :=
  decide (e < 16) && decide ((s.engine e).state = .running) && !s.enginePenned e && !(s.engine e).paused && !s.akm.frozen

/-- Bytes of a solve's output. -/
def outputBytes (r : SolveRun) : Nat :=
  match r.output with
  | some (_, _, b) => b.length
  | none => 0

/-- Whether the buffer has room for the output of an engine's solve. -/
def outputFits (g : Engine) (r : SolveRun) : Bool := decide (bufferedBytes g + outputBytes r ≤ 65536)

/-- The offset of the first FINISH tick. -/
def finishAt (r : SolveRun) : Nat := ((r.phases.find? (fun p => decide (p.2 = 8))).map (·.1)).getD 0

/-- Output is acknowledged and leaves the buffer; a solve that waits at its first FINISH tick goes on where there is room now (R324). -/
def freeOutput (e : Nat) (f : Engine → Engine) (s : State) : State :=
  s.modEngine e (fun g =>
    let g' := f g
    match g.solve with
    | some r =>
      if r.start + finishAt r ≤ s.now ∧ outputFits g r = false ∧ outputFits g' r then
        { g' with solve := some { r with stall := s.now - (r.start + finishAt r) } }
      else g'
    | none => g')

/-- The solve that ends now: its last tick has come, a wait for room in the buffer counted (R324). -/
def solveEnding (s : State) (e : Nat) : Option SolveRun :=
  match (s.engine e).solve with
  | some r => if engineOn s e ∧ r.start + r.len + r.stall ≤ s.now + 1 ∧ outputFits (s.engine e) r then some r else none
  | none => none

/-- The next command may begin (R330). -/
def nextCommand (e words gap : Nat) (s : State) : State :=
  s.modEngine e (fun g => { g with cmd := g.cmd + words, next := s.now + gap })

/-- The output of a solve is sent, one write for each piece (R98, R100); its RESULT credit waits for the answers. -/
def sendOutput (e : Nat) (r : SolveRun) (a : Nat) (glb : Bool) (b : List Byte) (s : State) : State :=
  let num := (s.getReg (regAddr .marSolves e)).toNat
  let ps := pieces a (b.length / 32)
  let s := s.modEngine e (fun g => { g with results := g.results ++
    [{ num := num, cmd := (s.engine e).cmd, sys := r.sys, tally := r.tally, left := ps.length, bytes := b.length, err := false }] })
  forEach ps (fun p s => s.send (624 + e) (.marWrite e num)
    (addressed { opcode := opWR, nsect := p.2, data := slice b p.1 (32 * p.2) } glb a p.1) glb) s

/-- FINISH of a solve (R323, R324, R332), or the end of one whose descriptor is invalid. -/
def finishSolve (e : Nat) (r : SolveRun) (s : State) : State :=
  let s := s.modEngine e (fun g => { g with solve := none })
  if r.bad then nextCommand e 1 1 (sendResult e 5 (s.engine e).cmd r.sys r.tally true s)
  else
    let r := { r with late := r.late.orElse (fun _ => lateRecord s r) }
    let s := forEach r.stateWrites (fun (x : Nat × List Byte) s => s.writeMem x.1 x.2) s
    let s := s.writeMem r.statusAt (bytesOf 8 (statusWord r))
    let s := s.setReg (regAddr .marSolves e) (s.getReg (regAddr .marSolves e) + 1)
    let s := marStatus e (statusWord r % 64) r.sys 0 s
    let s := match r.output with
      | some (a, glb, b) => sendOutput e r a glb b s
      | none => sendResult e 5 (s.engine e).cmd r.sys r.tally false s
    nextCommand e 1 1 s

def solveFinishStep (e : Nat) (s : State) : State :=
  match solveEnding s e with
  | some r => finishSolve e r s
  | none => s

/-- SOLVE_FINISH (R323, R324). -/
def execSolveFinish (e : Nat) (s : State) : Host.Outcome State Fault Refusal := .next (solveFinishStep e s)

/-- MAR_LATE (R325). -/
def execMarLate (e : Nat) (s : State) : Host.Outcome State Fault Refusal := act (engineOn s e) (noteLate e) s

/-! ### Commands (R326 to R330) -/

/-- Whether an engine may begin its next command in this tick. -/
def engineReady (s : State) (e : Nat) : Bool :=
  let g := s.engine e
  engineOn s e && g.wait.isNone && g.solve.isNone && g.copy.isNone && decide (g.next ≤ s.now)
    && !(willCut s && Table.get false g.pendingH s.cutHurdle)

/-- Words of a command. -/
def commandWords (op : Nat) : Nat := if op = 6 then 2 else if op = 7 then 4 else 1

/-- Whether the fields of a command's first word that are marked zero are zero, and its tally word legal (R326). -/
def commandLegal (op w : Nat) (tally : Nat) : Bool :=
  let rest (n : Nat) : Bool := decide (bitsOf w n (56 - n) = 0)
  match op with
  | 0 => rest 0
  | 1 => rest 6
  | 2 => rest 39
  | 3 => rest 10
  | 4 => rest 10
  | 5 => rest 10
  | 6 => rest 0 && legalTally tally
  | 7 => rest 18 && legalTally tally
  | 8 => rest 9
  | 9 => rest 0
  | _ => false

/-- The engine stops with CMD_ILLEGAL (R326); requests already sent complete. -/
def stopIllegal (e : Nat) (s : State) : State :=
  marStatus e (2 ^ 11) 0 0 (s.modEngine e (fun g => { g with state := .stopped, wait := none }))

/-- The command of an engine that is ready: a word at 512 or above, a reserved opcode or an illegal field stops the engine;
the row whose opcode it has runs it. `f` gets the first word. -/
def engineCommand (op e : Nat) (f : Nat → State → State) (s : State) : State :=
  if engineReady s e = false then s else
  let at_ := (s.engine e).cmd
  if 512 ≤ at_ then stopIllegal e s else
  let w := structWord s e (8 * at_)
  let o := bitsOf w 56 8
  if 9 < o ∨ 512 < at_ + commandWords o then stopIllegal e s
  else if o ≠ op then s
  else
  let s := engineMet e (8 * at_) (8 * commandWords o) s
  if commandLegal o w (structWord s e (8 * (at_ + commandWords o - 1))) = false then stopIllegal e s
  else f w s

/-- MAR_NOP. -/
def execMarNop (e : Nat) (s : State) : Host.Outcome State Fault Refusal :=
  .next (engineCommand 0 e (fun _ s => nextCommand e 1 1 s) s)

/-- SOLVE (R318, R323); a RESULT word with TMODE = 3 stops the engine as any tally word does (R326, log entry 24). -/
def runSolve (e w : Nat) (s : State) : State :=
  let sys := bitsOf w 0 6
  let d := descriptor s e sys
  let s := engineMet e (0x1000 + 128 * sys) 128 s
  if bitsOf (dResult d) 62 2 = 3 then stopIllegal e s
  else if descBad d then beginBadSolve e sys d s
  else beginSolve e sys d (solveMet e d s)

def execSolve (e : Nat) (s : State) : Host.Outcome State Fault Refusal := .next (engineCommand 1 e (runSolve e) s)

/-- TWAIT (R327). -/
def runMarTwait (e w : Nat) (s : State) : State :=
  let s := s.modEngine e (fun g => { g with wait := some (.tally (bitsOf w 31 8) (bitsOf w 0 31)) })
  if bitsOf w 0 31 = 0 then engineTallyDone e s else s

def execMarTwait (e : Nat) (s : State) : Host.Outcome State Fault Refusal := .next (engineCommand 2 e (runMarTwait e) s)

/-- Whether a purpose is one of an engine's data requests and credits. -/
def ofEngine (e : Nat) : Purpose → Bool
  | .marWrite f _ => decide (f = e)
  | .marCopyRead f _ => decide (f = e)
  | .marCopyWrite f => decide (f = e)
  | .marCredit f _ _ _ => decide (f = e)
  | _ => false

/-- The engine's fence (R328): every earlier write, read and credit is answered. -/
def engineFence (s : State) (e : Nat) : Bool := !s.awaits (ofEngine e) && (s.engine e).results.isEmpty

/-- The arrival of HARR and HARRW (R117, R327): SYNC_ORDER where the bit is pending, else the bit is set and ARRIVE sent. -/
def engineArrive (e h : Nat) (thenWait : Bool) (s : State) : State :=
  if Table.get false (s.engine e).pendingH h then
    let s := marStatus e (2 ^ 10) 0 0 s
    if thenWait then s.modEngine e (fun g => { g with wait := some (.hurdle h) }) else nextCommand e 1 1 s
  else
    let s := s.modEngine e (fun g => { g with
      pendingH := Table.set false g.pendingH h true, wait := some (.arrive h thenWait) })
    s.send (624 + e) (.marArrive e h) { opcode := opARRIVE, cls := clsSYNC, tally := h }

def runMarHarr (e : Nat) (thenWait : Bool) (w : Nat) (s : State) : State :=
  if engineFence s e then engineArrive e (bitsOf w 0 10) thenWait (aheadEngine e s) else s

/-- HARR (R327, R328). -/
def execMarHarr (e : Nat) (s : State) : Host.Outcome State Fault Refusal :=
  .next (engineCommand 3 e (runMarHarr e false) s)

/-- HWAIT (R327). -/
def runMarHwait (e w : Nat) (s : State) : State :=
  let h := bitsOf w 0 10
  let s := aheadEngine e s
  if Table.get false (s.engine e).pendingH h then s.modEngine e (fun g => { g with wait := some (.hurdle h) })
  else nextCommand e 1 16 s

def execMarHwait (e : Nat) (s : State) : Host.Outcome State Fault Refusal := .next (engineCommand 4 e (runMarHwait e) s)

/-- HARRW (R327, R328). -/
def execMarHarrw (e : Nat) (s : State) : Host.Outcome State Fault Refusal :=
  .next (engineCommand 5 e (runMarHarr e true) s)

/-- CREDIT (R329). -/
def runMarCredit (e : Nat) (s : State) : State :=
  nextCommand e 2 1 (sendResult e 5 (s.engine e).cmd 0 (structWord s e (8 * ((s.engine e).cmd + 1))) false s)

def execMarCredit (e : Nat) (s : State) : Host.Outcome State Fault Refusal :=
  .next (engineCommand 6 e (fun _ s => runMarCredit e s) s)

/-! ### COPY (R329) -/

/-- Whether `n` sectors from an address lie in the engine's own structure or state memory. -/
def inOwn (e a n : Nat) (glb : Bool) : Bool :=
  !glb && decide (engineBase e ≤ a) && decide (a + 32 * Nat.max 1 n ≤ engineBase e + structSize + stateSize)

/-- A COPY with nothing awaited any more sends its credit and ends. -/
def finishCopy (e : Nat) (s : State) : State :=
  match (s.engine e).copy with
  | some c =>
    if c.reads ≠ 0 ∨ c.writes ≠ 0 then s
    else nextCommand e 4 1 (sendResult e 7 (s.engine e).cmd 0 c.tally c.err (s.modEngine e (fun g => { g with copy := none })))
  | none => s

/-- COPY: reads the far source into the engine's own memory, or writes its own memory out, one packet for each piece of the
far side (R98); a copy within its own memory needs none. -/
def runCopy (e w : Nat) (s : State) : State :=
  let at_ := (s.engine e).cmd
  let n := bitsOf w 0 16
  let src := structWord s e (8 * (at_ + 1))
  let dst := structWord s e (8 * (at_ + 2))
  let sglb := bitOf w 16
  let dglb := bitOf w 17
  let ownS := inOwn e src n sglb
  let ownD := inOwn e dst n dglb
  if src % 32 ≠ 0 ∨ dst % 32 ≠ 0 ∨ ¬ (ownS ∨ ownD) then stopIllegal e s else
  let c : CopyRun := {
    n := n, src := src, sglb := sglb, dst := dst, dglb := dglb,
    tally := structWord s e (8 * (at_ + 3)), reads := 0, writes := 0, err := false, sent := false }
  let s := if ownS then bytesMet src (32 * n) (624 + e) s else s
  if ownS ∧ ownD then
    finishCopy e (((s.writeMem dst (s.readMem src (32 * n))).goodFrom dst n).modEngine e (fun g => { g with copy := some c }))
  else if ownS then
    let ps := pieces dst n
    let s := s.modEngine e (fun g => { g with copy := some { c with writes := ps.length } })
    finishCopy e (forEach ps (fun p s => s.send (624 + e) (.marCopyWrite e)
      (addressed { opcode := opWR, nsect := p.2, data := s.readMem (src + p.1) (32 * p.2) } dglb dst p.1) dglb) s)
  else
    let ps := pieces src n
    let s := s.modEngine e (fun g => { g with copy := some { c with reads := ps.length } })
    finishCopy e (forEach ps (fun p s => s.send (624 + e) (.marCopyRead e p.1)
      (addressed { opcode := opRD, nsect := p.2 } sglb src p.1) sglb) s)

def execCopy (e : Nat) (s : State) : Host.Outcome State Fault Refusal := .next (engineCommand 7 e (runCopy e) s)

/-- JUMP costs no tick (R329, R330). -/
def runJump (e w : Nat) (s : State) : State := s.modEngine e (fun g => { g with cmd := bitsOf w 0 9 })

def execJump (e : Nat) (s : State) : Host.Outcome State Fault Refusal := .next (engineCommand 8 e (runJump e) s)

/-- STOP waits for every earlier request, then sets DONE and makes the engine IDLE (R329). -/
def runStop (e : Nat) (s : State) : State :=
  if engineFence s e then marStatus e (2 ^ 12) 0 0 (s.modEngine e (fun g => { g with state := .idle })) else s

def execStop (e : Nat) (s : State) : Host.Outcome State Fault Refusal := .next (engineCommand 9 e (fun _ s => runStop e s) s)

/-! ### The start entry (R331, R389) -/

/-- Whether the launch hurdle is armed and its round has begun (some arrival has been accepted). -/
def launchBegun (s : State) : Bool :=
  let x := s.hurdle s.launchHurdle
  s.armed s.launchHurdle && (!x.arrived.isEmpty || x.sent)

/-- GO of MAR_START_COMMIT_e. -/
def marStart (e : Nat) (v : Word) (s : State) : State :=
  commitNow .marStartCommit e 0 2 4 0xC e [regAddr .marStart e] v
    (fun s => decide ((s.engine e).state ≠ .idle) || launchBegun s) id s

/-- MAR_START_COMMIT. -/
def execMarStartCommit (e : Nat) (src : Requester) (v : Word) (s : State) : Host.Outcome State Fault Refusal :=
  .next (if e < 16 then guardedWrite src false (marStart e v) s else answering errUNMAPPED 0 s)

end Sys2Proof.Machine
end

