-- ==== Sys2Proof/Machine/Prc.lean ====
section
/-! DEFINITION. The processor complex's own registers (chapter 12): the commits of start entries, memory attributes and
apertures, and MSIs, with the meanings of their commands. -/

namespace Sys2Proof.Machine

/-! ### Start entries (R295) -/

def startAddrs : List Nat := (List.range 64).map (fun c => regAddr .prcStart c)

def prcStartCommit (v : Word) (s : State) : State :=
  commitNow .prcStartCommit 0 4 6 3 9 0 startAddrs v launchBegun id s

/-- PRC_START_COMMIT (R295). -/
def execPrcStartCommit (src : Requester) (v : Word) (s : State) : Host.Outcome State Fault Refusal :=
  .next (guardedWrite src false (prcStartCommit v) s)

/-! ### Memory attributes (R283) -/

def pmaAddrs : List Nat := (List.range 16).map (fun k => regAddr .prcPma k)

/-- The attribute code of a region in a set of values: regions 508 to 511 read UNCACHED (R283). -/
def pmaCode (v : Nat → Word) (region : Nat) : Nat :=
  if 508 ≤ region then 1 else bitsOf (v (regAddr .prcPma (region / 32))).toNat (2 * (region % 32)) 2

/-- The live code of a region. -/
def State.pmaOf (s : State) (region : Nat) : Nat := pmaCode s.getReg region

/-- Whether an armed hurdle names a core in its participant map. -/
def coreNamed (s : State) : Bool :=
  (List.range 1024).any (fun h => s.armed h && (List.range 64).any (fun c => s.inMap h (576 + c)))

/-- PRC_PMA_COMMIT: the values are captured; they apply once the affected lines are written back and dropped. -/
def prcPmaCommit (v : Word) (s : State) : State := commitCapture .prcPmaCommit 4 5 6 pmaAddrs v s

def execPrcPmaCommit (src : Requester) (v : Word) (s : State) : Host.Outcome State Fault Refusal :=
  .next (guardedWrite src false (prcPmaCommit v) s)

/-- The captured value of a register of the group. -/
def capturedValue (s : State) (a : Nat) : Word := ((s.captured.find? (fun e => decide (e.1 = a))).map (·.2)).getD 0

/-- Every cached line of a region whose code changes is written back and dropped. -/
def dropChanged (s : State) : State :=
  let changes (k : Nat) : Bool := decide (pmaCode (capturedValue s) (64 * k / 2 ^ 30) ≠ s.pmaOf (64 * k / 2 ^ 30))
  let t := s.writeBackAll (fun k l => l.dirty && changes k)
  { t with lines := t.lines.filter (fun e => !changes e.1) }

def pmaApply (s : State) : State :=
  let s := if coreNamed s then s else dropChanged s
  commitApply .prcPmaCommit 5 6 3 0xA pmaAddrs (fun _ s => coreNamed s) id s

/-- PMA_APPLY (R283). -/
def execPmaApply (s : State) : Host.Outcome State Fault Refusal := act (s.bit .prcPmaCommit 0 5) pmaApply s

/-! ### Apertures (R282) -/

def prcAperCommit (v : Word) (s : State) : State :=
  let a := bitsOf v.toNat 0 4
  commitNow .prcAperCommit 0 4 6 3 0xB a [regAddr .prcAper a] v (fun _ => false) id s

/-- PRC_APER_COMMIT (R282). -/
def execPrcAperCommit (src : Requester) (v : Word) (s : State) : Host.Outcome State Fault Refusal :=
  .next (guardedWrite src false (prcAperCommit v) s)

/-! ### MSIs (R296) -/

/-- A write of a seteipnum register: the identity in the written 32 bits becomes pending. -/
def msiWrite (c : Nat) (sup : Bool) (v : Word) (s : State) : State := s.raiseMsi c sup (v.toNat % 2 ^ 32)

/-- MSI_WRITE (R296). -/
def execMsiWrite (src : Requester) (c : Nat) (sup : Bool) (v : Word) (s : State) : Host.Outcome State Fault Refusal :=
  .next (if c < 64 then guardedWrite src false (msiWrite c sup v) s else answering errUNMAPPED 0 s)

end Sys2Proof.Machine
end

