-- ==== Sys2Proof/Machine/RegWrite.lean ====
section
/-! DEFINITION. A write or a read of any register, with the effects of the registers that have one (R8, R9, R15, R389), and
the meanings of the commands that make them. -/

namespace Sys2Proof.Machine

/-- HEC_EVT_POST: a CORE_POST event with the writer's endpoint (R373, R374). -/
def postEvent (src : Requester) (v : Word) (s : State) : State :=
  s.ringEvent 0x0001 (requesterEp src) (bytesOf 8 v.toNat)

def execHecEvtPost (src : Requester) (v : Word) (s : State) : Host.Outcome State Fault Refusal :=
  .next (guardedWrite src false (postEvent src v) s)

/-- HEC_DB_POP: the oldest doorbell leaves with the read; APLIC source 2 falls with the last one (R374). -/
def popDoorbell (s : State) : State := answering 0 (s.hec.doorbells.headD 0) (s.setDoorbells s.hec.doorbells.tail)

def execHecDbPop (src : Requester) (s : State) : Host.Outcome State Fault Refusal :=
  .next (if mayAddress src then popDoorbell s else answering errUNMAPPED 0 s)

/-- A write of a register that addresses its row: the effect of the registers that have one, and a plain write of the
others (R9, R389). -/
def writeNamed (src : Requester) (r : RegRow) (i j : Nat) (v : Word) (s : State) : State :=
  match r.name with
  | .tilSeqCommit => guardedWrite src false (tilCommit i v) s
  | .pfbPenReq => guardedWrite src (decide (src ≠ .akm)) (penRequest v) s
  | .memMapCommit => guardedWrite src false (memMapCommit v) s
  | .memPenReq => guardedWrite src (decide (src ≠ .akm)) (memPenReq v) s
  | .synTally => synTallyWrite i src v s
  | .synHcommit => guardedWrite src false (synHcommit v) s
  | .synTreeCommit => guardedWrite src false (synTreeCommit v) s
  | .synDesigCommit => guardedWrite src false (synDesigCommit v) s
  | .synQwinCommit => guardedWrite src false (synQwinCommit v) s
  | .synHstat => guardedWrite src false (fun s =>
      if bitOf (s.clears (regAddr .synHstat i) v.toNat) 44 then s.setHurdle i { s.hurdle i with late := false } else s) s
  | .hfiPlaneCommit => guardedWrite src false (hfiPlaneCommit v) s
  | .hfiWinCommit => guardedWrite src false (hfiWinCommit v) s
  | .hfiTmo => guardedWrite src false (hfiTmo v) s
  | .prcStartCommit => guardedWrite src false (prcStartCommit v) s
  | .prcPmaCommit => guardedWrite src false (prcPmaCommit v) s
  | .prcAperCommit => guardedWrite src false (prcAperCommit v) s
  | .marStartCommit => guardedWrite src false (marStart i v) s
  | .ckpCutCommit => guardedWrite src false (ckpCutCommit v) s
  | .ckpRestoreCtl => guardedWrite src false (startRestore v) s
  | .ckpLaunchCommit => guardedWrite src false (ckpLaunchCommit v) s
  | .ckpLaunchSend => guardedWrite src false (ckpLaunchSend v) s
  | .hecEvtPost => guardedWrite src false (postEvent src v) s
  | .brcWdog => guardedWrite src (decide (src ≠ .akm)) (kickWatchdog v) s
  | .aksJob => guardedWrite src (!hecOrAkm src) (writeJob v) s
  | .aksQuoteCtl => guardedWrite src false (startQuote src v) s
  | .aksPeerCtl => guardedWrite src false (loadPeer v) s
  | .aksDebugCtl => guardedWrite src false (checkToken v) s
  | .akmPenCmd => guardedWrite src (!isHec src) (penCommand v) s
  | .pwrCap => guardedWrite src (!hecOrAkm src) (writeCap v) s
  | _ => guardedWrite src false (fun s => s.storeReg r i j v) s

/-- A write of an AIA frame: an MSI, or a register of an APLIC domain (R296). The seteipnum register of the other byte order takes
no write, and an offset without a register is UNMAPPED (R15). -/
def writeAia (src : Requester) (f : AiaFrame) (v : Word) (s : State) : State :=
  if f.named = false then answering errUNMAPPED 0 s else
  match f with
  | .imsic c sup off => guardedWrite src false (if off = 0 then msiWrite c sup v else id) s
  | .aplic sup off => guardedWrite src false (fun s => s.writeAplic sup off (v.toNat % 2 ^ 32)) s

/-- A write of register space: `answer` takes the ERR code or 0. A tile's registers answer PENNED while it is penned or not
enabled; a staged view and a read-only register take no write (R9, R13). -/
def writeRegister (src : Requester) (a : Nat) (v : Word) (s : State) : State :=
  match aiaFrame a with
  | some f => writeAia src f v s
  | none =>
    if s.inPennedBlock a then answering (if mayAddress src then errPENNED else errUNMAPPED) 0 s else
    match lookupReg a with
    | some (r, i, j) => writeNamed src r i j v s
    | none =>
      match shadowTarget a with
      | some _ => guardedWrite src false id s
      | none => answering errUNMAPPED 0 s

/-- REGISTER_WRITE (R389). -/
def execRegisterWrite (src : Requester) (a : Nat) (v : Word) (s : State) : Host.Outcome State Fault Refusal :=
  .next (writeRegister src a v s)

/-- A read of register space with its effect: `answer` takes the ERR code or 0, and the value. -/
def fetchRegister (src : Requester) (a : Nat) (s : State) : State :=
  if ¬ mayAddress src then answering errUNMAPPED 0 s
  else if a = regAddr .hecDbPop then popDoorbell s
  else
    let (code, v) := s.readRegister a
    answering code v s

end Sys2Proof.Machine
end

