-- ==== Sys2Proof/Machine/HecMsg.lean ====
section
/-! DEFINITION. The messages of the Crook protocol (R365 to R374, R446) as the HEC executes them, with the meanings of their
commands. -/

namespace Sys2Proof.Machine

/-! ### Beginning a message (R366 to R369, R372) -/

/-- Whether an earlier message of the same session and queue is still in execution. -/
def queueBusy (s : State) (num q : Nat) : Bool :=
  s.hec.execs.any (fun e => match e.2 with
    | some x => decide (x.num = num) && decide (x.msg.queue = q)
    | none => false)

/-- Whether a message waits for every earlier message of its queue (R366). -/
def Message.fenced (m : Message) : Bool := m.fence || decide (m.op = 0x04) || decide (m.op = 0x05) || m.credits

/-- Whether the message at the head of a queue may begin: a gated one not before the step release that opens it (R369). -/
def mayBegin (s : State) (x : Session) (m : Message) : Bool :=
  (decide (m.step = 0) || m.opened) && !s.hec.held && !(m.fenced && queueBusy s x.num m.queue)

/-- The message at the head of a queue leaves it. -/
def dequeue (slot q : Nat) (s : State) : State :=
  s.modSession slot (fun x => { x with queues := Table.modify [] x.queues q List.tail })

/-- Executes the message at the head of queue `q` of a session slot where it has an operation and may begin. In FATAL_HOLD
an operation outside R372 is answered FATAL, whatever it waits for. -/
def execute (op slot q : Nat) (f : Session → Message → State → State) (s : State) : State :=
  match s.session slot with
  | none => s
  | some x =>
    match Table.get [] x.queues q with
    | [] => s
    | m :: _ =>
      if m.op ≠ op then s
      else if s.fatalHold ∧ fatalOps.elem op = false then sendResultMsg slot m.tag 5 0 (dequeue slot q s)
      else if mayBegin s x m = false then s
      else f x m s

/-- The port number of a session's link, and its requester. -/
def hecPort (x : Session) : Nat := if x.link < 2 then 0 else 1
def hecOf (x : Session) : Requester := .hec (hecPort x)

/-- An execution begun with a number of answers awaited. -/
def started (slot : Nat) (x : Session) (m : Message) (left : Nat) : Exec := { num := x.num, slot, msg := m, left }

/-- A message taken from its queue and answered at once. -/
def answerNow (slot q status code : Nat) (m : Message) (s : State) : State :=
  sendResultMsg slot m.tag status code (dequeue slot q s)

/-! ### Memory (R367) -/

/-- A message whose pieces go out as requests: one for each 1 KiB piece of its range. -/
def beginPieces (slot q jid n : Nat) (base : Nat) (purpose : Nat → Nat → Purpose) (packet : Nat → Nat → Packet)
    (x : Session) (m : Message) (s : State) : State :=
  let id := s.hec.nextExec
  let ps := pieces base n
  let s := beginExec (started slot x m ps.length) (dequeue slot q s)
  let s := forEach ps (fun p s =>
    s.sendAs (linkEp x.link) jid (purpose id p.1) (addressed (packet p.1 p.2) false base p.1)) s
  advanceExec (linkEp x.link) id s

/-- READ. -/
def beginRead (slot q : Nat) (x : Session) (m : Message) (s : State) : State :=
  beginPieces slot q s.jid m.arg m.addr (fun id off => .hecRead id off)
    (fun _ n => { opcode := opRD, cls := clsREQ, nsect := n }) x m s

def execReadMsg (slot q : Nat) (s : State) : Host.Outcome State Fault Refusal := .next (execute 0x01 slot q (beginRead slot q) s)

/-- WRITE: its credit follows once every piece is answered. -/
def beginWrite (slot q : Nat) (x : Session) (m : Message) (s : State) : State :=
  beginPieces slot q s.jid (m.data.length / 32) m.addr (fun id off => .hecWrite id off)
    (fun off n => { opcode := opWR, cls := clsREQ, nsect := n, data := slice m.data off (32 * n) }) x m s

def execWriteMsg (slot q : Nat) (s : State) : Host.Outcome State Fault Refusal := .next (execute 0x02 slot q (beginWrite slot q) s)

/-- CREDIT. -/
def beginCredit (slot q : Nat) (x : Session) (m : Message) (s : State) : State :=
  let id := s.hec.nextExec
  advanceExec (linkEp x.link) id (beginExec (started slot x m 0) (dequeue slot q s))

def execCrookCredit (slot q : Nat) (s : State) : Host.Outcome State Fault Refusal :=
  .next (execute 0x05 slot q (beginCredit slot q) s)

/-! ### Registers (R446) -/

/-- REGRD: one register after another; an ERR gives the 64-bit error value of R273. -/
def readRegs (src : Requester) (base unit n : Nat) (s : State) : State × List Byte × Option (Nat × Nat) :=
  (List.range n).foldl (fun (st : State × List Byte × Option (Nat × Nat)) i =>
    let s := fetchRegister src (base + unit * i) st.1
    let code := s.answer.1
    let v := if code = 0 then s.answer.2.toNat else 0x7FF4000000000E00 + code
    (s, st.2.1 ++ bytesOf unit v, if code = 0 then st.2.2 else lowerFail st.2.2 i code)) (s, [], none)

def beginRegrd (slot q : Nat) (x : Session) (m : Message) (s : State) : State :=
  let r := readRegs (hecOf x) m.addr (regUnit m.addr) m.arg (dequeue slot q s)
  let id := r.1.hec.nextExec
  endExec id { started slot x m 0 with got := [(0, r.2.1)], fail := r.2.2 } r.1

def execRegrd (slot q : Nat) (s : State) : Host.Outcome State Fault Refusal := .next (execute 0x03 slot q (beginRegrd slot q) s)

/-- REGWR: an ERR writes nothing there, and the next register follows. -/
def writeRegs (src : Requester) (base unit : Nat) (values : List Nat) (s : State) : State × Option (Nat × Nat) :=
  values.zipIdx.foldl (fun (st : State × Option (Nat × Nat)) e =>
    let s := writeRegister src (base + unit * e.2) (BitVec.ofNat 64 e.1) st.1
    (s, if s.answer.1 = 0 then st.2 else lowerFail st.2 e.2 s.answer.1)) (s, none)

def beginRegwr (slot q : Nat) (x : Session) (m : Message) (s : State) : State :=
  let unit := regUnit m.addr
  let values := (chunksOf unit m.arg m.data).map natOf
  let r := writeRegs (hecOf x) m.addr unit values (dequeue slot q s)
  match r.2 with
  | some f => sendResultMsg slot m.tag 1 f.2 r.1
  | none => sendResultMsg slot m.tag 0 0 r.1

def execRegwr (slot q : Nat) (s : State) : Host.Outcome State Fault Refusal := .next (execute 0x04 slot q (beginRegwr slot q) s)

/-! ### Doorbell, launch, dump (R370, R371, R374) -/

/-- DOORBELL: it waits at the head of its queue while the FIFO is full. -/
def beginDoorbell (slot q : Nat) (_x : Session) (m : Message) (s : State) : State :=
  if 64 ≤ s.hec.doorbells.length then s
  else
    answerNow slot q 0 0 m (s.setDoorbells (s.hec.doorbells ++ [BitVec.ofNat 64 m.arg]))

def execDoorbell (slot q : Nat) (s : State) : Host.Outcome State Fault Refusal := .next (execute 0x06 slot q (beginDoorbell slot q) s)

/-- LAUNCH: BAD_MSG beyond the launch area or with CHUNKS = 0; each data kilobyte is a launch write. -/
def beginLaunch (slot q : Nat) (x : Session) (m : Message) (s : State) : State :=
  let base := launchArea s + m.addr
  if launchChunks s * pageSize ≤ m.addr ∨ launchChunks s * pageSize < m.addr + m.data.length then answerNow slot q 3 0 m s
  else beginPieces slot q s.jid (m.data.length / 32) base (fun id off => .hecLaunch id off (base + off))
    (fun off n => { opcode := opWR, cls := clsREQ, nsect := n, data := slice m.data off (32 * n) }) x m s

def execLaunchMsg (slot q : Nat) (s : State) : Host.Outcome State Fault Refusal := .next (execute 0x07 slot q (beginLaunch slot q) s)

/-- DUMP_READ: as READ, in the dump area and with JID 0; its sectors count as read for R430. -/
def beginDumpRead (slot q : Nat) (x : Session) (m : Message) (s : State) : State :=
  let s := forEach (List.range m.arg) (fun i s =>
    { s with akm := { s.akm with dumpRead := Table.set false s.akm.dumpRead (m.addr / 32 + i) true } }) s
  beginPieces slot q 0 m.arg (dumpBase + m.addr) (fun id off => .hecRead id off)
    (fun _ n => { opcode := opRD, cls := clsREQ, nsect := n }) x m s

def execDumpRead (slot q : Nat) (s : State) : Host.Outcome State Fault Refusal := .next (execute 0x08 slot q (beginDumpRead slot q) s)

/-! ### Flash (R371, R375) -/

/-- Whether a flash range lies in the image slot that the node did not boot from. -/
def inOtherSlot (s : State) (a n : Nat) : Bool :=
  let base := slotBase (1 - s.bootedSlot)
  decide (base ≤ a) && decide (a + n ≤ base + 0x2000000)

/-- FLASH_READ waits while an operation runs in the flash. -/
def beginFlashRead (slot q : Nat) (x : Session) (m : Message) (s : State) : State :=
  if s.brc.flashOp.isSome then s
  else
    let got := if m.arg = 0 then [] else [(0, s.readFlash m.addr m.arg)]
    let s := dequeue slot q s
    endExec s.hec.nextExec { started slot x m 0 with got := got } s

def execFlashRead (slot q : Nat) (s : State) : Host.Outcome State Fault Refusal :=
  .next (execute 0x09 slot q (beginFlashRead slot q) s)

/-- A flash operation begins for a message. -/
def beginFlashOp (op : FlashOp) (slot q : Nat) (x : Session) (m : Message) (s : State) : State :=
  let id := s.hec.nextExec
  let s := beginExec (started slot x m 1) (dequeue slot q s)
  { s with brc := { s.brc with flashOp := some op, flashFor := some id } }

/-- FLASH_ERASE: DENIED outside the slot not booted. -/
def beginErase (slot q : Nat) (x : Session) (m : Message) (s : State) : State :=
  if s.brc.flashOp.isSome then s
  else if inOtherSlot s m.addr 0x10000 = false then answerNow slot q 2 0 m s
  else beginFlashOp (.erase m.addr) slot q x m s

def execFlashErase (slot q : Nat) (s : State) : Host.Outcome State Fault Refusal := .next (execute 0x0A slot q (beginErase slot q) s)

/-- FLASH_PROGRAM: with no data it is answered OK. -/
def beginProgram (slot q : Nat) (x : Session) (m : Message) (s : State) : State :=
  if s.brc.flashOp.isSome then s
  else if m.data.isEmpty then answerNow slot q 0 0 m s
  else if inOtherSlot s m.addr m.data.length = false then answerNow slot q 2 0 m s
  else beginFlashOp (.program m.addr m.data) slot q x m s

def execFlashProgram (slot q : Nat) (s : State) : Host.Outcome State Fault Refusal :=
  .next (execute 0x0B slot q (beginProgram slot q) s)

/-- A flash operation has ended: its message's RESULT, or the status of the I3C write that asked for it, and the next operation that
waits for the flash begins. One that was in progress before a reset has nobody to answer. -/
def flashAnswered (s : State) : State :=
  let was := s.brc
  let s := { s with brc := { s.brc with flashOp := was.flashWait.head?, flashWait := was.flashWait.tail, flashFor := none,
                                        flashI3c := !was.flashWait.isEmpty } }
  match was.flashFor with
  | some id =>
    match s.exec? id with
    | some e => endExec id { e with left := 0 } s
    | none => s
  | none => if was.flashI3c then { s with brc := { s.brc with i3cAnswer := [0] } } else s

/-- FLASH_OP_DONE: a page is programmed or a block erased; a program of more pages goes on with the next, but not in the
reset hold, which waits for one pulse only (R383). -/
def flashDone (s : State) : State :=
  match s.brc.flashOp with
  | none => s
  | some (.erase a) => if s.brc.eraseSuspended then s else flashAnswered (s.eraseFlash a)
  | some (.program a d) =>
    let s := s.programFlash a (d.take 256)
    if s.brc.hold.isSome then { s with brc := { s.brc with flashOp := none, flashFor := none, holdFrom := s.now } }
    else if (d.drop 256).isEmpty then flashAnswered s
    else { s with brc := { s.brc with flashOp := some (.program (a + 256) (d.drop 256)) } }

def execFlashOpDone (s : State) : Host.Outcome State Fault Refusal := act (!s.brc.off) flashDone s

/-! ### RESET (R371) -/

/-- RESET: OK, and a reset from 100 µs after that RESULT is sent on. While one is under way another waits at the head of its queue,
so that no RESULT leaves later than that (log entry 50). -/
def beginReset (slot q : Nat) (_x : Session) (m : Message) (s : State) : State :=
  if s.hec.resetAsked ∨ s.hec.resetAt.isSome then s else
  let s := dequeue slot q { s with hec := { s.hec with resetAsked := true } }
  sendPayload slot (hostMessage 0x81 m.tag 0 0 []) (some .reset) s

def execCrookResetMsg (slot q : Nat) (s : State) : Host.Outcome State Fault Refusal := .next (execute 0x0C slot q (beginReset slot q) s)

/-- CROOK_RESET. -/
def crookResetDue (s : State) : Bool :=
  match s.hec.resetAt with
  | some t => decide (t ≤ s.now)
  | none => false

def execCrookReset (s : State) : Host.Outcome State Fault Refusal :=
  act (crookResetDue s) (fun s => recognise causeCROOK 0 s) s

/-- A RESET takes effect by itself 900 µs after that, so within 1 ms of its RESULT (R371). -/
def crookResetLate (s : State) : State :=
  match s.hec.resetAt with
  | some t => if t + ticksOfUs 900 ≤ s.now then recognise causeCROOK 0 s else s
  | none => s

/-! ### Checkpoints and events (R370, R373) -/

/-- SHEAR_ACK: the SHEAR data that its range covers is acknowledged. -/
def takeShearAck (slot q : Nat) (_x : Session) (m : Message) (s : State) : State :=
  let s := dequeue slot q s
  let lo := m.addr
  let hi := m.addr + bitsOf m.arg 32 32 * pageSize
  let d := m.arg % 2
  let covered (h : Nat × Nat × Nat × Nat) : Bool := decide (h.1 = d) && decide (lo ≤ h.2.1) && decide (h.2.1 + h.2.2.1 ≤ hi)
  let done := s.hec.shears.filter covered
  let s := { s with hec := { s.hec with shears := s.hec.shears.filter (fun h => !covered h) } }
  forEach done (fun h s => shearAcked h.2.2.2 d s) s

def execShearAck (slot q : Nat) (s : State) : Host.Outcome State Fault Refusal :=
  .next (execute 0x0D slot q (takeShearAck slot q) s)

/-- SHEAR data of a sink that is no longer the sink fails its destination (R370). -/
def failShears (s : State) : State :=
  forEach [0, 1] (fun d s => if s.hec.shears.any (fun h => decide (h.1 = d)) then failDestination d s else s) s

/-- Events that wait in the outbox of a session go to the next sink. -/
def takeBackEvents (slot : Nat) (s : State) : State :=
  match s.session slot with
  | none => s
  | some x =>
    let isEvent (p : List Byte × Option Rider) : Bool := !(eventsOf [p.2]).isEmpty
    unsendEvents (eventsOf (x.outbox.map (·.2))) (s.setSession slot (some { x with outbox := x.outbox.filter (fun p => !isEvent p) }))

/-- EVENT_SINK: the session becomes the event sink; the events not yet sent follow, those that still waited for room in the old
sink's session among them (R373). -/
def becomeSink (slot q : Nat) (_x : Session) (m : Message) (s : State) : State :=
  let s := match s.sink with
    | some old => if old = slot then s else takeBackEvents old (failShears s)
    | none => s
  let s := (s.setField .hecSessStatus 0 0 16 4 slot).setBit .hecSessStatus 0 20
  pumpEvents (answerNow slot q 0 0 m s)

def execEventSink (slot q : Nat) (s : State) : Host.Outcome State Fault Refusal := .next (execute 0x0E slot q (becomeSink slot q) s)

end Sys2Proof.Machine
end

