-- ==== Sys2Proof/Machine/Clock.lean ====
section
/-! DEFINITION. What one tick of the 1.25 GHz arithmetic clock does by itself (log entry 3). -/

namespace Sys2Proof.Machine

/-- The cycle counter of a core that is not held counts two cycles of the 2.5 GHz core clock in a tick (R280). -/
def tickCore (x : Core) : Core :=
  if x.held || bitOf x.csr.mcountinhibit 0 then x
  else { x with csr := { x.csr with mcycle := (x.csr.mcycle + 2) % 2 ^ 64 } }

/-- What the agents do by the clock alone: the tiles released to start do so (R68), and core cycles count. -/
def tickAgents (s : State) : State :=
  let s := if s.akm.frozen then s else startTiles s
  { s with cores := s.cores.map (fun e => (e.1, tickCore e.2)) }

/-- What the node's outsides do by the clock alone: frames of the Holtim ports (R250), one received datagram of each Ethernet link
(R359), events to the sink (R373), and a RESET at its latest (R371). -/
def tickPorts (s : State) : State := crookResetLate (pumpEvents (forEach (List.range 4) takeBuffered (portFrames s)))

/-- What the checkpoint engine had to wait with goes on as soon as it may (R214, R218): chunks to children, the judgement of a whole
image, and the page of a restore. -/
def tickCkp (s : State) : State :=
  let s := useWhole (if s.ckp.relays.isEmpty then s else relayChunks [] s)
  if imageWhole s then completeImage s else s

/-- A tick: the units due are penned (R417), solves are compared with their deadlines for the tick that ends (R325), the timebase
moves on, P0 forms the node's ID (R379), P5 ends at its limit (R381), agents, held ageing records and ports take their turn, and the
APLIC's wires settle. In the reset hold and in an OFF node only the hold's own time passes (R383). -/
def idleTick (s : State) : State :=
  if s.brc.off || s.brc.hold.isSome then { s with now := s.now + 1 } else
  let s := applyPens s
  let s := tickAgents (tickP5 (tickP0 (tickTime (if s.akm.frozen then s else noteLates s))))
  let s := if s.akm.frozen then s else tickCkp s
  State.settleWires (tickPorts (if akmWorks s then flushAgeing s else s))

end Sys2Proof.Machine
end

