-- ==== Sys2Proof/Machine/CoreCsr.lean ====
section
/-! DEFINITION. A processor core's registers, CSRs, traps and interrupts (R280, R291 to R301; RISC-V privileged and AIA
registers as log entries 12 and 14 say). -/

namespace Sys2Proof.Machine

/-! ### Registers (R295, R298, R299) -/

/-- 1,024 ones. -/
def ones1024 : Nat := 2 ^ 1024 - 1

def Core.getX (x : Core) (r : Nat) : Word := if r = 0 then 0 else Table.get 0 x.x r
def Core.setX (x : Core) (r : Nat) (v : Word) : Core := if r = 0 then x else { x with x := Table.set 0 x.x r v }

def Core.getV (x : Core) (r : Nat) : Nat := Table.get 0 x.v r
def Core.setV (x : Core) (r v : Nat) : Core := { x with v := Table.set 0 x.v r (v % 2 ^ 1024) }

/-- p0 reads all ones. -/
def Core.getP (x : Core) (r : Nat) : Nat := if r = 0 then ones1024 else Table.get 0 x.p r
def Core.setP (x : Core) (r v : Nat) : Core := if r = 0 then x else { x with p := Table.set 0 x.p r (v % 2 ^ 1024) }

/-- A field of mstatus. -/
def Core.ms (x : Core) (lo n : Nat) : Nat := bitsOf x.csr.mstatus lo n
def Core.setMs (x : Core) (lo n v : Nat) : Core :=
  { x with csr := { x.csr with mstatus := putBits x.csr.mstatus lo n v } }

/-- mstatus.FS: 0 off, 3 dirty. -/
def Core.fs (x : Core) : Nat := x.ms 13 2
def Core.dirtyFs (x : Core) : Core := x.setMs 13 2 3

/-- f registers are the low 64 bits of v registers; a write zeroes the rest (R298). -/
def Core.getF (x : Core) (r : Nat) : Nat := x.getV r % 2 ^ 64
def Core.setF (x : Core) (r v : Nat) : Core := (x.setV r (v % 2 ^ 64)).dirtyFs

/-- An FP32 value NaN-boxed. -/
def box32 (v : Nat) : Nat := v % 2 ^ 32 + 0xFFFFFFFF * 2 ^ 32
def Core.setF32 (x : Core) (r v : Nat) : Core := x.setF r (box32 v)

/-- An FP32 operand: the canonical NaN where it is not correctly boxed. -/
def Core.getF32 (x : Core) (r : Nat) : Nat :=
  if x.getF r / 2 ^ 32 = 0xFFFFFFFF then x.getF r % 2 ^ 32 else 0x7FC00000

/-- Bits into fflags: NV 16, DZ 8, OF 4, UF 2, NX 1. -/
def Core.accrue (x : Core) (flags : Nat) : Core :=
  if flags = 0 then x else { x with csr := { x.csr with fcsr := x.csr.fcsr ||| flags } }.dirtyFs

/-! ### Traps -/

/-- Exception codes. -/
def causeFetchAccess : Nat := 1
def causeIllegal : Nat := 2
def causeBreakpoint : Nat := 3
def causeLoadMisaligned : Nat := 4
def causeLoadAccess : Nat := 5
def causeStoreMisaligned : Nat := 6
def causeStoreAccess : Nat := 7
def causeFetchPage : Nat := 12
def causeLoadPage : Nat := 13
def causeStorePage : Nat := 15
def causeLOAD_ERROR : Nat := 24
def causePOSTED_ERROR : Nat := 25
def causeSYNC_ERROR : Nat := 26

/-- The target of a trap: the base, or a vectored interrupt's place. -/
def trapTarget (tvec : Nat) (interrupt : Bool) (cause : Nat) : Word :=
  let base := tvec / 4 * 4
  BitVec.ofNat 64 (if interrupt ∧ tvec % 2 = 1 then base + 4 * cause else base)

/-- A trap at the current pc: to S mode where it is delegated and the core is not in M mode, else to M mode. -/
def Core.enter (x : Core) (interrupt : Bool) (cause tval : Nat) : Core :=
  let deleg := bitOf (if interrupt then x.csr.mideleg else x.csr.medeleg) cause
  let code := cause + (if interrupt then 2 ^ 63 else 0)
  if x.priv ≠ 3 ∧ deleg then
    let y := ((x.setMs 8 1 x.priv).setMs 5 1 (x.ms 1 1)).setMs 1 1 0
    { y with
      priv := 1, wfi := false, pc := trapTarget x.csr.stvec interrupt cause,
      csr := { y.csr with sepc := x.pc.toNat, scause := code, stval := tval } }
  else
    let y := ((x.setMs 11 2 x.priv).setMs 7 1 (x.ms 3 1)).setMs 3 1 0
    { y with
      priv := 3, wfi := false, pc := trapTarget x.csr.mtvec interrupt cause,
      csr := { y.csr with mepc := x.pc.toNat, mcause := code, mtval := tval } }

/-- An exception of a core. -/
def takeException (c cause tval : Nat) (s : State) : State := s.modCore c (fun x => x.enter false cause tval)

/-- An illegal instruction of `bits`. -/
def takeIllegal (c bits : Nat) (s : State) : State :=
  takeException c causeIllegal (if Config.tvalHoldsInstr then bits else 0) s

/-- LOAD_ERROR: mlerr takes the code, and the trap comes after the load, which has completed (R292 to R294). -/
def takeLoadError (c tval code : Nat) (s : State) : State :=
  let s := s.modCore c (fun x => { x with csr := { x.csr with
    mlerr := code % 2 ^ 8 + Nat.min 0xFFFF (bitsOf x.csr.mlerr 48 16 + 1) * 2 ^ 48 } })
  takeException c causeLOAD_ERROR tval s

/-- MRET and SRET. -/
def Core.mret (x : Core) : Core :=
  let p := x.ms 11 2
  let y := ((x.setMs 3 1 (x.ms 7 1)).setMs 7 1 1).setMs 11 2 0
  let y := if p = 3 then y else y.setMs 17 1 0
  { y with priv := p, pc := BitVec.ofNat 64 x.csr.mepc }

def Core.sret (x : Core) : Core :=
  let p := x.ms 8 1
  let y := (((x.setMs 1 1 (x.ms 5 1)).setMs 5 1 1).setMs 8 1 0).setMs 17 1 0
  { y with priv := p, pc := BitVec.ofNat 64 x.csr.sepc }

/-! ### Interrupts (R291, R296, R297) -/

/-- The lowest pending and enabled identity of a file, below its threshold where that is not zero; 0 where none is. -/
def Imsic.top (f : Imsic) : Nat :=
  ((List.range 256).find? (fun i =>
    decide (i ≠ 0) && bitOf f.pend i && bitOf f.enab i && (decide (f.thresh = 0) || decide (i < f.thresh)))).getD 0

def Imsic.signals (f : Imsic) : Bool := decide (f.delivery = 1) && decide (f.top ≠ 0)

/-- mip: the software bits, MTIP while mtime is at least mtimecmp, MEIP and SEIP from the interrupt files. -/
def State.mip (s : State) (c : Nat) : Nat :=
  let x := s.core c
  let timer := decide ((s.getReg (regAddr .prcMtimecmp c)).toNat ≤ s.time)
  (x.csr.mip &&& 0x222) ||| (if timer then 0x80 else 0) ||| (if x.imsicM.signals then 0x800 else 0)
    ||| (if x.imsicS.signals then 0x200 else 0)

/-- Major interrupts from the highest priority down. -/
def interruptOrder : List Nat := [11, 3, 7, 9, 1, 5]

/-- The interrupt a core takes now, if any. -/
def State.takable (s : State) (c : Nat) : Option Nat :=
  let x := s.core c
  let on := s.mip c &&& x.csr.mie
  let toM := interruptOrder.find? (fun k => bitOf on k && !bitOf x.csr.mideleg k && (decide (x.priv ≠ 3) || decide (x.ms 3 1 = 1)))
  match toM with
  | some k => some k
  | none => interruptOrder.find? (fun k => bitOf on k && bitOf x.csr.mideleg k
      && (decide (x.priv = 0) || (decide (x.priv = 1) && decide (x.ms 1 1 = 1))))

/-- mtopi and stopi: the major interrupt pending and enabled at the level, with priority 1; 0 where none is. -/
def State.topi (s : State) (c : Nat) (sup : Bool) : Nat :=
  let x := s.core c
  let on := s.mip c &&& x.csr.mie
  match interruptOrder.find? (fun k => bitOf on k && (bitOf x.csr.mideleg k == sup)) with
  | some k => k * 2 ^ 16 + 1
  | none => 0

/-! ### CSRs -/

/-- Indirect registers of an interrupt file (AIA): priorities read zero; eidelivery, eithreshold, eip and eie, the even
ones of 64 bits each. -/
def Imsic.indirect (f : Imsic) (sel : Nat) : Option Nat :=
  if 0x30 ≤ sel ∧ sel < 0x40 ∧ sel % 2 = 0 then some 0
  else if sel = 0x70 then some f.delivery
  else if sel = 0x72 then some f.thresh
  else if 0x80 ≤ sel ∧ sel < 0xC0 ∧ sel % 2 = 0 then some (bitsOf f.pend (32 * (sel - 0x80)) 64)
  else if 0xC0 ≤ sel ∧ sel < 0x100 ∧ sel % 2 = 0 then some (bitsOf f.enab (32 * (sel - 0xC0)) 64)
  else none

/-- The identities of a file: 1 to 255. -/
def allIds : Nat := 2 ^ 256 - 2

def Imsic.setIndirect (f : Imsic) (sel v : Nat) : Imsic :=
  if sel = 0x70 then { f with delivery := v % 2 }
  else if sel = 0x72 then { f with thresh := v % 256 }
  else if 0x80 ≤ sel ∧ sel < 0x88 then { f with pend := putBits f.pend (32 * (sel - 0x80)) 64 v &&& allIds }
  else if 0xC0 ≤ sel ∧ sel < 0xC8 then { f with enab := putBits f.enab (32 * (sel - 0xC0)) 64 v &&& allIds }
  else f

/-- mtopei and stopei: identity and priority, which are the same number. -/
def Imsic.topei (f : Imsic) : Nat := f.top * 2 ^ 16 + f.top

/-- A write of mtopei or stopei claims the identity it reports. -/
def Imsic.claim (f : Imsic) : Imsic := { f with pend := f.pend ^^^ (f.pend &&& (if f.top = 0 then 0 else 2 ^ f.top)) }

/-- The bits of mstatus that sstatus shows, and those that M mode writes. -/
def sstatusMask : Nat := 0x3000C6122
def mstatusMask : Nat := 0x7E79AA

/-- Whether a counter may be read in the current mode. -/
def Core.counterOn (x : Core) (k : Nat) : Bool :=
  decide (x.priv = 3) || (bitOf x.csr.mcounteren k && (decide (x.priv = 1) || bitOf x.csr.scounteren k))

/-- A status register's word with SD. -/
def Core.withSd (x : Core) (v : Nat) : Nat := if x.fs = 3 then v + 2 ^ 63 else v

/-- How pmpaddr reads under the 4 KiB granularity. -/
def Core.pmpaddr (x : Core) (i : Nat) : Nat :=
  let a := Table.get 0 x.csr.pmpaddr i
  if 2 ≤ bitsOf (Table.get 0 x.csr.pmpcfg i) 3 2 then a ||| 0x1FF else a / 0x400 * 0x400

/-- Eight pmpcfg bytes from entry `i`. -/
def Core.pmpcfg (x : Core) (i : Nat) : Nat :=
  (List.range 8).foldl (fun v k => v + Table.get 0 x.csr.pmpcfg (i + k) * 2 ^ (8 * k)) 0

/-- What a CSR reads; none where it does not exist or the mode may not read it. -/
def csrRead (s : State) (c a : Nat) : Option Nat :=
  let x := s.core c
  let k := x.csr
  if x.priv < bitsOf a 8 2 then none
  else if 0xB03 ≤ a ∧ a < 0xB20 then some 0
  else if 0x323 ≤ a ∧ a < 0x340 then some 0
  else if 0xC03 ≤ a ∧ a < 0xC20 then (if x.counterOn (a - 0xC00) then some 0 else none)
  else if 0x3B0 ≤ a ∧ a < 0x3C0 then some (x.pmpaddr (a - 0x3B0))
  else match a with
  | 0x001 => if x.fs = 0 then none else some (k.fcsr % 32)
  | 0x002 => if x.fs = 0 then none else some (bitsOf k.fcsr 5 3)
  | 0x003 => if x.fs = 0 then none else some (k.fcsr % 256)
  | 0x800 => if x.fs = 0 then none else some x.lvstart
  | 0xCC0 => if x.fs = 0 then none else some x.vl
  | 0xCC1 => if x.fs = 0 then none else some (x.sew + 4 * x.group)
  | 0xC00 => if x.counterOn 0 then some k.mcycle else none
  | 0xC01 => if x.counterOn 1 then some s.time else none
  | 0xC02 => if x.counterOn 2 then some k.minstret else none
  | 0x100 => some (x.withSd (k.mstatus &&& sstatusMask))
  | 0x104 => some (k.mie &&& k.mideleg)
  | 0x105 => some k.stvec
  | 0x106 => some k.scounteren
  | 0x10A => some k.senvcfg
  | 0x140 => some k.sscratch
  | 0x141 => some k.sepc
  | 0x142 => some k.scause
  | 0x143 => some k.stval
  | 0x144 => some (s.mip c &&& k.mideleg)
  | 0x150 => some k.siselect
  | 0x151 => x.imsicS.indirect k.siselect
  | 0x15C => some x.imsicS.topei
  | 0xDB0 => some (s.topi c true)
  | 0x180 => if x.priv = 1 ∧ x.ms 20 1 = 1 then none else some k.satp
  | 0xF11 => some 0
  | 0xF12 => some 0x0D01
  | 0xF13 => some 0xA1
  | 0xF14 => some c
  | 0xF15 => some 0
  | 0x300 => some (x.withSd k.mstatus)
  | 0x301 => some 0x800000000094112C
  | 0x302 => some k.medeleg
  | 0x303 => some k.mideleg
  | 0x304 => some k.mie
  | 0x305 => some k.mtvec
  | 0x306 => some k.mcounteren
  | 0x308 => some 0
  | 0x309 => some 0
  | 0x30A => some k.menvcfg
  | 0x320 => some k.mcountinhibit
  | 0x340 => some k.mscratch
  | 0x341 => some k.mepc
  | 0x342 => some k.mcause
  | 0x343 => some k.mtval
  | 0x344 => some (s.mip c)
  | 0x350 => some k.miselect
  | 0x351 => x.imsicM.indirect k.miselect
  | 0x35C => some x.imsicM.topei
  | 0xFB0 => some (s.topi c false)
  | 0x3A0 => some (x.pmpcfg 0)
  | 0x3A2 => some (x.pmpcfg 8)
  | 0xB00 => some k.mcycle
  | 0xB02 => some k.minstret
  | 0x7C0 => some k.mlerr
  | _ => none

/-- Bits of a mask replaced. -/
def replaceBits (old mask new : Nat) : Nat := (old ^^^ (old &&& mask)) ||| (new &&& mask)

/-- mstatus written through a mask; MPP keeps its value where 2 is written. -/
def Core.writeStatus (x : Core) (mask v : Nat) : Core :=
  let n := replaceBits x.csr.mstatus mask v
  let n := if bitsOf n 11 2 = 2 then putBits n 11 2 (x.ms 11 2) else n
  { x with csr := { x.csr with mstatus := n } }

/-- One pmpcfg byte written: a locked entry keeps its value; write without read and a four-byte region are not taken. -/
def Core.writePmpcfg (x : Core) (i v : Nat) : Core :=
  let old := Table.get 0 x.csr.pmpcfg i
  if bitOf old 7 then x
  else
    let v := v &&& 0x9F
    let v := if bitsOf v 0 2 = 2 then putBits v 0 2 0 else v
    let v := if bitsOf v 3 2 = 2 then putBits v 3 2 (bitsOf old 3 2) else v
    { x with csr := { x.csr with pmpcfg := Table.set 0 x.csr.pmpcfg i v } }

/-- pmpaddr written, unless its entry, or a top-of-range entry above it, is locked. -/
def Core.writePmpaddr (x : Core) (i v : Nat) : Core :=
  let next := Table.get 0 x.csr.pmpcfg (i + 1)
  if bitOf (Table.get 0 x.csr.pmpcfg i) 7 ∨ (i < 15 ∧ bitOf next 7 ∧ bitsOf next 3 2 = 1) then x
  else { x with csr := { x.csr with pmpaddr := Table.set 0 x.csr.pmpaddr i (v % 2 ^ 54) } }

/-- The exceptions that medeleg may delegate, and the interrupts of mideleg (R292). -/
def medelegMask : Nat := 0x700B3FF
def midelegMask : Nat := 0x222

/-- A write of a CSR that exists and may be written. -/
def Core.csrWrite (x : Core) (a v : Nat) : Core :=
  let k := x.csr
  let put (k : Csrs) : Core := { x with csr := k }
  if 0x3B0 ≤ a ∧ a < 0x3C0 then x.writePmpaddr (a - 0x3B0) v
  else match a with
  | 0x001 => (put { k with fcsr := putBits k.fcsr 0 5 v }).dirtyFs
  | 0x002 => (put { k with fcsr := putBits k.fcsr 5 3 v }).dirtyFs
  | 0x003 => (put { k with fcsr := v % 256 }).dirtyFs
  | 0x800 => { x with lvstart := v % 2 ^ 11 }.dirtyFs
  | 0x100 => x.writeStatus (sstatusMask &&& mstatusMask) v
  | 0x104 => put { k with mie := replaceBits k.mie k.mideleg v }
  | 0x105 => put { k with stvec := v ^^^ (v &&& 2) }
  | 0x106 => put { k with scounteren := v % 8 }
  | 0x10A => put { k with senvcfg := v % 2 }
  | 0x140 => put { k with sscratch := v }
  | 0x141 => put { k with sepc := v / 2 * 2 }
  | 0x142 => put { k with scause := v }
  | 0x143 => put { k with stval := v }
  | 0x144 => put { k with mip := replaceBits k.mip (k.mideleg &&& 2) v }
  | 0x150 => put { k with siselect := v % 4096 }
  | 0x151 => { x with imsicS := x.imsicS.setIndirect k.siselect v }
  | 0x15C => { x with imsicS := x.imsicS.claim }
  | 0x180 => if bitsOf v 60 4 = 0 ∨ bitsOf v 60 4 = 9 then put { k with satp := v } else x
  | 0x300 => x.writeStatus mstatusMask v
  | 0x302 => put { k with medeleg := v &&& medelegMask }
  | 0x303 => put { k with mideleg := v &&& midelegMask }
  | 0x304 => put { k with mie := v &&& 0xAAA }
  | 0x305 => put { k with mtvec := v ^^^ (v &&& 2) }
  | 0x306 => put { k with mcounteren := v % 8 }
  | 0x30A => put { k with menvcfg := v % 2 }
  | 0x320 => put { k with mcountinhibit := v &&& 5 }
  | 0x340 => put { k with mscratch := v }
  | 0x341 => put { k with mepc := v / 2 * 2 }
  | 0x342 => put { k with mcause := v }
  | 0x343 => put { k with mtval := v }
  | 0x344 => put { k with mip := v &&& 0x222 }
  | 0x350 => put { k with miselect := v % 4096 }
  | 0x351 => { x with imsicM := x.imsicM.setIndirect k.miselect v }
  | 0x35C => { x with imsicM := x.imsicM.claim }
  | 0x3A0 => (List.range 8).foldl (fun x i => x.writePmpcfg i (bitsOf v (8 * i) 8)) x
  | 0x3A2 => (List.range 8).foldl (fun x i => x.writePmpcfg (8 + i) (bitsOf v (8 * i) 8)) x
  | 0xB00 => put { k with mcycle := v }
  | 0xB02 => put { k with minstret := v }
  | 0x7C0 => put { k with mlerr := v &&& 0x1FF }
  | _ => x

end Sys2Proof.Machine
end

