-- ==== Sys2Proof/Machine/CoreFloat.lean ====
section
/-! DEFINITION. The arithmetic of a core's F, D and LVX floating-point operations (R280, R305, R42, R43): results and fflags. -/

namespace Sys2Proof.Machine

/-- fflags bits. -/
def fNV : Nat := 16
def fDZ : Nat := 8
def fOF : Nat := 4
def fUF : Nat := 2
def fNX : Nat := 1

/-- The format of a width code: false FP32, true FP64. -/
def coreFmt (dbl : Bool) : Fmt := if dbl then fmtFp64 else fmtFp32

/-- A rounding mode by its code; none for codes 5 and 6, and for 7 outside an instruction. -/
def coreRm (code : Nat) : Option Rm :=
  match code with
  | 0 => some .rne
  | 1 => some .rtz
  | 2 => some .rdn
  | 3 => some .rup
  | 4 => some .rmm
  | _ => none

/-- The rounding mode of an instruction's rm field: 7 takes frm. -/
def Core.rm (x : Core) (field : Nat) : Option Rm := coreRm (if field = 7 then bitsOf x.csr.fcsr 5 3 else field)

/-- Whether a magnitude, rounded to the format's precision with no bound on its exponent, is below the smallest normal
value: tiny after rounding. -/
def tinyAfter (f : Fmt) (rm : Rm) (neg : Bool) (m : Nat) (e : Int) (tail : Bool) : Bool :=
  let q : Int := (Nat.log2 m : Int) + e - f.mbits
  let k := (roundAt rm neg m e q tail).1
  !leScaled 1 f.emin k q

/-- An exact value rounded into a format with the fflags of IEEE 754. -/
def coreRound (f : Fmt) (rm : Rm) (x : Exact) : Nat × Nat :=
  let r := roundFloat f rm x
  match x with
  | .fin neg m e tail =>
    let uf := r.2.inexact && !r.2.overflow && decide (m ≠ 0) && tinyAfter f rm neg m e tail
    (r.1, (if r.2.overflow then fOF else 0) + (if uf then fUF else 0) + (if r.2.inexact then fNX else 0))
  | _ => (r.1, 0)

/-- A NaN pattern with its quiet bit clear. -/
def signalling (f : Fmt) (v : Nat) : Bool := (decodeFloat f v).isNan && !bitOf v (f.mbits - 1)

/-- NV where an operand is a signalling NaN. -/
def snanFlag (f : Fmt) (l : List Nat) : Nat := if l.any (signalling f) then fNV else 0

/-- The invalid and divide-by-zero flags of an exact operation, as fflags. -/
def exactFlags (fl : Flags) : Nat := (if fl.invalid then fNV else 0) + (if fl.divZero then fDZ else 0)

def finishOp (f : Fmt) (rm : Rm) (l : List Nat) (r : Exact × Flags) : Nat × Nat :=
  let o := coreRound f rm r.1
  (o.1, o.2 ||| exactFlags r.2 ||| snanFlag f l)

def coreAdd (f : Fmt) (rm : Rm) (a b : Nat) : Nat × Nat := finishOp f rm [a, b] (addIeee rm (decodeFloat f a) (decodeFloat f b))
def coreSub (f : Fmt) (rm : Rm) (a b : Nat) : Nat × Nat :=
  finishOp f rm [a, b] (addIeee rm (decodeFloat f a) (decodeFloat f b).negate)
def coreMul (f : Fmt) (rm : Rm) (a b : Nat) : Nat × Nat := finishOp f rm [a, b] (mulExact (decodeFloat f a) (decodeFloat f b))
def coreDiv (f : Fmt) (rm : Rm) (a b : Nat) : Nat × Nat := finishOp f rm [a, b] (divExact (decodeFloat f a) (decodeFloat f b))
def coreSqrt (f : Fmt) (rm : Rm) (a : Nat) : Nat × Nat := finishOp f rm [a] (sqrtExact (decodeFloat f a))

/-- ±(a × b) ± c with one rounding. -/
def coreFma (f : Fmt) (rm : Rm) (negProd negAdd : Bool) (a b c : Nat) : Nat × Nat :=
  let p := mulExact (decodeFloat f a) (decodeFloat f b)
  let p1 := if negProd then p.1.negate else p.1
  let z := decodeFloat f c
  let r := addIeee rm p1 (if negAdd then z.negate else z)
  finishOp f rm [a, b, c] (r.1, p.2.or r.2)

/-- FMIN and FMAX: a number beats a NaN, −0 is below +0. -/
def coreMinMax (f : Fmt) (max : Bool) (a b : Nat) : Nat × Nat :=
  let x := decodeFloat f a
  let y := decodeFloat f b
  let v :=
    if x.isNan ∧ y.isNan then f.canonNan
    else if x.isNan then b
    else if y.isNan then a
    else if ltOrdered x y then (if max then b else a) else (if max then a else b)
  (v, snanFlag f [a, b])

/-- FEQ (quiet), FLT and FLE (signalling): 0 equal, 1 less, 2 less or equal. -/
def coreCmp (f : Fmt) (op a b : Nat) : Bool × Nat :=
  let x := decodeFloat f a
  let y := decodeFloat f b
  let nan := x.isNan || y.isNan
  match op with
  | 0 => (eqExact x y, snanFlag f [a, b])
  | 1 => (ltExact x y, if nan then fNV else 0)
  | _ => (!nan && !ltExact y x, if nan then fNV else 0)

/-- An FP value to an integer of `w` bits: saturating, NaN to the largest; NV out of range. The result is the bits. -/
def coreToInt (f : Fmt) (rm : Rm) (w : Nat) (sgn : Bool) (a : Nat) : Nat × Nat :=
  let lo : Int := if sgn then -(2 ^ (w - 1) : Nat) else 0
  let hi : Int := if sgn then (2 ^ (w - 1) : Nat) - 1 else (2 ^ w : Nat) - 1
  match decodeFloat f a with
  | .nan => (wrapNat w hi, fNV)
  | .inf neg => (wrapNat w (if neg then lo else hi), fNV)
  | .fin neg m e tail =>
    let r := roundAt rm neg m e 0 tail
    let v : Int := if neg then -(r.1 : Int) else r.1
    if v < lo then (wrapNat w lo, fNV) else if hi < v then (wrapNat w hi, fNV) else (wrapNat w v, if r.2 then fNX else 0)

/-- An integer to an FP value. -/
def coreOfInt (f : Fmt) (rm : Rm) (v : Int) : Nat × Nat := coreRound f rm (exactOfInt v 0)

/-- FCVT.S.D and FCVT.D.S. -/
def coreConvert (to_ from_ : Fmt) (rm : Rm) (a : Nat) : Nat × Nat :=
  let o := coreRound to_ rm (decodeFloat from_ a)
  (o.1, o.2 ||| snanFlag from_ [a])

/-- FCLASS. -/
def coreClass (f : Fmt) (a : Nat) : Nat :=
  let neg := bitOf a (f.width - 1)
  match decodeFloat f a with
  | .nan => if signalling f a then 2 ^ 8 else 2 ^ 9
  | .inf n => if n then 2 ^ 0 else 2 ^ 7
  | .fin _ m _ _ =>
    if m = 0 then (if neg then 2 ^ 3 else 2 ^ 4)
    else if m < 2 ^ f.mbits then (if neg then 2 ^ 2 else 2 ^ 5)
    else if neg then 2 ^ 1 else 2 ^ 6

end Sys2Proof.Machine
end

