-- ==== Sys2Proof/Machine/CoreMem.lean ====
section
/-! DEFINITION. How a processor core reaches memory (R280 to R288, R292 to R294): physical memory protection, Sv48
translation, attributes, caches, instruction fetch, loads and stores. -/

namespace Sys2Proof.Machine

/-- What an access is for. -/
inductive AccessKind where
  | fetch | load | store
  deriving DecidableEq, Repr

def AccessKind.accessFault : AccessKind → Nat
  | .fetch => causeFetchAccess
  | .load => causeLoadAccess
  | .store => causeStoreAccess

def AccessKind.pageFault : AccessKind → Nat
  | .fetch => causeFetchPage
  | .load => causeLoadPage
  | .store => causeStorePage

/-! ### Physical memory protection (R280) -/

/-- Whether entry `i` matches a physical address, in units of 4 KiB. -/
def Core.pmpMatches (x : Core) (i pa : Nat) : Bool :=
  let cfg := Table.get 0 x.csr.pmpcfg i
  let a := Table.get 0 x.csr.pmpaddr i
  match bitsOf cfg 3 2 with
  | 1 =>
    let low := if i = 0 then 0 else Table.get 0 x.csr.pmpaddr (i - 1) / 2 ^ 10
    decide (low ≤ pa / 2 ^ 12) && decide (pa / 2 ^ 12 < a / 2 ^ 10)
  | 3 =>
    let b := a ||| 0x1FF
    let mask := b ^^^ (b + 1)
    decide ((pa / 4) ||| mask = b ||| mask)
  | _ => false

/-- Whether the first entry that matches lets a mode make an access; with none, only M mode may. -/
def Core.pmpAllows (x : Core) (priv : Nat) (kind : AccessKind) (pa : Nat) : Bool :=
  match (List.range 16).find? (fun i => x.pmpMatches i pa) with
  | none => decide (priv = 3)
  | some i =>
    let cfg := Table.get 0 x.csr.pmpcfg i
    if priv = 3 ∧ bitOf cfg 7 = false then true
    else match kind with
      | .load => bitOf cfg 0
      | .store => bitOf cfg 1
      | .fetch => bitOf cfg 2

/-! ### Attributes (R282, R283) -/

/-- The attribute of a physical address; `fault` for the addresses that R282 names. -/
inductive Attr where
  | none | uncached | shared | private_ | io
  | aperture (a : Nat)
  | fault
  deriving DecidableEq, Repr

def apertureBase : Nat := 2 ^ 55

def State.attrOf (s : State) (pa : Nat) : Attr :=
  if pa < 2 ^ 48 then
    match placeOf pa with
    | .register => .io
    | .stacked =>
      match s.pmaOf (pa / 2 ^ 30) with
      | 0 => .none
      | 1 => .uncached
      | 2 => .shared
      | _ => .private_
    | _ => .uncached
  else if apertureBase ≤ pa ∧ pa < apertureBase + 2 ^ 44 then
    let a := (pa - apertureBase) / 2 ^ 40
    if s.bit .prcAper a 24 then .aperture a else .fault
  else .fault

/-- Whether an attribute is cached. -/
def Attr.cached : Attr → Bool
  | .shared => true
  | .private_ => true
  | _ => false

/-- Whether an access faults by attribute: NONE, addresses of R282, register space from U mode, a fetch from IO or an
aperture. -/
def Attr.faults (t : Attr) (priv : Nat) (kind : AccessKind) : Bool :=
  match t with
  | .none => true
  | .fault => true
  | .io => decide (priv = 0) || decide (kind = .fetch)
  | .aperture _ => decide (kind = .fetch)
  | _ => false

/-! ### Sectors and lines (R284) -/

/-- The global address that an aperture access goes to (R282). -/
def State.apertureFar (s : State) (a pa : Nat) : Nat :=
  s.field .prcAper a 0 0 16 * 2 ^ 48 + s.field .prcAper a 0 16 8 * 2 ^ 40 + pa % 2 ^ 40

/-- The ERR code that the route decoder gives a request of a core to the sector of an LPA (R11, R12); 0 where it lets it pass. -/
def State.routeCode (s : State) (op pa : Nat) : Nat :=
  match decodeLocal s { opcode := op, cls := clsREQ, nsect := 1, offset := pa / 32 * 32, jid := s.jid } with
  | .answer c => c
  | _ => 0

/-- The ERR code that a local read of the sector of an LPA gets (R11 to R13, R208, R339, R410); 0 for none. -/
def State.readCode (s : State) (pa : Nat) : Nat :=
  let sec := pa / 32 * 32
  let route := s.routeCode opRD pa
  if route ≠ 0 then route
  else match placeOf sec with
    | .sram t _ => if s.tileOn t then sramCode s sec 1 else errPENNED
    | .engineMem _ _ => sramCode s sec 1
    | .commons => sramCode s sec 1
    | _ => if s.jid ≠ 0 ∧ s.inReserve sec then errJOB_DENIED else pieceCode s sec 1

/-- The ERR code that a local write of `n` bytes gets; a write of part of a sector needs the sector's contents. -/
def State.writeCode (s : State) (pa n : Nat) : Nat :=
  let sec := pa / 32 * 32
  let route := s.routeCode opWR pa
  if route ≠ 0 then route
  else match placeOf sec with
    | .sram t off =>
      if s.tileOn t = false then errPENNED
      else if (s.tile t).state ≠ .idle ∧ inProgram s t (off / 32) then errPROG_LOCKED
      else 0
    | .engineMem e _ => if s.enginePenned e then errPENNED else 0
    | .commons => if n < 32 ∧ (s.poisoned sec ∨ 2 ≤ s.wrongAt sec) then errMEM_UE else 0
    | _ =>
      let code := s.sectorDenied sec
      if code ≠ 0 then code else if n < 32 ∧ (s.poisoned sec ∨ 2 ≤ s.wrongAt sec) then errMEM_UE else 0

/-- What a demand read of `n` sectors of this node's memory leaves behind (R210, R211, R410). -/
def State.afterRead (s : State) (pa n : Nat) : State :=
  if pa < 0x8000000000 then scanPiece (pa / 32 * 32) n s else sramMet (pa / 32 * 32) n ((s.epOf pa).getD 0) s

/-- The cached line an address lies in. -/
def State.lineAt (s : State) (pa : Nat) : Option Line := Table.get none s.lines (pa / 64)

/-- A line with a double-bit error that a core's access comes to is met (R410). -/
def State.meetBad (s : State) (pa : Nat) : State :=
  match s.lineAt pa with
  | some l => if l.bad then meetBadLine (pa / 64) l s else s
  | none => s

/-- Whether a byte of a sector of a line that no core wrote no longer agrees with memory, though no write of the cores' own to the
sector waits at its port: what a core reads of it is free (R284). -/
def State.staleSector (s : State) (pa i : Nat) : Bool :=
  let a := pa / 64 * 64 + 32 * i
  match s.lineAt pa with
  | some l => decide (slice l.data (32 * i) 32 ≠ s.mergedSector a (slice l.data (32 * i) 32) (l.wrote i))
      && !sectorBusy s ((s.epOf a).getD 0) a 1 true
  | none => false

def State.stale (s : State) (pa : Nat) : Bool := s.staleSector pa 0 || s.staleSector pa 1

/-- The 64 bytes of the line of an address as a core sees them: of each sector that is stale, the cached copy or the memory
contents with the bytes that cores wrote. -/
def State.lineView (s : State) (pa : Nat) : List Byte :=
  match s.lineAt pa with
  | some l => [0, 1].flatMap (fun i =>
      if s.staleSector pa i && bitOf (Config.freeNat s.freeCtr) i then
        s.mergedSector (pa / 64 * 64 + 32 * i) (slice l.data (32 * i) 32) (l.wrote i)
      else slice l.data (32 * i) 32)
  | none => s.readMem (pa / 64 * 64) 64

/-- Whether a line must wait to be filled, and whether a load from an address must wait, for what is before it at the port
(R206, R214, R217, R445). -/
def State.fillWaits (s : State) (pa : Nat) : Bool := (s.lineAt pa).isNone && s.portWaits (pa / 64 * 64) 2 false

def State.loadWaits (s : State) (pa : Nat) : Bool :=
  match s.attrOf pa with
  | .io => false
  | .aperture _ => false
  | t => if t.cached then s.fillWaits pa else s.portWaits (pa / 32 * 32) 1 false

/-- Whether a store to an address must wait: for a line to be filled, or for a port that takes nothing more. -/
def State.storeWaits (s : State) (pa : Nat) : Bool :=
  match s.attrOf pa with
  | .io => false
  | .aperture _ => false
  | t => if t.cached then s.fillWaits pa else portStalled s ((s.epOf pa).getD 0)

/-- The ERR code of a fill of a line: that of its lower failing sector. -/
def State.fillCode (s : State) (pa : Nat) : Nat :=
  let base := pa / 64 * 64
  let c := s.readCode base
  if c ≠ 0 then c else s.readCode (base + 32)

/-- `n` bytes of memory as a core sees them, without a change of state: for page tables. -/
def State.peek (s : State) (pa n : Nat) : Option (List Byte) :=
  let t := s.attrOf pa
  if t.cached then
    if (s.lineAt pa).isNone ∧ s.fillCode pa ≠ 0 then none else some (slice (s.lineView pa) (pa % 64) n)
  else if t = .uncached ∧ s.readCode pa = 0 then some (s.readMem pa n)
  else none

/-- A line comes into a core's caches, and the L3 (R284); a line that is there already gains a holder. -/
def State.holdLine (s : State) (c pa : Nat) : State :=
  match s.lineAt pa with
  | some l =>
    let s := if s.stale pa then
        let v := s.lineView pa
        { s.fresh with lines := Table.set none s.lines (pa / 64) (some { l with data := v }) }
      else s
    let l := (s.lineAt pa).getD l
    if l.holders.elem c then s
    else { s with lines := Table.set none s.lines (pa / 64) (some { l with holders := c :: l.holders }) }
  | none =>
    let l : Line := { shared := decide (s.attrOf pa = .shared), data := s.readMem (pa / 64 * 64) 64, mask := 0,
                      writer := c, holders := [c], l3 := true }
    { s with lines := Table.set none s.lines (pa / 64) (some l) }

/-! ### Sv48 translation (R280) -/

/-- The mode a load or store is made in: that of MPP while MPRV is set. -/
def Core.dataPriv (x : Core) : Nat := if x.ms 17 1 = 1 then x.ms 11 2 else x.priv

/-- Whether a leaf entry allows an access (with A and D kept by software). -/
def leafAllows (x : Core) (priv : Nat) (kind : AccessKind) (pte : Nat) : Bool :=
  let user := bitOf pte 4
  let rightMode := if priv = 0 then user else (!user || (decide (x.ms 18 1 = 1) && decide (kind ≠ .fetch)))
  let right := match kind with
    | .fetch => bitOf pte 3
    | .load => bitOf pte 1 || (decide (x.ms 19 1 = 1) && bitOf pte 3)
    | .store => bitOf pte 2
  rightMode && right && bitOf pte 6 && (decide (kind ≠ .store) || bitOf pte 7)

/-- The walk from a table down, `n + 1` levels left. The answer is a physical address, or the exception's code. -/
def walk (s : State) (x : Core) (va priv : Nat) (kind : AccessKind) : Nat → Nat → Except Nat Nat
  | 0, _ => .error kind.pageFault
  | n + 1, table =>
    let at_ := table * 4096 + bitsOf va (12 + 9 * n) 9 * 8
    if x.pmpAllows 1 .load at_ = false then .error kind.accessFault
    else match s.peek at_ 8 with
      | none => .error kind.accessFault
      | some b =>
        let pte := natOf b
        let ppn := bitsOf pte 10 44
        if bitOf pte 0 = false ∨ (bitOf pte 1 = false ∧ bitOf pte 2) ∨ bitsOf pte 54 10 ≠ 0 then .error kind.pageFault
        else if bitOf pte 1 = false ∧ bitOf pte 3 = false then
          if bitOf pte 4 ∨ bitOf pte 6 ∨ bitOf pte 7 then .error kind.pageFault else walk s x va priv kind n ppn
        else if leafAllows x priv kind pte = false ∨ ppn % 2 ^ (9 * n) ≠ 0 then .error kind.pageFault
        else .ok (ppn * 4096 + va % 2 ^ (12 + 9 * n))

/-- The addresses of the page-table entries that a walk reads. -/
def walkReads (s : State) (x : Core) (va : Nat) : Nat → Nat → List Nat
  | 0, _ => []
  | n + 1, table =>
    let at_ := table * 4096 + bitsOf va (12 + 9 * n) 9 * 8
    if x.pmpAllows 1 .load at_ = false then []
    else match s.peek at_ 8 with
      | none => [at_]
      | some b =>
        let pte := natOf b
        if bitOf pte 0 = false ∨ bitOf pte 1 ∨ bitOf pte 2 ∨ bitOf pte 3 ∨ bitsOf pte 54 10 ≠ 0 ∨ bitOf pte 4 ∨ bitOf pte 6 ∨ bitOf pte 7 then
          [at_]
        else at_ :: walkReads s x va n (bitsOf pte 10 44)

/-- Whether an address is translated by a walk. -/
def walks (x : Core) (va : Nat) (kind : AccessKind) : Bool :=
  !(decide ((if kind = .fetch then x.priv else x.dataPriv) = 3) || decide (bitsOf x.csr.satp 60 4 = 0)
    || (decide (va / 2 ^ 47 ≠ 0) && decide (va / 2 ^ 47 ≠ 2 ^ 17 - 1)))

/-- The page-table entries read for an access. -/
def walkedFor (s : State) (c va : Nat) (kind : AccessKind) : List Nat :=
  let x := s.core c
  if walks x va kind then walkReads s x va 4 (bitsOf x.csr.satp 0 44) else []

/-- What the read of a page-table entry leaves behind (R210, R211): a cached line with a double-bit error is met, and a read that
reaches the port is a demand read. -/
def entryRead (a : Nat) (s : State) : State :=
  let s := s.meetBad a
  if (s.attrOf a).cached then (if (s.lineAt a).isNone then s.afterRead (a / 64 * 64) 2 else s) else s.afterRead a 1

/-- The physical address of a virtual one, after translation, protection and attribute checks; or the exception's code. -/
def translate (s : State) (c va : Nat) (kind : AccessKind) : Except Nat Nat :=
  let x := s.core c
  let priv := if kind = .fetch then x.priv else x.dataPriv
  let pa : Except Nat Nat :=
    if priv = 3 ∨ bitsOf x.csr.satp 60 4 = 0 then .ok va
    else if va / 2 ^ 47 ≠ 0 ∧ va / 2 ^ 47 ≠ 2 ^ 17 - 1 then .error kind.pageFault
    else walk s x va priv kind 4 (bitsOf x.csr.satp 0 44)
  match pa with
  | .error e => .error e
  | .ok a =>
    if x.pmpAllows priv kind a = false ∨ (s.attrOf a).faults priv kind then .error kind.accessFault else .ok a

/-- The translation of an access with what its walk does: nothing yet where a page-table entry must wait at its port (R206, R214,
R217, R445). -/
def reach (c va : Nat) (kind : AccessKind) (s : State) : Option (State × Except Nat Nat) :=
  let l := walkedFor s c va kind
  if l.any s.loadWaits then none else some (forEach l entryRead s, translate s c va kind)

/-! ### Loads -/

/-- The value that a load of `w` bytes which received ERR code `c` gives (R273). -/
def errorValue (w c : Nat) : Nat :=
  match w with
  | 8 => 0x7FF4000000000E00 + c
  | 4 => 0x7FF40E00 + c
  | 2 => 0x7F80 + c
  | _ => 0x7F

/-- What a load found: the bytes with an ERR code or 0, a request that is under way, or that it must wait. -/
inductive Loaded where
  | value (code : Nat) (v : Nat)
  | sent
  | wait
  deriving DecidableEq, Repr

/-- A load of `w` bytes, aligned, from a physical address that may be read. `purpose` names the load for an aperture. -/
def loadPhys (c pa w : Nat) (purpose : Purpose) (s : State) : State × Loaded :=
  let t := s.attrOf pa
  let s := s.meetBad pa
  if s.loadWaits pa then (s, .wait) else
  match t with
  | .io =>
    let good := if (aiaFrame pa).isSome then w = 4 else w = 8
    if ¬ good then (s.localError c errUNMAPPED, .value errUNMAPPED 0)
    else
      let s := fetchRegister (.core c false) pa s
      (if s.answer.1 = 0 then s else s.localError c s.answer.1, .value s.answer.1 s.answer.2.toNat)
  | .aperture a =>
    let far := s.apertureFar a (pa / 32 * 32)
    (s.send (608 + c % 16) purpose (addressed { opcode := opRD, cls := clsREQ, nsect := 1 } true far 0) true, .sent)
  | _ =>
    if t.cached then
      let code := s.fillCode pa
      if (s.lineAt pa).isNone ∧ code ≠ 0 then ((s.afterRead (pa / 64 * 64) 2).localError c code, .value code 0)
      else
        let s := (if (s.lineAt pa).isNone then s.afterRead (pa / 64 * 64) 2 else s).holdLine c pa
        (s, .value 0 (natOf (slice (s.lineView pa) (pa % 64) w)))
    else
      let code := s.readCode pa
      if code ≠ 0 then ((s.afterRead pa 1).localError c code, .value code 0) else (s.afterRead pa 1, .value 0 (natOf (s.readMem pa w)))

/-- A loaded value in its register: sign- or zero-extended, or NaN-boxed. -/
def LoadDest.put (d : LoadDest) (v : Nat) (x : Core) : Core :=
  if d.fp then (if d.width = 4 then x.setF32 d.reg v else x.setF d.reg v)
  else if d.signed then x.setX d.reg (BitVec.ofInt 64 (signedOf (8 * d.width) v))
  else x.setX d.reg (BitVec.ofNat 64 (v % 2 ^ (8 * d.width)))

/-- A scalar load of an instruction of `n` bytes: the register takes the value, or the error value followed by
LOAD_ERROR; an aperture load waits for its response; one that must wait for its port is not executed yet. -/
def doLoad (c va n : Nat) (d : LoadDest) (s : State) : State :=
  if va % d.width ≠ 0 then takeException c causeLoadMisaligned va s
  else match reach c va .load s with
    | none => s
    | some (s, .error e) => takeException c e va s
    | some (s, .ok pa) =>
      match loadPhys c pa d.width (.coreLoad c va d) s with
      | (s, .wait) => s
      | (s, .sent) => s.modCore c (fun x => { x with wait := some .load }.retire n)
      | (s, .value code v) =>
        if code = 0 then s.modCore c (fun x => (d.put v x).retire n)
        else takeLoadError c va code (s.modCore c (fun x => (d.put (errorValue d.width code) x).retire n))

/-! ### Stores -/

/-- A local store to memory that is not cached: the ERR code, or 0 with the bytes stored. One that the route decoder lets pass (R11,
R12) goes on to its endpoint: where requests to its sector wait at
its endpoint, or its page is marked, it waits there behind them as a request of its own (R206, R220, R445). -/
def storeLocal (c pa : Nat) (b : List Byte) (s : State) : State × Nat :=
  let code := s.writeCode pa b.length
  let sec := pa / 32 * 32
  if s.routeCode opWR pa ≠ 0 then (s, code)
  else if s.portWaits sec 1 true ∨ (pa < 0x8000000000 ∧ s.marked (pa / 0x10000)) then
    (s.queueAtPort (608 + c % 16) (.coreWrite c pa) { opcode := opWR, offset := pa, data := b }, 0)
  else if code ≠ 0 then (if code = errMEM_UE then s.afterRead pa 1 else s, code)
  else match placeOf pa with
    | .sram t off =>
      let s := aheadOfRelease t s
      (writeSectors t (off / 32) (writerOf s.nodeId (608 + c % 16)) (spliced (s.readMem sec 32) (pa % 32) b) 1 s, 0)
    | _ => ((if b.length < 32 then s.afterRead pa 1 else s).writeMem pa b, 0)

/-- A store of aligned bytes to a physical address that may be written: an error of it reaches the core as a posted error
(R294). -/
def storePhys (c pa : Nat) (b : List Byte) (s : State) : State :=
  let t := s.attrOf pa
  let posted (r : State × Nat) : State := if r.2 = 0 then r.1 else r.1.postLocal c pa r.2
  match t with
  | .io =>
    let good := if (aiaFrame pa).isSome then b.length = 4 else b.length = 8
    if ¬ good then s.postLocal c pa errUNMAPPED
    else
      let s := writeRegister (.core c false) pa (BitVec.ofNat 64 (natOf b)) s
      posted (s, s.answer.1)
  | .aperture a =>
    s.send (608 + c % 16) (.coreWrite c pa)
      (addressed { opcode := opWR, cls := clsREQ, nsect := 1, data := b } true (s.apertureFar a pa) 0) true
  | _ =>
    if t.cached then
      let s := s.meetBad pa
      let code := s.fillCode pa
      let s := if (s.lineAt pa).isNone then s.afterRead (pa / 64 * 64) 2 else s
      if (s.lineAt pa).isNone ∧ code ≠ 0 then s.postLocal c pa code
      else
        let s := s.holdLine c pa
        match s.lineAt pa with
        | some l =>
          let l : Line :=
            { l with
              data := spliced l.data (pa % 64) b, mask := l.mask ||| (2 ^ b.length - 1) * 2 ^ (pa % 64), writer := c,
              holders := [c], l3 := true }
          { s with lines := Table.set none s.lines (pa / 64) (some l) }
        | none => s
    else posted (storeLocal c pa b s)

/-- A scalar store of an instruction of `n` bytes; one that must wait is not executed yet. -/
def doStore (c va n w v : Nat) (s : State) : State :=
  if va % w ≠ 0 then takeException c causeStoreMisaligned va s
  else match reach c va .store s with
    | none => s
    | some (s, .error e) => takeException c e va s
    | some (s, .ok pa) => if s.storeWaits pa then s else (storePhys c pa (bytesOf w v) s).modCore c (fun x => x.retire n)

/-! ### Instruction fetch (R283, R287) -/

/-- A fetched instruction: its bits and length, or an exception. -/
inductive Fetched where
  | word (w len : Nat)
  | fault (cause tval : Nat)
  /-- the read received ERR (R292) -/
  | bad (tval code : Nat)
  /-- the read waits for what is before it at its port -/
  | wait
  deriving DecidableEq, Repr

/-- The 64 bytes of an instruction line: kept until FENCE.I; where the line differs from memory by now, whether the core
still has the old one is free. -/
def fetchLine (c pa : Nat) (s : State) : State × Except Nat (List Byte) :=
  let s := if (Table.get [] (s.core c).icache (pa / 64)).isEmpty ∧ (s.lineAt pa).isNone ∧ s.fillCode pa = 0 then
      s.afterRead (pa / 64 * 64) 2 else s
  let x := s.core c
  let now := s.lineView pa
  let old := Table.get [] x.icache (pa / 64)
  if old.isEmpty then
    if (s.lineAt pa).isNone ∧ s.fillCode pa ≠ 0 then
      ((s.afterRead (pa / 64 * 64) 2).localError c (s.fillCode pa), .error (s.fillCode pa))
    else (s.modCore c (fun x => { x with icache := Table.set [] x.icache (pa / 64) now }), .ok now)
  else if old = now ∨ Config.freeBool s.freeCtr then (if old = now then s else s.fresh, .ok old)
  else (s.fresh.modCore c (fun x => { x with icache := Table.set [] x.icache (pa / 64) now }), .ok now)

/-- Sixteen bits of the instruction stream: the bits, an exception, or an ERR code. -/
def fetchParcel (c va : Nat) (s : State) : State × Fetched :=
  match reach c va .fetch s with
  | none => (s, .wait)
  | some (s, .error e) => (s, .fault e va)
  | some (s, .ok pa) =>
    let s := s.meetBad pa
    if (Table.get [] (s.core c).icache (pa / 64)).isEmpty ∧ s.loadWaits pa then (s, .wait)
    else if (s.attrOf pa).cached then
      match fetchLine c pa s with
      | (s, .ok b) => (s, .word (natOf (slice b (pa % 64) 2)) 2)
      | (s, .error code) => (s, .bad va code)
    else if s.readCode pa ≠ 0 then ((s.afterRead pa 1).localError c (s.readCode pa), .bad va (s.readCode pa))
    else (s.afterRead pa 1, .word (natOf (s.readMem pa 2)) 2)

/-- The instruction at the pc: 16 bits, or 32 where its two low bits are ones. -/
def fetchInstr (c : Nat) (s : State) : State × Fetched :=
  let pc := (s.core c).pc.toNat
  match fetchParcel c pc s with
  | (s, .word lo _) =>
    if lo % 4 ≠ 3 then (s, .word lo 2)
    else match fetchParcel c ((pc + 2) % 2 ^ 64) s with
      | (s, .word hi _) => (s, .word (lo + hi * 2 ^ 16) 4)
      | r => r
  | r => r

/-! ### Running -/

/-- A core that may execute an instruction: started, not held, paused or penned, not waiting, with no posted error to take
first (R294); in WFI only once an interrupt is pending and enabled; not past an arrival at the cut hurdle in a round that will
be a cut (R336). -/
def coreRuns (s : State) (c : Nat) : Bool :=
  let x := s.core c
  decide (c < 64) && !x.held && !x.paused && !s.corePenned c && !s.akm.frozen && x.wait.isNone && x.posted.isNone
    && (!x.wfi || decide (s.mip c &&& x.csr.mie ≠ 0)) && !(willCut s && Table.get false x.pendingH s.cutHurdle)

/-- Executes the instruction at a core's pc where it is one of a row's: `f` gets its bits. -/
def onWord (c : Nat) (mine : Nat → Bool) (f : Nat → State → State) (s : State) : State :=
  if coreRuns s c = false then s
  else match fetchInstr c s with
    | (t, .word w 4) => if mine w then f w (t.modCore c (fun x => { x with wfi := false })) else s
    | _ => s

/-- Write-backs of a core's lines that are on their way. -/
def cleaning (s : State) (c : Nat) : Bool :=
  s.awaits (fun p => match p with
    | .coreClean d _ => decide (d = c)
    | _ => false)

/-- Requests of a core that R285 and R289 wait for: stores, posted atomics and credits outside the node's own reach. -/
def postedBy (s : State) (c : Nat) : Bool :=
  s.awaits (fun p => match p with
    | .coreWrite d _ => decide (d = c)
    | .coreClean d _ => decide (d = c)
    | .coreAtom d _ => decide (d = c)
    | .coreCredit d => decide (d = c)
    | _ => false)

end Sys2Proof.Machine
end

