-- ==== Sys2Proof/Machine/Rv64.lean ====
section
/-! DEFINITION. The standard instructions of a core: RV64I with M, F, D, C, Zicsr, Zifencei, Zba, Zbb and Zbs (R280, R281), with
the meanings of RV64_INSTRUCTION and of what reaches a core from outside its instruction stream. -/

namespace Sys2Proof.Machine

/-! ### Fields -/

def iOp (w : Nat) : Nat := w % 128
def iRd (w : Nat) : Nat := bitsOf w 7 5
def iF3 (w : Nat) : Nat := bitsOf w 12 3
def iRs1 (w : Nat) : Nat := bitsOf w 15 5
def iRs2 (w : Nat) : Nat := bitsOf w 20 5
def iF7 (w : Nat) : Nat := bitsOf w 25 7

/-- Immediates, sign-extended. -/
def immI (w : Nat) : Word := BitVec.ofInt 64 (signedOf 12 (bitsOf w 20 12))
def immS (w : Nat) : Word := BitVec.ofInt 64 (signedOf 12 (bitsOf w 7 5 + bitsOf w 25 7 * 2 ^ 5))
def immB (w : Nat) : Word :=
  BitVec.ofInt 64 (signedOf 13 (bitsOf w 8 4 * 2 + bitsOf w 25 6 * 2 ^ 5 + bitsOf w 7 1 * 2 ^ 11 + bitsOf w 31 1 * 2 ^ 12))
def immU (w : Nat) : Word := BitVec.ofInt 64 (signedOf 32 (bitsOf w 12 20 * 2 ^ 12))
def immJ (w : Nat) : Word :=
  BitVec.ofInt 64 (signedOf 21 (bitsOf w 21 10 * 2 + bitsOf w 20 1 * 2 ^ 11 + bitsOf w 12 8 * 2 ^ 12 + bitsOf w 31 1 * 2 ^ 20))

/-! ### Integer operations (I, M, Zba, Zbb, Zbs) -/

/-- The low 32 bits sign-extended. -/
def sext32 (v : Word) : Word := BitVec.ofInt 64 (signedOf 32 v.toNat)
def zext32 (v : Word) : Word := BitVec.ofNat 64 (v.toNat % 2 ^ 32)
def ofBool (b : Bool) : Word := if b then 1 else 0

/-- Signed quotient and remainder of `w` bits with the corner results of the M extension. -/
def divS (w : Nat) (a b : Int) : Int :=
  if b = 0 then -1 else if a = -(2 ^ (w - 1) : Nat) ∧ b = -1 then a else Int.tdiv a b
def remS (w : Nat) (a b : Int) : Int :=
  if b = 0 then a else if a = -(2 ^ (w - 1) : Nat) ∧ b = -1 then 0 else Int.tmod a b
def divU (w a b : Nat) : Nat := if b = 0 then 2 ^ w - 1 else a / b
def remU (a b : Nat) : Nat := if b = 0 then a else a % b

/-- Leading and trailing zeros, and set bits, of the low `w` bits. -/
def clzOf (w v : Nat) : Nat := ((List.range w).find? (fun i => bitOf v (w - 1 - i))).getD w
def ctzOf (w v : Nat) : Nat := ((List.range w).find? (fun i => bitOf v i)).getD w
def popOf (w v : Nat) : Nat := ((List.range w).filter (fun i => bitOf v i)).length

/-- ORC.B and REV8. -/
def orcB (v : Nat) : Nat := natOf ((bytesOf 8 v).map (fun b => if b = 0 then 0 else 0xFF))
def rev8 (v : Nat) : Nat := natOf (bytesOf 8 v).reverse

/-- OP: register with register. -/
def aluOp (f7 f3 : Nat) (a b : Word) : Option Word :=
  let sh := b.toNat % 64
  match f7, f3 with
  | 0x00, 0 => some (a + b)
  | 0x00, 1 => some (a <<< sh)
  | 0x00, 2 => some (ofBool (a.slt b))
  | 0x00, 3 => some (ofBool (a.ult b))
  | 0x00, 4 => some (a ^^^ b)
  | 0x00, 5 => some (a >>> sh)
  | 0x00, 6 => some (a ||| b)
  | 0x00, 7 => some (a &&& b)
  | 0x20, 0 => some (a - b)
  | 0x20, 5 => some (a.sshiftRight sh)
  | 0x20, 4 => some (~~~(a ^^^ b))
  | 0x20, 6 => some (a ||| ~~~b)
  | 0x20, 7 => some (a &&& ~~~b)
  | 0x01, 0 => some (a * b)
  | 0x01, 1 => some (BitVec.ofInt 64 (a.toInt * b.toInt / 2 ^ 64))
  | 0x01, 2 => some (BitVec.ofInt 64 (a.toInt * (b.toNat : Int) / 2 ^ 64))
  | 0x01, 3 => some (BitVec.ofNat 64 (a.toNat * b.toNat / 2 ^ 64))
  | 0x01, 4 => some (BitVec.ofInt 64 (divS 64 a.toInt b.toInt))
  | 0x01, 5 => some (BitVec.ofNat 64 (divU 64 a.toNat b.toNat))
  | 0x01, 6 => some (BitVec.ofInt 64 (remS 64 a.toInt b.toInt))
  | 0x01, 7 => some (BitVec.ofNat 64 (remU a.toNat b.toNat))
  | 0x10, 2 => some (b + a <<< 1)
  | 0x10, 4 => some (b + a <<< 2)
  | 0x10, 6 => some (b + a <<< 3)
  | 0x05, 4 => some (if a.slt b then a else b)
  | 0x05, 5 => some (if a.ult b then a else b)
  | 0x05, 6 => some (if a.slt b then b else a)
  | 0x05, 7 => some (if a.ult b then b else a)
  | 0x30, 1 => some (a.rotateLeft sh)
  | 0x30, 5 => some (a.rotateRight sh)
  | 0x24, 1 => some (a &&& ~~~((1 : Word) <<< sh))
  | 0x24, 5 => some ((a >>> sh) &&& 1)
  | 0x34, 1 => some (a ^^^ ((1 : Word) <<< sh))
  | 0x14, 1 => some (a ||| ((1 : Word) <<< sh))
  | _, _ => none

/-- OP-32: on the low 32 bits. `r2` is the rs2 field, which ZEXT.H names 0. -/
def aluOp32 (f7 f3 r2 : Nat) (a b : Word) : Option Word :=
  let x : BitVec 32 := BitVec.ofNat 32 a.toNat
  let y : BitVec 32 := BitVec.ofNat 32 b.toNat
  let sh := b.toNat % 32
  let out (v : BitVec 32) : Option Word := some (BitVec.ofInt 64 v.toInt)
  match f7, f3 with
  | 0x00, 0 => out (x + y)
  | 0x00, 1 => out (x <<< sh)
  | 0x00, 5 => out (x >>> sh)
  | 0x20, 0 => out (x - y)
  | 0x20, 5 => out (x.sshiftRight sh)
  | 0x01, 0 => out (x * y)
  | 0x01, 4 => out (BitVec.ofInt 32 (divS 32 x.toInt y.toInt))
  | 0x01, 5 => out (BitVec.ofNat 32 (divU 32 x.toNat y.toNat))
  | 0x01, 6 => out (BitVec.ofInt 32 (remS 32 x.toInt y.toInt))
  | 0x01, 7 => out (BitVec.ofNat 32 (remU x.toNat y.toNat))
  | 0x04, 0 => some (b + zext32 a)
  | 0x04, 4 => if r2 = 0 then some (BitVec.ofNat 64 (a.toNat % 2 ^ 16)) else none
  | 0x10, 2 => some (b + (zext32 a) <<< 1)
  | 0x10, 4 => some (b + (zext32 a) <<< 2)
  | 0x10, 6 => some (b + (zext32 a) <<< 3)
  | 0x30, 1 => out (x.rotateLeft sh)
  | 0x30, 5 => out (x.rotateRight sh)
  | _, _ => none

/-- OP-IMM. -/
def aluImm (w : Nat) (a : Word) : Option Word :=
  let imm := immI w
  let hi := bitsOf w 26 6
  let sh := bitsOf w 20 6
  let field := bitsOf w 20 12
  match iF3 w with
  | 0 => some (a + imm)
  | 2 => some (ofBool (a.slt imm))
  | 3 => some (ofBool (a.ult imm))
  | 4 => some (a ^^^ imm)
  | 6 => some (a ||| imm)
  | 7 => some (a &&& imm)
  | 1 =>
    if hi = 0x00 then some (a <<< sh)
    else if hi = 0x0A then some (a ||| ((1 : Word) <<< sh))
    else if hi = 0x12 then some (a &&& ~~~((1 : Word) <<< sh))
    else if hi = 0x1A then some (a ^^^ ((1 : Word) <<< sh))
    else if field = 0x600 then some (BitVec.ofNat 64 (clzOf 64 a.toNat))
    else if field = 0x601 then some (BitVec.ofNat 64 (ctzOf 64 a.toNat))
    else if field = 0x602 then some (BitVec.ofNat 64 (popOf 64 a.toNat))
    else if field = 0x604 then some (BitVec.ofInt 64 (signedOf 8 a.toNat))
    else if field = 0x605 then some (BitVec.ofInt 64 (signedOf 16 a.toNat))
    else none
  | _ =>
    if hi = 0x00 then some (a >>> sh)
    else if hi = 0x10 then some (a.sshiftRight sh)
    else if hi = 0x12 then some ((a >>> sh) &&& 1)
    else if hi = 0x18 then some (a.rotateRight sh)
    else if field = 0x287 then some (BitVec.ofNat 64 (orcB a.toNat))
    else if field = 0x6B8 then some (BitVec.ofNat 64 (rev8 a.toNat))
    else none

/-- OP-IMM-32. -/
def aluImm32 (w : Nat) (a : Word) : Option Word :=
  let x : BitVec 32 := BitVec.ofNat 32 a.toNat
  let sh := bitsOf w 20 5
  let f7 := iF7 w
  let out (v : BitVec 32) : Option Word := some (BitVec.ofInt 64 v.toInt)
  match iF3 w with
  | 0 => some (sext32 (a + immI w))
  | 1 =>
    if f7 = 0x00 then out (x <<< sh)
    else if bitsOf w 26 6 = 0x02 then some ((zext32 a) <<< bitsOf w 20 6)
    else if f7 = 0x30 ∧ sh = 0 then some (BitVec.ofNat 64 (clzOf 32 a.toNat))
    else if f7 = 0x30 ∧ sh = 1 then some (BitVec.ofNat 64 (ctzOf 32 a.toNat))
    else if f7 = 0x30 ∧ sh = 2 then some (BitVec.ofNat 64 (popOf 32 a.toNat))
    else none
  | 5 =>
    if f7 = 0x00 then out (x >>> sh)
    else if f7 = 0x20 then out (x.sshiftRight sh)
    else if f7 = 0x30 then out (x.rotateRight sh)
    else none
  | _ => none

/-- Whether a branch is taken; none for the unused codes. -/
def branchTaken (f3 : Nat) (a b : Word) : Option Bool :=
  match f3 with
  | 0 => some (a == b)
  | 1 => some (a != b)
  | 4 => some (a.slt b)
  | 5 => some (!a.slt b)
  | 6 => some (a.ult b)
  | 7 => some (!a.ult b)
  | _ => none

/-! ### Compressed instructions (C) -/

/-- 32-bit forms from their fields. -/
def encR (op f3 f7 rd rs1 rs2 : Nat) : Nat := op + rd * 2 ^ 7 + f3 * 2 ^ 12 + rs1 * 2 ^ 15 + rs2 * 2 ^ 20 + f7 * 2 ^ 25
def encI (op f3 rd rs1 : Nat) (imm : Int) : Nat := op + rd * 2 ^ 7 + f3 * 2 ^ 12 + rs1 * 2 ^ 15 + wrapNat 12 imm * 2 ^ 20
def encS (op f3 rs1 rs2 imm : Nat) : Nat :=
  op + bitsOf imm 0 5 * 2 ^ 7 + f3 * 2 ^ 12 + rs1 * 2 ^ 15 + rs2 * 2 ^ 20 + bitsOf imm 5 7 * 2 ^ 25
def encB (f3 rs1 : Nat) (imm : Int) : Nat :=
  let i := wrapNat 13 imm
  0x63 + bitsOf i 11 1 * 2 ^ 7 + bitsOf i 1 4 * 2 ^ 8 + f3 * 2 ^ 12 + rs1 * 2 ^ 15 + bitsOf i 5 6 * 2 ^ 25 + bitsOf i 12 1 * 2 ^ 31
def encJ (rd : Nat) (imm : Int) : Nat :=
  let i := wrapNat 21 imm
  0x6F + rd * 2 ^ 7 + bitsOf i 12 8 * 2 ^ 12 + bitsOf i 11 1 * 2 ^ 20 + bitsOf i 1 10 * 2 ^ 21 + bitsOf i 20 1 * 2 ^ 31

/-- Quadrant 0. -/
def expandC0 (h : Nat) : Option Nat :=
  let rd := 8 + bitsOf h 2 3
  let rs := 8 + bitsOf h 7 3
  let uw := bitsOf h 6 1 * 4 + bitsOf h 10 3 * 8 + bitsOf h 5 1 * 64
  let ud := bitsOf h 10 3 * 8 + bitsOf h 5 2 * 64
  match bitsOf h 13 3 with
  | 0 =>
    let u := bitsOf h 6 1 * 4 + bitsOf h 5 1 * 8 + bitsOf h 11 2 * 16 + bitsOf h 7 4 * 64
    if u = 0 then none else some (encI 0x13 0 rd 2 u)
  | 1 => some (encI 0x07 3 rd rs ud)
  | 2 => some (encI 0x03 2 rd rs uw)
  | 3 => some (encI 0x03 3 rd rs ud)
  | 5 => some (encS 0x27 3 rs rd ud)
  | 6 => some (encS 0x23 2 rs rd uw)
  | 7 => some (encS 0x23 3 rs rd ud)
  | _ => none

/-- Quadrant 1. -/
def expandC1 (h : Nat) : Option Nat :=
  let rd := bitsOf h 7 5
  let rp := 8 + bitsOf h 7 3
  let r2 := 8 + bitsOf h 2 3
  let raw := bitsOf h 2 5 + bitsOf h 12 1 * 32
  let imm := signedOf 6 raw
  let jump := signedOf 12 (bitsOf h 3 3 * 2 + bitsOf h 11 1 * 16 + bitsOf h 2 1 * 32 + bitsOf h 7 1 * 64 + bitsOf h 6 1 * 128
    + bitsOf h 9 2 * 256 + bitsOf h 8 1 * 1024 + bitsOf h 12 1 * 2048)
  let br := signedOf 9 (bitsOf h 3 2 * 2 + bitsOf h 10 2 * 8 + bitsOf h 2 1 * 32 + bitsOf h 5 2 * 64 + bitsOf h 12 1 * 256)
  match bitsOf h 13 3 with
  | 0 => some (encI 0x13 0 rd rd imm)
  | 1 => if rd = 0 then none else some (encI 0x1B 0 rd rd imm)
  | 2 => some (encI 0x13 0 rd 0 imm)
  | 3 =>
    if rd = 2 then
      let i := signedOf 10 (bitsOf h 6 1 * 16 + bitsOf h 2 1 * 32 + bitsOf h 5 1 * 64 + bitsOf h 3 2 * 128 + bitsOf h 12 1 * 512)
      if i = 0 then none else some (encI 0x13 0 2 2 i)
    else if raw = 0 then none
    else some (0x37 + rd * 2 ^ 7 + wrapNat 20 imm * 2 ^ 12)
  | 4 =>
    match bitsOf h 10 2 with
    | 0 => some (encI 0x13 5 rp rp raw)
    | 1 => some (encI 0x13 5 rp rp (raw + 0x400))
    | 2 => some (encI 0x13 7 rp rp imm)
    | _ =>
      match bitsOf h 12 1, bitsOf h 5 2 with
      | 0, 0 => some (encR 0x33 0 0x20 rp rp r2)
      | 0, 1 => some (encR 0x33 4 0 rp rp r2)
      | 0, 2 => some (encR 0x33 6 0 rp rp r2)
      | 0, 3 => some (encR 0x33 7 0 rp rp r2)
      | 1, 0 => some (encR 0x3B 0 0x20 rp rp r2)
      | 1, 1 => some (encR 0x3B 0 0 rp rp r2)
      | _, _ => none
  | 5 => some (encJ 0 jump)
  | 6 => some (encB 0 rp br)
  | _ => some (encB 1 rp br)

/-- Quadrant 2. -/
def expandC2 (h : Nat) : Option Nat :=
  let rd := bitsOf h 7 5
  let r2 := bitsOf h 2 5
  let raw := bitsOf h 2 5 + bitsOf h 12 1 * 32
  let ldsp := bitsOf h 5 2 * 8 + bitsOf h 12 1 * 32 + bitsOf h 2 3 * 64
  let lwsp := bitsOf h 4 3 * 4 + bitsOf h 12 1 * 32 + bitsOf h 2 2 * 64
  let sdsp := bitsOf h 10 3 * 8 + bitsOf h 7 3 * 64
  let swsp := bitsOf h 9 4 * 4 + bitsOf h 7 2 * 64
  match bitsOf h 13 3 with
  | 0 => some (encI 0x13 1 rd rd raw)
  | 1 => some (encI 0x07 3 rd 2 ldsp)
  | 2 => if rd = 0 then none else some (encI 0x03 2 rd 2 lwsp)
  | 3 => if rd = 0 then none else some (encI 0x03 3 rd 2 ldsp)
  | 4 =>
    if bitOf h 12 = false then
      if r2 = 0 then (if rd = 0 then none else some (encI 0x67 0 0 rd 0)) else some (encR 0x33 0 0 rd 0 r2)
    else if r2 = 0 then (if rd = 0 then some 0x00100073 else some (encI 0x67 0 1 rd 0))
    else some (encR 0x33 0 0 rd rd r2)
  | 5 => some (encS 0x27 3 2 r2 sdsp)
  | 6 => some (encS 0x23 2 2 r2 swsp)
  | _ => some (encS 0x23 3 2 r2 sdsp)

/-- The 32-bit instruction a 16-bit one stands for. -/
def expandC (h : Nat) : Option Nat :=
  match h % 4 with
  | 0 => expandC0 h
  | 1 => expandC1 h
  | _ => expandC2 h

/-! ### Execution -/

/-- A result into x[rd], and the next instruction. -/
def writeX (c rd n : Nat) (v : Word) (s : State) : State := s.modCore c (fun x => (x.setX rd v).retire n)

/-- A result that may not exist: an illegal instruction where it does not. -/
def writeOr (c bits rd n : Nat) (v : Option Word) (s : State) : State :=
  match v with
  | some v => writeX c rd n v s
  | none => takeIllegal c bits s

/-- A jump: the link register takes the address after the instruction. -/
def jumpTo (c rd n : Nat) (target : Word) (s : State) : State :=
  s.modCore c (fun x => { (x.setX rd (x.pc + BitVec.ofNat 64 n)).retire n with pc := target })

/-- An FP result of a format into f[rd], with its fflags. -/
def writeF (c rd n : Nat) (dbl : Bool) (r : Nat × Nat) (s : State) : State :=
  s.modCore c (fun x => ((if dbl then x.setF rd r.1 else x.setF32 rd r.1).accrue r.2).retire n)

/-- An integer result of an FP operation, with its fflags. -/
def writeXF (c rd n : Nat) (v : Word) (flags : Nat) (s : State) : State :=
  s.modCore c (fun x => ((x.setX rd v).accrue flags).retire n)

/-- An FP operand of a width. -/
def Core.fOperand (x : Core) (dbl : Bool) (r : Nat) : Nat := if dbl then x.getF r else x.getF32 r

/-- Zicsr: the old value into rd, and a write where the form makes one. -/
def execCsr (c bits w n : Nat) (s : State) : State :=
  let x := s.core c
  let a := bitsOf w 20 12
  let f3 := iF3 w
  let operand := if f3 < 4 then (x.getX (iRs1 w)).toNat else iRs1 w
  let writes := decide (f3 % 4 = 1) || decide (iRs1 w ≠ 0)
  match csrRead s c a with
  | none => takeIllegal c bits s
  | some old =>
    if writes ∧ bitsOf a 10 2 = 3 then takeIllegal c bits s
    else
      let base := if a = 0x344 ∨ a = 0x144 then (x.csr.mip &&& (if a = 0x144 then x.csr.mideleg else 0x222)) else old
      let v := match f3 % 4 with
        | 1 => operand
        | 2 => base ||| operand
        | _ => base ^^^ (base &&& operand)
      s.modCore c (fun x =>
        let x := if writes then x.csrWrite a v else x
        (x.setX (iRd w) (BitVec.ofNat 64 old)).retire n)

/-- SYSTEM without a CSR. -/
def execSystem (c bits w n : Nat) (s : State) : State :=
  let x := s.core c
  if iRd w ≠ 0 then takeIllegal c bits s
  else if iF7 w = 0x09 then
    if x.priv = 0 ∨ (x.priv = 1 ∧ x.ms 20 1 = 1) then takeIllegal c bits s else s.modCore c (fun x => x.retire n)
  else if iRs1 w ≠ 0 then takeIllegal c bits s
  else match bitsOf w 20 12 with
    | 0x000 => takeException c (8 + x.priv) 0 s
    | 0x001 => takeException c causeBreakpoint (if Config.tvalHoldsPc then x.pc.toNat else 0) s
    | 0x102 => if x.priv = 0 ∨ (x.priv = 1 ∧ x.ms 22 1 = 1) then takeIllegal c bits s else s.modCore c Core.sret
    | 0x302 => if x.priv ≠ 3 then takeIllegal c bits s else s.modCore c Core.mret
    | 0x105 =>
      if x.priv = 0 ∨ (x.priv = 1 ∧ x.ms 21 1 = 1) then takeIllegal c bits s
      else s.modCore c (fun x => { x with wfi := true }.retire n)
    | _ => takeIllegal c bits s

/-- FENCE waits for earlier posted requests; FENCE.I drops the core's instruction lines (R287). -/
def execFence (c bits w n : Nat) (s : State) : State :=
  match iF3 w with
  | 0 => if postedBy s c then s else s.modCore c (fun x => x.retire n)
  | 1 => s.modCore c (fun x => { x with icache := [] }.retire n)
  | _ => takeIllegal c bits s

/-- Scalar load forms: width and sign by funct3. -/
def loadForm (f3 : Nat) : Option (Nat × Bool) :=
  match f3 with
  | 0 => some (1, true)
  | 1 => some (2, true)
  | 2 => some (4, true)
  | 3 => some (8, true)
  | 4 => some (1, false)
  | 5 => some (2, false)
  | 6 => some (4, false)
  | _ => none

/-- FCVT to an integer: rs2 field 0 W, 1 WU, 2 L, 3 LU. -/
def fpToInt (c bits w n : Nat) (dbl : Bool) (rm : Rm) (s : State) : State :=
  let a := (s.core c).fOperand dbl (iRs1 w)
  let f := coreFmt dbl
  match iRs2 w with
  | 0 => let r := coreToInt f rm 32 true a; writeXF c (iRd w) n (sext32 (BitVec.ofNat 64 r.1)) r.2 s
  | 1 => let r := coreToInt f rm 32 false a; writeXF c (iRd w) n (sext32 (BitVec.ofNat 64 r.1)) r.2 s
  | 2 => let r := coreToInt f rm 64 true a; writeXF c (iRd w) n (BitVec.ofNat 64 r.1) r.2 s
  | 3 => let r := coreToInt f rm 64 false a; writeXF c (iRd w) n (BitVec.ofNat 64 r.1) r.2 s
  | _ => takeIllegal c bits s

/-- FCVT from an integer. -/
def fpOfInt (c bits w n : Nat) (dbl : Bool) (rm : Rm) (s : State) : State :=
  let a := ((s.core c).getX (iRs1 w)).toNat
  let f := coreFmt dbl
  match iRs2 w with
  | 0 => writeF c (iRd w) n dbl (coreOfInt f rm (signedOf 32 a)) s
  | 1 => writeF c (iRd w) n dbl (coreOfInt f rm ((a % 2 ^ 32 : Nat) : Int)) s
  | 2 => writeF c (iRd w) n dbl (coreOfInt f rm (signedOf 64 a)) s
  | 3 => writeF c (iRd w) n dbl (coreOfInt f rm (a : Int)) s
  | _ => takeIllegal c bits s

/-- FSGNJ, FSGNJN, FSGNJX. -/
def signInject (f : Fmt) (op a b : Nat) : Option Nat :=
  let top := f.width - 1
  let body := a % 2 ^ top
  let sa := bitsOf a top 1
  let sb := bitsOf b top 1
  match op with
  | 0 => some (body + sb * 2 ^ top)
  | 1 => some (body + (1 - sb) * 2 ^ top)
  | 2 => some (body + (sa ^^^ sb) * 2 ^ top)
  | _ => none

/-- OP-FP. -/
def execFp (c bits w n : Nat) (s : State) : State :=
  let x := s.core c
  let dbl := decide (bitsOf w 25 2 = 1)
  let f := coreFmt dbl
  let rd := iRd w
  let a := x.fOperand dbl (iRs1 w)
  let b := x.fOperand dbl (iRs2 w)
  let rm := x.rm (iF3 w)
  if 2 ≤ bitsOf w 25 2 then takeIllegal c bits s
  else match bitsOf w 27 5, rm with
    | 0x00, some m => writeF c rd n dbl (coreAdd f m a b) s
    | 0x01, some m => writeF c rd n dbl (coreSub f m a b) s
    | 0x02, some m => writeF c rd n dbl (coreMul f m a b) s
    | 0x03, some m => writeF c rd n dbl (coreDiv f m a b) s
    | 0x0B, some m => if iRs2 w = 0 then writeF c rd n dbl (coreSqrt f m a) s else takeIllegal c bits s
    | 0x18, some m => fpToInt c bits w n dbl m s
    | 0x1A, some m => fpOfInt c bits w n dbl m s
    | 0x08, some m =>
      if dbl ∧ iRs2 w = 0 then writeF c rd n true (coreConvert fmtFp64 fmtFp32 m (x.getF32 (iRs1 w))) s
      else if dbl = false ∧ iRs2 w = 1 then writeF c rd n false (coreConvert fmtFp32 fmtFp64 m (x.getF (iRs1 w))) s
      else takeIllegal c bits s
    | 0x04, _ =>
      match signInject f (iF3 w) a b with
      | some v => writeF c rd n dbl (v, 0) s
      | none => takeIllegal c bits s
    | 0x05, _ => if iF3 w < 2 then writeF c rd n dbl (coreMinMax f (decide (iF3 w = 1)) a b) s else takeIllegal c bits s
    | 0x14, _ =>
      if 2 < iF3 w then takeIllegal c bits s
      else
        let r := coreCmp f (if iF3 w = 2 then 0 else if iF3 w = 1 then 1 else 2) a b
        writeXF c rd n (ofBool r.1) r.2 s
    | 0x1C, _ =>
      if iRs2 w ≠ 0 then takeIllegal c bits s
      else if iF3 w = 0 then
        writeX c rd n (if dbl then BitVec.ofNat 64 (x.getF (iRs1 w)) else sext32 (BitVec.ofNat 64 (x.getF (iRs1 w)))) s
      else if iF3 w = 1 then writeX c rd n (BitVec.ofNat 64 (coreClass f a)) s
      else takeIllegal c bits s
    | 0x1E, _ =>
      if iRs2 w ≠ 0 ∨ iF3 w ≠ 0 then takeIllegal c bits s
      else writeF c rd n dbl ((x.getX (iRs1 w)).toNat, 0) s
    | _, _ => takeIllegal c bits s

/-- FMADD, FMSUB, FNMSUB, FNMADD, by opcode. -/
def execFma (c bits w n : Nat) (s : State) : State :=
  let x := s.core c
  let dbl := decide (bitsOf w 25 2 = 1)
  let a := x.fOperand dbl (iRs1 w)
  let b := x.fOperand dbl (iRs2 w)
  let d := x.fOperand dbl (bitsOf w 27 5)
  let negProd := decide (iOp w = 0x4B) || decide (iOp w = 0x4F)
  let negAdd := decide (iOp w = 0x47) || decide (iOp w = 0x4F)
  match x.rm (iF3 w) with
  | some m => if 2 ≤ bitsOf w 25 2 then takeIllegal c bits s else writeF c (iRd w) n dbl (coreFma (coreFmt dbl) m negProd negAdd a b d) s
  | none => takeIllegal c bits s

/-- Opcodes of the F and D extensions, which FS = Off makes illegal. -/
def fpOpcodes : List Nat := [0x07, 0x27, 0x43, 0x47, 0x4B, 0x4F, 0x53]

/-- One 32-bit standard instruction `w`, of `n` bytes in memory, whose bits were `bits`. AMO opcodes are illegal (R281). -/
def execStandard (c bits w n : Nat) (s : State) : State :=
  let x := s.core c
  let rd := iRd w
  let a := x.getX (iRs1 w)
  let b := x.getX (iRs2 w)
  if fpOpcodes.elem (iOp w) ∧ x.fs = 0 then takeIllegal c bits s
  else match iOp w with
    | 0x37 => writeX c rd n (immU w) s
    | 0x17 => writeX c rd n (x.pc + immU w) s
    | 0x6F => jumpTo c rd n (x.pc + immJ w) s
    | 0x67 => if iF3 w = 0 then jumpTo c rd n ((a + immI w) &&& ~~~1) s else takeIllegal c bits s
    | 0x63 =>
      match branchTaken (iF3 w) a b with
      | some true => jumpTo c 0 n (x.pc + immB w) s
      | some false => s.modCore c (fun x => x.retire n)
      | none => takeIllegal c bits s
    | 0x03 =>
      match loadForm (iF3 w) with
      | some (width, signed) => doLoad c (a + immI w).toNat n { fp := false, reg := rd, width, signed } s
      | none => takeIllegal c bits s
    | 0x23 => if iF3 w < 4 then doStore c (a + immS w).toNat n (2 ^ iF3 w) b.toNat s else takeIllegal c bits s
    | 0x13 => writeOr c bits rd n (aluImm w a) s
    | 0x1B => writeOr c bits rd n (aluImm32 w a) s
    | 0x33 => writeOr c bits rd n (aluOp (iF7 w) (iF3 w) a b) s
    | 0x3B => writeOr c bits rd n (aluOp32 (iF7 w) (iF3 w) (iRs2 w) a b) s
    | 0x0F => execFence c bits w n s
    | 0x73 =>
      if iF3 w = 0 then execSystem c bits w n s
      else if iF3 w = 4 then takeIllegal c bits s
      else execCsr c bits w n s
    | 0x07 =>
      if iF3 w = 2 ∨ iF3 w = 3 then
        doLoad c (a + immI w).toNat n { fp := true, reg := rd, width := 2 ^ iF3 w, signed := false } s
      else takeIllegal c bits s
    | 0x27 =>
      if iF3 w = 2 ∨ iF3 w = 3 then doStore c (a + immS w).toNat n (2 ^ iF3 w) (x.getF (iRs2 w)) s
      else takeIllegal c bits s
    | 0x53 => execFp c bits w n s
    | 0x43 => execFma c bits w n s
    | 0x47 => execFma c bits w n s
    | 0x4B => execFma c bits w n s
    | 0x4F => execFma c bits w n s
    | _ => takeIllegal c bits s

/-- Whether a word is one of LVX or of the core synchronisation instructions (custom-0, custom-1 below MOP 7, custom-2 with
funct3 0 to 4), which have commands of their own. -/
def customWord (w : Nat) : Bool :=
  decide (iOp w = 0x0B) || (decide (iOp w = 0x2B) && decide (bitsOf w 29 3 ≠ 7))
    || (decide (iOp w = 0x5B) &&
      (match iF3 w with
       | 0 => true
       | 1 => decide (iF7 w ≤ 8)
       | 2 => [0, 1, 2, 3, 4, 8, 9, 10, 11].elem (iF7 w % 16)
       | 3 => [0, 1, 2, 3, 4, 8, 9, 10, 11].elem (iF7 w % 16)
       | 4 => decide (iF7 w ≤ 7)
       | _ => false))

/-- RV64_INSTRUCTION: the instruction at the pc, or the exception that its fetch or its bits raise. -/
def runStandard (c : Nat) (s : State) : State :=
  if coreRuns s c = false then s
  else match fetchInstr c s with
    | (t, .fault cause tval) => takeException c cause tval t
    | (t, .bad tval code) => takeLoadError c tval code t
    | (t, .wait) => t
    | (t, .word w len) =>
      if len = 4 ∧ customWord w then s
      else
        let t := t.modCore c (fun x => { x with wfi := false })
        if len = 4 then execStandard c w w 4 t
        else match expandC w with
          | some e => execStandard c w e 2 t
          | none => takeIllegal c w t

def execRv64Instruction (c : Nat) (s : State) : Host.Outcome State Fault Refusal := .next (runStandard c s)

/-! ### What reaches a core from outside its instructions -/

/-- A double-bit error befalls the copy of a line in a core's own caches, or else the one in the L3 (R410): a dirty one keeps it until
something meets it; a clean copy is dropped, to be fetched again. -/
def cacheError (c pa : Nat) (s : State) : State :=
  match s.lineAt pa with
  | none => s
  | some l =>
    let k := pa / 64
    let mine := l.holders.elem c
    if l.dirty ∧ ((mine ∧ l.writer = c) ∨ (¬ mine ∧ l.l3)) then
      { s with lines := Table.set none s.lines k (some { l with bad := true, holders := if mine then [c] else [] }) }
    else
      let others := l.holders.filter (fun x => decide (x ≠ c))
      if ¬ mine ∧ ¬ l.l3 then s
      else if others.isEmpty ∧ ¬ l.dirty then { s with lines := Table.set none s.lines k none }
      else if mine then { s with lines := Table.set none s.lines k (some { l with holders := others }) }
      else s

/-- A double-bit error befalls what an address names: a cached line, or a sector of an on-die memory (R410). -/
def dieError (c pa : Nat) (s : State) : State :=
  if (s.attrOf pa).cached then cacheError c pa s
  else match placeOf pa with
    | .sram _ _ => strikeDie [0] (pa / 32 * 32) 1 s
    | .engineMem _ _ => strikeDie [0] (pa / 32 * 32) 1 s
    | .commons => strikeDie [0] (pa / 32 * 32) 1 s
    | _ => s

/-- SPECULATIVE_READ (R288): a line of cacheable memory is brought in, an ERR or DECLINE leaving nothing; a prefetchable
aperture sector is requested with the prefetch bit and its data dropped. -/
def speculate (c : Nat) (a : Word) (s : State) : State :=
  let pa := a.toNat
  let t := s.attrOf pa
  match t with
  | .aperture k =>
    let w := s.field .prcAper k 0 16 8
    if bitOf (s.getReg (regAddr .hfiPfmap (w / 64))).toNat (w % 64) then
      s.send (608 + c % 16) (.coreRead c pa)
        (addressed { opcode := opRD, cls := clsREQ, nsect := 1, pf := true } true (s.apertureFar k (pa / 32 * 32)) 0) true
    else s
  | _ => if t.cached && !s.fillWaits pa && ((s.lineAt pa).isSome || decide (s.fillCode pa = 0)) then s.holdLine c pa else s

/-- Whether a core may read ahead. -/
def readsAhead (s : State) (c : Nat) : Bool :=
  !(s.core c).held && !(s.core c).paused && !s.corePenned c && !s.akm.frozen

/-- What a speculative read does. No physical address has bit 63: set in the operand, it tells that a double-bit error has befallen
the cached line, or the sector of an on-die memory, that the address names (R410, log entry 54); so it may of a core that reads nothing
now. -/
def readAhead (c : Nat) (a : Word) (s : State) : State :=
  let pa : Word := BitVec.ofNat 64 (a.toNat % 2 ^ 63)
  let s := if bitOf a.toNat 63 then dieError c pa.toNat s else s
  if readsAhead s c then speculate c pa (s.meetBad pa.toNat) else s

def execSpeculativeRead (c : Nat) (a : Word) (s : State) : Host.Outcome State Fault Refusal :=
  act (decide (c < 64) && (readsAhead s c || bitOf a.toNat 63)) (readAhead c a) s

/-- Whether a core can take an interrupt now: between instructions, or in a wait of TWAIT, HWAIT or HARRW (R291). -/
def interruptible (s : State) (c : Nat) : Bool :=
  let x := s.core c
  decide (c < 64) && !x.held && !x.paused && !s.corePenned c && !s.akm.frozen && x.posted.isNone
    && (match x.wait with
        | none => true
        | some (.tally _ _) => true
        | some (.hurdle _) => true
        | _ => false)

/-- A wait of a core that is satisfied by now completes (R226, R291): a tally wait that has its distance, or an HWAIT whose
hurdle releases in this tick. -/
def waitCompletes (c : Nat) (s : State) : State :=
  if tallyWaitReady (576 + c) s then tallyWaitFinish (576 + c) s
  else match (s.core c).wait with
    | some (.hurdle h) =>
      if releaseDue h s ∧ s.inMap h (576 + c) then
        (s.modCore c (fun x => { x with pendingH := Table.set false x.pendingH h false, wait := none }.retire 4)).dropShared [c]
      else s
    | _ => s

/-- INTERRUPT (R291): a wait that is satisfied in this tick completes first; else it is abandoned, with its mark and pending
bit as they were. -/
def interruptCore (c : Nat) (s : State) : State :=
  match s.takable c with
  | some k => if interruptible s c then (waitCompletes c s).modCore c (fun x => { x with wait := none }.enter true k 0) else s
  | none => s

def execInterrupt (c : Nat) (s : State) : Host.Outcome State Fault Refusal := .next (interruptCore c s)

/-- MTIP (R297): while mtime is at least mtimecmp the timer interrupt is pending; a core in WFI that enables it goes on. -/
def timerPending (s : State) (c : Nat) : Bool :=
  decide (c < 64) && bitOf (s.mip c) 7

def execMtip (c : Nat) (s : State) : Host.Outcome State Fault Refusal :=
  act (timerPending s c && bitOf (s.core c).csr.mie 7 && (s.core c).wfi) (fun s => s.modCore c (fun x => { x with wfi := false })) s

/-- POSTED_ERROR (R294): at the next instruction boundary; a wait that an interrupt may end is abandoned in the same way. -/
def takePosted (c : Nat) (s : State) : State :=
  match (s.core c).posted with
  | some tval => s.modCore c (fun x => { x with posted := none, wait := none }.enter false causePOSTED_ERROR tval)
  | none => s

def execPostedError (c : Nat) (s : State) : Host.Outcome State Fault Refusal :=
  act (decide (c < 64) && !(s.core c).held && !(s.core c).paused && !s.corePenned c && !s.akm.frozen
    && (match (s.core c).wait with
        | none => true
        | some (.tally _ _) => true
        | some (.hurdle _) => true
        | _ => false)) (takePosted c) s

end Sys2Proof.Machine
end

