-- ==== Sys2Proof/Machine/LvxArith.lean ====
section
/-! DEFINITION. LVX arithmetic, reductions, predicates and configuration (R298 to R306, R309). -/

namespace Sys2Proof.Machine

/-! ### Elements and forms (R300, R303, R304) -/

/-- SEW in bits. -/
def Core.sewBits (x : Core) : Nat := 8 * 2 ^ x.sew

/-- Element `e` of the group that starts at a register. -/
def Core.getE (x : Core) (w r e : Nat) : Nat := bitsOf (x.getV (r + e * w / 1024)) (e * w % 1024) w

/-- The core with that element set; every other bit of the group stays. -/
def Core.setE (x : Core) (w r e v : Nat) : Core :=
  x.setV (r + e * w / 1024) (putBits (x.getV (r + e * w / 1024)) (e * w % 1024) w v)

/-- The core with bit `e` of a predicate set to a result. -/
def Core.setPBit (x : Core) (p e : Nat) (b : Bool) : Core := x.setP p (putBits (x.getP p) e 1 (if b then 1 else 0))

/-- Whether a register of the long form does not start a group. -/
def Core.groupBad (x : Core) (long : Bool) (l : List Nat) : Bool := long && l.any (fun r => decide (r % 2 ^ x.group ≠ 0))

/-- First element and element count of a form: lvstart and vl, or the whole of bits [127:0] (R303, R305). -/
def Core.formStart (x : Core) (long : Bool) : Nat := if long then x.lvstart else 0
def Core.formCount (x : Core) (long : Bool) : Nat := if long then x.vl else 128 / x.sewBits

/-- The active elements of a predicate from the first element on, in ascending order. -/
def Core.actives (x : Core) (first count pd : Nat) : List Nat :=
  (List.range count).filter (fun e => decide (first ≤ e) && bitOf (x.getP pd) e)

/-- A vector instruction completes: lvstart is 0 (R305). A write of v, p, vl, vtype or lvstart sets FS to Dirty (R301). -/
def Core.lvDone (x : Core) (wrote : Bool) : Core :=
  let y := { x with lvstart := 0 }.retire 4
  if wrote ∨ x.lvstart ≠ 0 then y.dirtyFs else y

/-! ### Arithmetic (custom-0) -/

/-- What an element's result is computed with: format and rounding of FP operations, SEW, and the vs1 field. -/
structure LvEnv where
  f : Fmt
  rm : Rm
  w : Nat
  sel : Nat

/-- How an arithmetic operation uses its fields, and its result for one element: from the predicate bit, vs1, operand 2 and
vd, the result's bits and fflags. -/
structure LvKind where
  fp : Bool := false
  rounds : Bool := false
  /-- the result goes to a predicate -/
  cmp : Bool := false
  useVs1 : Bool := true
  useVs2 : Bool := true
  /-- elements of MERGE do not depend on the predicate -/
  all : Bool := false
  illegal : Nat → Bool := fun _ => false
  val : LvEnv → Bool → Nat → Nat → Nat → Nat × Nat

/-- A custom-0 word of an OP. -/
def isArith (op w : Nat) : Bool := decide (iOp w = 0x0B) && decide (bitsOf w 26 5 = op)

/-- Why an arithmetic instruction is illegal (R299 to R301, R305, R306). -/
def arithIllegal (x : Core) (k : LvKind) (word : Nat) : Bool :=
  let long := bitOf word 25
  let regs := (if k.cmp then [] else [iRd word]) ++ (if k.useVs1 then [iRs1 word] else [])
    ++ (if k.useVs2 && !bitOf word 31 then [iRs2 word] else [])
  decide (x.fs = 0) || x.groupBad long regs || (k.fp && decide (x.sew < 2)) || (k.rounds && (x.rm 7).isNone)
    || (k.cmp && (decide (iRd word = 0) || decide (8 ≤ iRd word))) || k.illegal word

/-- Operand 2 of an element (R306). -/
def operand2 (x : Core) (k : LvKind) (word e : Nat) : Nat :=
  if k.useVs2 = false then 0
  else if bitOf word 31 then
    (if k.fp then (if x.sew = 3 then x.getF (iRs2 word) else x.getF32 (iRs2 word)) else (x.getX (iRs2 word)).toNat % 2 ^ x.sewBits)
  else x.getE x.sewBits (iRs2 word) e

/-- One element of an arithmetic instruction: reads from `x`, writes to the core so far. -/
def arithElem (x : Core) (k : LvKind) (word : Nat) (y : Core × Nat) (e : Nat) : Core × Nat :=
  let w := x.sewBits
  let env : LvEnv := { f := coreFmt (decide (x.sew = 3)), rm := (x.rm 7).getD .rne, w := w, sel := iRs1 word }
  let a := if k.useVs1 then x.getE w (iRs1 word) e else 0
  let r := k.val env (bitOf (x.getP (iF3 word)) e) a (operand2 x k word e) (if k.cmp then 0 else x.getE w (iRd word) e)
  (if k.cmp then y.1.setPBit (iRd word) e (decide (r.1 ≠ 0)) else y.1.setE w (iRd word) e r.1, y.2 ||| r.2)

/-- The elements an arithmetic instruction performs. -/
def arithElems (x : Core) (k : LvKind) (word : Nat) : List Nat :=
  let long := bitOf word 25
  x.actives (x.formStart long) (x.formCount long) (if k.all then 0 else iF3 word)

/-- An arithmetic instruction of a core. -/
def runArith (c : Nat) (k : LvKind) (word : Nat) (s : State) : State :=
  let x := s.core c
  if arithIllegal x k word then takeIllegal c word s
  else
    let y := (arithElems x k word).foldl (arithElem x k word) (x, 0)
    s.setCore c ((y.1.accrue y.2).lvDone (!bitOf word 25 || decide (x.vl ≠ 0)))

/-- An arithmetic command: its own OP at the pc. -/
def arithRow (op : Nat) (k : LvKind) (c : Nat) (s : State) : Host.Outcome State Fault Refusal :=
  .next (onWord c (isArith op) (runArith c k) s)

/-- Integer operations by OP, 0x00 to 0x0D and the compares 0x0E to 0x10. -/
def lvInt (op w a b : Nat) : Nat :=
  let x := signedOf w a
  let y := signedOf w b
  let sh := b % w
  let flag (t : Bool) : Nat := if t then 1 else 0
  match op with
  | 0x00 => (a + b) % 2 ^ w
  | 0x01 => wrapNat w ((a : Int) - b)
  | 0x02 => a * b % 2 ^ w
  | 0x03 => wrapNat w (x * y / 2 ^ w)
  | 0x04 => if x < y then a else b
  | 0x05 => if x < y then b else a
  | 0x06 => if a < b then a else b
  | 0x07 => if a < b then b else a
  | 0x08 => a &&& b
  | 0x09 => a ||| b
  | 0x0A => a ^^^ b
  | 0x0B => a * 2 ^ sh % 2 ^ w
  | 0x0C => a / 2 ^ sh
  | 0x0D => wrapNat w (x / 2 ^ sh)
  | 0x0E => flag (decide (a = b))
  | 0x0F => flag (decide (x < y))
  | _ => flag (decide (a < b))

/-- An integer operation as an arithmetic kind. -/
def intKind (op : Nat) : LvKind := { val := fun v _ a b _ => (lvInt op v.w a b, 0) }
def intCmpKind (op : Nat) : LvKind := { cmp := true, val := fun v _ a b _ => (lvInt op v.w a b, 0) }

/-- An FP operation of two operands that rounds by frm. -/
def fpKind (f : Fmt → Rm → Nat → Nat → Nat × Nat) : LvKind := { fp := true, rounds := true, val := fun v _ a b _ => f v.f v.rm a b }

/-- FMACC and FNMSAC. -/
def fmaKind (neg : Bool) : LvKind :=
  { fp := true, rounds := true, val := fun v _ a b d => coreFma v.f v.rm neg false a b d }

def fpMinMaxKind (max : Bool) : LvKind := { fp := true, val := fun v _ a b _ => coreMinMax v.f max a b }

/-- FCMPEQ, FCMPLT, FCMPLE: 0, 1, 2. -/
def fpCmpKind (op : Nat) : LvKind :=
  { fp := true, cmp := true, val := fun v _ a b _ =>
      let r := coreCmp v.f op a b
      (if r.1 then 1 else 0, r.2) }

def mergeKind : LvKind := { all := true, val := fun _ p a b _ => (if p then a else b, 0) }

def moveKind : LvKind := { useVs1 := false, illegal := fun w => decide (iRs1 w ≠ 0), val := fun _ _ _ b _ => (b, 0) }

/-- FCVT: the vs1 field chooses the direction; the source is vs2 (log entry 30). -/
def fcvtKind : LvKind :=
  { fp := true, rounds := true, useVs1 := false, illegal := fun w => decide (1 < iRs1 w) || bitOf w 31,
    val := fun v _ _ b _ => if v.sel = 0 then coreOfInt v.f v.rm (signedOf v.w b) else coreToInt v.f v.rm v.w true b }

def fsqrtKind : LvKind :=
  { fp := true, rounds := true, useVs2 := false, illegal := fun w => decide (iRs2 w ≠ 0) || bitOf w 31,
    val := fun v _ a _ _ => coreSqrt v.f v.rm a }

def execLvxAdd (c : Nat) (s : State) : Host.Outcome State Fault Refusal := arithRow 0x00 (intKind 0x00) c s
def execLvxSub (c : Nat) (s : State) : Host.Outcome State Fault Refusal := arithRow 0x01 (intKind 0x01) c s
def execLvxMul (c : Nat) (s : State) : Host.Outcome State Fault Refusal := arithRow 0x02 (intKind 0x02) c s
def execLvxMulh (c : Nat) (s : State) : Host.Outcome State Fault Refusal := arithRow 0x03 (intKind 0x03) c s
def execLvxMin (c : Nat) (s : State) : Host.Outcome State Fault Refusal := arithRow 0x04 (intKind 0x04) c s
def execLvxMax (c : Nat) (s : State) : Host.Outcome State Fault Refusal := arithRow 0x05 (intKind 0x05) c s
def execLvxMinu (c : Nat) (s : State) : Host.Outcome State Fault Refusal := arithRow 0x06 (intKind 0x06) c s
def execLvxMaxu (c : Nat) (s : State) : Host.Outcome State Fault Refusal := arithRow 0x07 (intKind 0x07) c s
def execLvxAnd (c : Nat) (s : State) : Host.Outcome State Fault Refusal := arithRow 0x08 (intKind 0x08) c s
def execLvxOr (c : Nat) (s : State) : Host.Outcome State Fault Refusal := arithRow 0x09 (intKind 0x09) c s
def execLvxXor (c : Nat) (s : State) : Host.Outcome State Fault Refusal := arithRow 0x0A (intKind 0x0A) c s
def execLvxSll (c : Nat) (s : State) : Host.Outcome State Fault Refusal := arithRow 0x0B (intKind 0x0B) c s
def execLvxSrl (c : Nat) (s : State) : Host.Outcome State Fault Refusal := arithRow 0x0C (intKind 0x0C) c s
def execLvxSra (c : Nat) (s : State) : Host.Outcome State Fault Refusal := arithRow 0x0D (intKind 0x0D) c s
def execLvxCmpeq (c : Nat) (s : State) : Host.Outcome State Fault Refusal := arithRow 0x0E (intCmpKind 0x0E) c s
def execLvxCmplt (c : Nat) (s : State) : Host.Outcome State Fault Refusal := arithRow 0x0F (intCmpKind 0x0F) c s
def execLvxCmpltu (c : Nat) (s : State) : Host.Outcome State Fault Refusal := arithRow 0x10 (intCmpKind 0x10) c s
def execLvxMerge (c : Nat) (s : State) : Host.Outcome State Fault Refusal := arithRow 0x11 mergeKind c s
def execLvxMove (c : Nat) (s : State) : Host.Outcome State Fault Refusal := arithRow 0x12 moveKind c s
def execLvxFcvt (c : Nat) (s : State) : Host.Outcome State Fault Refusal := arithRow 0x13 fcvtKind c s
def execLvxFadd (c : Nat) (s : State) : Host.Outcome State Fault Refusal := arithRow 0x14 (fpKind coreAdd) c s
def execLvxFsub (c : Nat) (s : State) : Host.Outcome State Fault Refusal := arithRow 0x15 (fpKind coreSub) c s
def execLvxFmul (c : Nat) (s : State) : Host.Outcome State Fault Refusal := arithRow 0x16 (fpKind coreMul) c s
def execLvxFdiv (c : Nat) (s : State) : Host.Outcome State Fault Refusal := arithRow 0x17 (fpKind coreDiv) c s
def execLvxFmacc (c : Nat) (s : State) : Host.Outcome State Fault Refusal := arithRow 0x18 (fmaKind false) c s
def execLvxFnmsac (c : Nat) (s : State) : Host.Outcome State Fault Refusal := arithRow 0x19 (fmaKind true) c s
def execLvxFmin (c : Nat) (s : State) : Host.Outcome State Fault Refusal := arithRow 0x1A (fpMinMaxKind false) c s
def execLvxFmax (c : Nat) (s : State) : Host.Outcome State Fault Refusal := arithRow 0x1B (fpMinMaxKind true) c s
def execLvxFsqrt (c : Nat) (s : State) : Host.Outcome State Fault Refusal := arithRow 0x1C fsqrtKind c s
def execLvxFcmpeq (c : Nat) (s : State) : Host.Outcome State Fault Refusal := arithRow 0x1D (fpCmpKind 0) c s
def execLvxFcmplt (c : Nat) (s : State) : Host.Outcome State Fault Refusal := arithRow 0x1E (fpCmpKind 1) c s
def execLvxFcmple (c : Nat) (s : State) : Host.Outcome State Fault Refusal := arithRow 0x1F (fpCmpKind 2) c s

/-! ### Reductions (R309) -/

/-- A reduction word of an operation: funct3 2 long, 3 short. -/
def isReduction (op w : Nat) : Bool :=
  decide (iOp w = 0x5B) && (decide (iF3 w = 2) || decide (iF3 w = 3)) && decide (iF7 w % 16 = op)

/-- T of R27 over patterns, every inner node rounded RNE, with fflags. -/
def coreTree (f : Fmt) : Nat → List Nat → Nat × Nat
  | 0, v => (v.headD 0, 0)
  | fuel + 1, v =>
    match v with
    | [] => (0, 0)
    | [x] => (x, 0)
    | v =>
      let m := 2 ^ Nat.log2 (v.length - 1)
      let a := coreTree f fuel (v.take m)
      let b := coreTree f fuel (v.drop m)
      let c := coreAdd f .rne a.1 b.1
      (c.1, a.2 ||| b.2 ||| c.2)

/-- The integer reductions, over s and the sign-extended or zero-extended elements. -/
def lvReduce (op w : Nat) (s : Word) (l : List Nat) : Word :=
  let sx (v : Nat) : Word := BitVec.ofInt 64 (signedOf w v)
  let zx (v : Nat) : Word := BitVec.ofNat 64 v
  l.foldl (fun a v => match op with
    | 0 => a + sx v
    | 1 => if (sx v).slt a then sx v else a
    | 2 => if a.slt (sx v) then sx v else a
    | 3 => if (zx v).ult a then zx v else a
    | _ => if a.ult (zx v) then zx v else a) s

/-- The FP reductions: ORD, TREE, MIN, MAX by operation code 8 to 11; with no element s comes back and no flag. -/
def lvReduceFp (op : Nat) (f : Fmt) (rm : Rm) (s : Nat) (l : List Nat) : Nat × Nat :=
  let foldBy (g : Nat → Nat → Nat × Nat) : Nat × Nat :=
    l.foldl (fun a v =>
      let r := g a.1 v
      (r.1, a.2 ||| r.2)) (s, 0)
  if l.isEmpty then (s, 0)
  else match op with
    | 8 => foldBy (coreAdd f rm)
    | 9 =>
      let t := coreTree f l.length l
      let r := coreAdd f rm s t.1
      (r.1, t.2 ||| r.2)
    | 10 => foldBy (coreMinMax f false)
    | _ => foldBy (coreMinMax f true)

/-- A reduction of a core. Every active element below the count takes part, whatever lvstart holds (log entry 30). -/
def runReduction (c op word : Nat) (s : State) : State :=
  let x := s.core c
  let long := decide (iF3 word = 2)
  let fp := decide (8 ≤ op)
  let w := x.sewBits
  if x.fs = 0 ∨ x.groupBad long [iRs2 word] ∨ (fp ∧ x.sew < 2) ∨ ((op = 8 ∨ op = 9) ∧ (x.rm 7).isNone) then takeIllegal c word s
  else
    let l := (x.actives 0 (x.formCount long) (bitsOf word 29 3)).map (fun e => x.getE w (iRs2 word) e)
    if fp then
      let dbl := decide (x.sew = 3)
      let r := lvReduceFp op (coreFmt dbl) ((x.rm 7).getD .rne) (x.fOperand dbl (iRs1 word)) l
      s.setCore c (((if dbl then x.setF (iRd word) r.1 else x.setF32 (iRd word) r.1).accrue r.2).lvDone true)
    else s.setCore c ((x.setX (iRd word) (lvReduce op w (x.getX (iRs1 word)) l)).lvDone false)

def reductionRow (op c : Nat) (s : State) : Host.Outcome State Fault Refusal :=
  .next (onWord c (isReduction op) (runReduction c op) s)

def execLvxRsum (c : Nat) (s : State) : Host.Outcome State Fault Refusal := reductionRow 0 c s
def execLvxRmin (c : Nat) (s : State) : Host.Outcome State Fault Refusal := reductionRow 1 c s
def execLvxRmax (c : Nat) (s : State) : Host.Outcome State Fault Refusal := reductionRow 2 c s
def execLvxRminu (c : Nat) (s : State) : Host.Outcome State Fault Refusal := reductionRow 3 c s
def execLvxRmaxu (c : Nat) (s : State) : Host.Outcome State Fault Refusal := reductionRow 4 c s
def execFrsumOrd (c : Nat) (s : State) : Host.Outcome State Fault Refusal := reductionRow 8 c s
def execFrsumTree (c : Nat) (s : State) : Host.Outcome State Fault Refusal := reductionRow 9 c s
def execFrmin (c : Nat) (s : State) : Host.Outcome State Fault Refusal := reductionRow 10 c s
def execFrmax (c : Nat) (s : State) : Host.Outcome State Fault Refusal := reductionRow 11 c s

/-! ### Predicates (R299) -/

def isPredicate (op w : Nat) : Bool := decide (iOp w = 0x5B) && decide (iF3 w = 1) && decide (iF7 w = op)

/-- An instruction with a predicate destination: p0 is none. -/
def runToP (c : Nat) (f : Core → Nat → Nat) (word : Nat) (s : State) : State :=
  let x := s.core c
  if x.fs = 0 ∨ iRd word % 8 = 0 then takeIllegal c word s
  else s.setCore c (((x.setP (iRd word % 8) (f x word)).dirtyFs).retire 4)

/-- A predicate operation of two sources. -/
def predicate2 (f : Nat → Nat → Nat) (x : Core) (word : Nat) : Nat := f (x.getP (iRs1 word % 8)) (x.getP (iRs2 word % 8))

/-- An instruction with an x destination. -/
def runPToX (c : Nat) (f : Core → Nat → Word) (word : Nat) (s : State) : State :=
  let x := s.core c
  if x.fs = 0 then takeIllegal c word s else s.setCore c ((x.setX (iRd word) (f x (x.getP (iRs1 word % 8)))).retire 4)

def runPtov (c word : Nat) (s : State) : State :=
  let x := s.core c
  if x.fs = 0 then takeIllegal c word s else s.setCore c (((x.setV (iRd word) (x.getP (iRs1 word % 8))).dirtyFs).retire 4)

/-- Set bits of a predicate below vl. -/
def countSet (x : Core) (p : Nat) : Word := BitVec.ofNat 64 ((List.range x.vl).filter (fun e => bitOf p e)).length

/-- The lowest set bit of a predicate below vl, or −1. -/
def firstSet (x : Core) (p : Nat) : Word :=
  match (List.range x.vl).find? (fun e => bitOf p e) with
  | some e => BitVec.ofNat 64 e
  | none => BitVec.ofInt 64 (-1)

def predicateRow (op c : Nat) (f : Nat → State → State) (s : State) : Host.Outcome State Fault Refusal :=
  .next (onWord c (isPredicate op) f s)

def execPand (c : Nat) (s : State) : Host.Outcome State Fault Refusal :=
  predicateRow 0 c (runToP c (predicate2 (fun a b => a &&& b))) s
def execPor (c : Nat) (s : State) : Host.Outcome State Fault Refusal :=
  predicateRow 1 c (runToP c (predicate2 (fun a b => a ||| b))) s
def execPxor (c : Nat) (s : State) : Host.Outcome State Fault Refusal :=
  predicateRow 2 c (runToP c (predicate2 (fun a b => a ^^^ b))) s
def execPandn (c : Nat) (s : State) : Host.Outcome State Fault Refusal :=
  predicateRow 3 c (runToP c (predicate2 (fun a b => a ^^^ (a &&& b)))) s
def execPnot (c : Nat) (s : State) : Host.Outcome State Fault Refusal :=
  predicateRow 4 c (runToP c (fun x w => ones1024 ^^^ x.getP (iRs1 w % 8))) s
def execPpopc (c : Nat) (s : State) : Host.Outcome State Fault Refusal := predicateRow 5 c (runPToX c countSet) s
def execPfirst (c : Nat) (s : State) : Host.Outcome State Fault Refusal := predicateRow 6 c (runPToX c firstSet) s
def execPtov (c : Nat) (s : State) : Host.Outcome State Fault Refusal := predicateRow 7 c (runPtov c) s
def execVtop (c : Nat) (s : State) : Host.Outcome State Fault Refusal :=
  predicateRow 8 c (runToP c (fun x w => x.getV (iRs1 w))) s

/-! ### LVCFG (R302) -/

def isLvcfg (w : Nat) : Bool := decide (iOp w = 0x5B) && decide (iF3 w = 0)

def runLvcfg (c word : Nat) (s : State) : State :=
  let x := s.core c
  if x.fs = 0 ∨ bitsOf word 28 4 ≠ 0 ∨ bitsOf word 20 4 ≠ 0 then takeIllegal c word s
  else
    let sew := bitsOf word 24 2
    let group := bitsOf word 26 2
    let max := 2 ^ group * 1024 / (8 * 2 ^ sew)
    let vl := Nat.min (x.getX (iRs1 word)).toNat max
    s.setCore c ((({ x with vl := vl, sew := sew, group := group }.setX (iRd word) (BitVec.ofNat 64 vl)).dirtyFs).retire 4)

def execLvcfg (c : Nat) (s : State) : Host.Outcome State Fault Refusal := .next (onWord c isLvcfg (runLvcfg c) s)

end Sys2Proof.Machine
end

