-- ==== Sys2Proof/Machine/LvxMem.lean ====
section
/-! DEFINITION. LVX loads and stores (R303 to R308, R292, R293). -/

namespace Sys2Proof.Machine

/-! ### Operands -/

/-- A custom-1 word of a MOP. -/
def isVMem (mop w : Nat) : Bool := decide (iOp w = 0x2B) && decide (bitsOf w 29 3 = mop)

def vLong (w : Nat) : Bool := bitOf w 28
def vPd (w : Nat) : Nat := bitsOf w 25 3

/-- Whether a MOP is indexed, and whether it is strided. -/
def mopIndexed (mop : Nat) : Bool := decide (mop = 3) || decide (mop = 6)
def mopStrided (mop : Nat) : Bool := decide (mop = 1) || decide (mop = 5)

/-- Why a vector memory instruction is illegal (R300, R301, R306). -/
def vMemIllegal (x : Core) (mop word : Nat) : Bool :=
  decide (x.fs = 0) || decide (iF3 word ≠ 0)
    || x.groupBad (vLong word) (iRd word :: (if mopIndexed mop then [iRs2 word] else []))

/-- The address of element `e`. -/
def vAddress (x : Core) (mop word e : Nat) : Nat :=
  let base := x.getX (iRs1 word)
  let w := x.sewBits
  let off : Word :=
    if mopIndexed mop then BitVec.ofNat 64 (x.getE w (iRs2 word) e)
    else if mopStrided mop then BitVec.ofNat 64 e * x.getX (iRs2 word)
    else BitVec.ofNat 64 (e * (w / 8))
  (base + off).toNat

/-- The active elements of a vector memory instruction. -/
def vElems (x : Core) (word : Nat) : List Nat :=
  x.actives (x.formStart (vLong word)) (x.formCount (vLong word)) (vPd word)

/-- The exception that an element's access raises, if any (R307). -/
def vFault (s : State) (c bytes va : Nat) (kind : AccessKind) : Option Nat :=
  if va % bytes ≠ 0 then some (match kind with
    | .store => causeStoreMisaligned
    | _ => causeLoadMisaligned)
  else match translate s c va kind with
    | .error e => some e
    | .ok _ => none

/-- Whether an element's access must wait at its port; the whole instruction then waits. -/
def vWaits (s : State) (c : Nat) (kind : AccessKind) (addr : Nat → Nat) (l : List Nat) : Bool :=
  l.any (fun e => match translate s c (addr e) kind with
    | .ok pa => if kind = .store then s.storeWaits pa else s.loadWaits pa
    | .error _ => false)

/-- What the page-table walks of the elements leave behind, and the lines with a double-bit error that they meet; nothing while an
entry must wait at its port. -/
def vReach (s : State) (c : Nat) (kind : AccessKind) (addr : Nat → Nat) (l : List Nat) : Option State :=
  if l.any (fun e => (reach c (addr e) kind s).isNone) then none
  else some (forEach l (fun e s =>
    match reach c (addr e) kind s with
    | some (s, .ok pa) => s.meetBad pa
    | some (s, .error _) => s
    | none => s) s)

/-- The first element of a list that raises an exception: element, cause, address. -/
def firstFault (s : State) (c bytes : Nat) (kind : AccessKind) (addr : Nat → Nat) (l : List Nat) : Option (Nat × Nat × Nat) :=
  l.findSome? (fun e => (vFault s c bytes (addr e) kind).map (fun k => (e, k, addr e)))

/-! ### Ends of an instruction -/

/-- Whether a vector load of a core still awaits data. -/
def vLoading (s : State) (c : Nat) : Bool :=
  s.awaits (fun p => match p with
    | .coreVLoad d _ _ _ _ => decide (d = c)
    | _ => false)

/-- The lowest erroneous element of a load is kept (R292). -/
def Core.noteLoadErr (x : Core) (e va code : Nat) : Core :=
  match x.loadErr with
  | some (old, _, _) => if e < old then { x with loadErr := some (e, va, code) } else x
  | none => { x with loadErr := some (e, va, code) }

/-- A completed load raises LOAD_ERROR where an element received an error (R292, R293). -/
def raiseLoadErr (c : Nat) (s : State) : State :=
  match (s.core c).loadErr with
  | some (_, va, code) => takeLoadError c va code (s.modCore c (fun x => { x with loadErr := none }))
  | none => s

/-- The instruction leaves off before an element: lvstart names it. Where data of earlier elements is still awaited, the
core waits for it before it goes on there (R305). -/
def vLeaveAt (c e : Nat) (then_ : State → State) (s : State) : State :=
  let s := s.modCore c (fun x => { x with lvstart := e }.dirtyFs)
  if vLoading s c then s.modCore c (fun x => { x with wait := some .load }) else then_ s

/-- The instruction completes: the core waits for data that is still awaited. -/
def vComplete (c : Nat) (wrote : Bool) (s : State) : State :=
  let s := s.modCore c (fun x => x.lvDone wrote)
  if vLoading s c then s.modCore c (fun x => { x with wait := some .load }) else raiseLoadErr c s

/-- The interrupt that ends a long instruction between elements. -/
def vInterrupt (c : Nat) (s : State) : State :=
  match s.takable c with
  | some k => s.modCore c (fun x => x.enter true k 0)
  | none => s

/-- The element before which a pending interrupt stops an instruction of the long form, if it does (R305). -/
def vStop (s : State) (c word stop : Nat) : Option Nat :=
  let x := s.core c
  if vLong word ∧ (s.takable c).isSome ∧ x.lvstart ≤ stop ∧ stop < x.vl then some stop else none

/-- The elements performed of a list, and how the instruction goes on: those below the stop and below the first fault; of
a short form with a fault, none. -/
def vRun (c word : Nat) (stop : Option Nat) (fault : Option (Nat × Nat × Nat)) (elems : List Nat)
    (one : Nat → State → State) (wrote : Bool) (s : State) : State :=
  let below (n : Nat) : List Nat := elems.filter (fun e => decide (e < n))
  let atFault (e cause va : Nat) : State :=
    vLeaveAt c e (takeException c cause va) (if vLong word then forEach (below e) one s else s)
  match stop, fault with
  | some n, some (e, cause, va) =>
    if n ≤ e then vLeaveAt c n (vInterrupt c) (forEach (below n) one s) else atFault e cause va
  | some n, none => vLeaveAt c n (vInterrupt c) (forEach (below n) one s)
  | none, some (e, cause, va) => atFault e cause va
  | none, none => vComplete c wrote (forEach elems one s)

/-! ### Loads -/

/-- Element `e` loaded: its value, the error value of R273, or a request under way. -/
def loadElem (c vd bytes : Nat) (addr : Nat → Nat) (e : Nat) (s : State) : State :=
  let va := addr e
  match translate s c va .load with
  | .error _ => s
  | .ok pa =>
    let sew := (s.core c).sew
    match loadPhys c pa bytes (.coreVLoad c va vd sew e) s with
    | (s, .wait) => s
    | (s, .sent) => s
    | (s, .value code v) =>
      if code = 0 then s.modCore c (fun x => x.setE (8 * bytes) vd e v)
      else s.modCore c (fun x => (x.setE (8 * bytes) vd e (errorValue bytes code)).noteLoadErr e va code)

/-- A load that starts anew drops the error note of an earlier one that was never completed. -/
def freshLoad (word : Nat) (x : Core) : Core := if x.formStart (vLong word) = 0 then { x with loadErr := none } else x

/-- A vector load that is not first-fault. -/
def runVLoad (mop c stop word : Nat) (s : State) : State :=
  let x := s.core c
  if vMemIllegal x mop word then takeIllegal c word s
  else
    let bytes := x.sewBits / 8
    let addr := vAddress x mop word
    let elems := vElems x word
    match vReach s c .load addr elems with
    | none => s
    | some s =>
    if vWaits s c .load addr elems then s else
    let s := s.modCore c (freshLoad word)
    vRun c word (vStop s c word stop) (firstFault s c bytes .load addr elems) elems (loadElem c (iRd word) bytes addr)
      (!vLong word || decide (x.vl ≠ 0)) s

/-- Whether an element above 0 of a first-fault load ends it: a fault, memory that may not be read ahead, or a read that
would be declined (R308). -/
def ffEnds (s : State) (c bytes va : Nat) : Bool :=
  if va % bytes ≠ 0 then true
  else match translate s c va .load with
    | .error _ => true
    | .ok pa =>
      if (s.attrOf pa).cached then (s.lineAt pa).isNone && decide (s.fillCode pa ≠ 0) else true

/-- Element `e` of a first-fault load: above element 0 its line is read ahead with the prefetch bit, which corrects and counts nothing
(R210, R308). -/
def loadElemFf (c vd bytes : Nat) (addr : Nat → Nat) (e : Nat) (s : State) : State :=
  let ahead (s : State) : State :=
    match translate s c (addr e) .load with
    | .ok pa => if (s.attrOf pa).cached ∧ (s.lineAt pa).isNone then s.holdLine c pa else s
    | .error _ => s
  loadElem c vd bytes addr e (if e = 0 then s else ahead s)

/-- A first-fault load: vl becomes the first element above 0 that would not load. -/
def runVLoadFf (c stop word : Nat) (s : State) : State :=
  let x := s.core c
  if vMemIllegal x 2 word then takeIllegal c word s
  else
    let bytes := x.sewBits / 8
    let addr := vAddress x 2 word
    let elems := vElems x word
    match vReach s c .load addr elems with
    | none => s
    | some s =>
    if vWaits s c .load addr elems then s else
    let s := s.modCore c (freshLoad word)
    let cut := elems.find? (fun e => decide (e ≠ 0) && ffEnds s c bytes (addr e))
    let kept := match cut with
      | some n => elems.filter (fun e => decide (e < n))
      | none => elems
    let fault := firstFault s c bytes .load addr (kept.filter (fun e => decide (e = 0)))
    let stop := match vStop s c word stop, cut with
      | some n, some m => if n < m then some n else none
      | o, _ => o
    let s := match cut with
      | some n => if stop.isNone ∧ fault.isNone then s.modCore c (fun x => { x with vl := n }) else s
      | none => s
    vRun c word stop fault kept (loadElemFf c (iRd word) bytes addr) (!vLong word || decide (x.vl ≠ 0)) s

/-! ### Stores -/

/-- Element `e` stored. -/
def storeElem (c vs bytes : Nat) (addr : Nat → Nat) (e : Nat) (s : State) : State :=
  match translate s c (addr e) .store with
  | .error _ => s
  | .ok pa => storePhys c pa (bytesOf bytes ((s.core c).getE (8 * bytes) vs e)) s

/-- A vector store. -/
def runVStore (mop c stop word : Nat) (s : State) : State :=
  let x := s.core c
  if vMemIllegal x mop word then takeIllegal c word s
  else
    let bytes := x.sewBits / 8
    let addr := vAddress x mop word
    let elems := vElems x word
    match vReach s c .store addr elems with
    | none => s
    | some s =>
    if vWaits s c .store addr elems then s else
    vRun c word (vStop s c word stop) (firstFault s c bytes .store addr elems) elems (storeElem c (iRd word) bytes addr) false s

def execLvxLoadUnit (c stop : Nat) (s : State) : Host.Outcome State Fault Refusal :=
  .next (onWord c (isVMem 0) (runVLoad 0 c stop) s)
def execLvxLoadStrided (c stop : Nat) (s : State) : Host.Outcome State Fault Refusal :=
  .next (onWord c (isVMem 1) (runVLoad 1 c stop) s)
def execLvxLoadFirstFault (c stop : Nat) (s : State) : Host.Outcome State Fault Refusal :=
  .next (onWord c (isVMem 2) (runVLoadFf c stop) s)
def execLvxLoadIndexed (c stop : Nat) (s : State) : Host.Outcome State Fault Refusal :=
  .next (onWord c (isVMem 3) (runVLoad 3 c stop) s)
def execLvxStoreUnit (c stop : Nat) (s : State) : Host.Outcome State Fault Refusal :=
  .next (onWord c (isVMem 4) (runVStore 4 c stop) s)
def execLvxStoreStrided (c stop : Nat) (s : State) : Host.Outcome State Fault Refusal :=
  .next (onWord c (isVMem 5) (runVStore 5 c stop) s)
def execLvxStoreIndexed (c stop : Nat) (s : State) : Host.Outcome State Fault Refusal :=
  .next (onWord c (isVMem 6) (runVStore 6 c stop) s)

end Sys2Proof.Machine
end

