-- ==== Sys2Proof/Machine/CoreSync.lean ====
section
/-! DEFINITION. Tallies and hurdles from a core (R285, R289 to R291), posted atomics (R32, R119) and CLEAN. -/

namespace Sys2Proof.Machine

/-- A custom-2 word with funct3 4 and a funct7. -/
def isSync (k w : Nat) : Bool := decide (iOp w = 0x5B) && decide (iF3 w = 4) && decide (iF7 w = k)

/-- The endpoint a core's packets leave from (R18). -/
def coreEp (c : Nat) : Nat := 608 + c % 16

/-- A core that waits for the acknowledgement of its earlier requests goes on once they are all answered: TCRED sends its
credit and completes, HARR and HARRW send their arrival (R285, R289); CLEAN completes once its write-backs are. -/
def fencePassed (c : Nat) (s : State) : State :=
  if (s.core c).wait = some .clean then
    if cleaning s c then s else s.modCore c (fun x => { x with wait := none }.retire 4)
  else if postedBy s c then s
  else match (s.core c).wait with
    | some (.credit node tally amount) =>
      (s.send (coreEp c) (.coreCredit c) (creditPacket node tally amount false) node.isSome).modCore c
        (fun x => { x with wait := none }.retire 4)
    | some (.arrive h tw false) =>
      (s.modCore c (fun x => { x with wait := some (.arrive h tw true) })).send (coreEp c) (.coreArrive c h)
        { opcode := opARRIVE, cls := clsSYNC, tally := h + 1024 * c }
    | _ => s

/-- TCRED; with `clean`, TCRED.C. -/
def runTcred (clean : Bool) (c word : Nat) (s : State) : State :=
  let x := s.core c
  let a := (x.getX (iRs1 word)).toNat
  let amount := (x.getX (iRs2 word)).toNat % 2 ^ 16
  let node := if bitOf a 63 then some (bitsOf a 32 16) else none
  if iRd word ≠ 0 then takeIllegal c word s
  else
    let s := if clean then s.cleanShared c else s
    if amount = 0 then s.modCore c (fun x => x.retire 4)
    else fencePassed c (s.modCore c (fun x => { x with wait := some (.credit node (bitsOf a 0 17) amount) }))

def execTcred (c : Nat) (s : State) : Host.Outcome State Fault Refusal := .next (onWord c (isSync 0) (runTcred false c) s)
def execTcredC (c : Nat) (s : State) : Host.Outcome State Fault Refusal := .next (onWord c (isSync 1) (runTcred true c) s)

/-- TWAIT: a distance of 0 completes at once; else the wait ends by TALLY_WAIT_COMPLETE (R226, R291). -/
def runTwait (c word : Nat) (s : State) : State :=
  let x := s.core c
  let i := (x.getX (iRs1 word)).toNat
  let d := (x.getX (iRs2 word)).toNat % 2 ^ 31
  if iRd word ≠ 0 ∨ 191 < i then takeIllegal c word s
  else
    let s := s.modCore c (fun x => { x with wait := some (.tally i d) })
    if d = 0 then coreTallyDone c s else s

def execCoreTwait (c : Nat) (s : State) : Host.Outcome State Fault Refusal := .next (onWord c (isSync 2) (runTwait c) s)

/-- HWAIT: complete where the pending bit is clear (R117). -/
def waitHurdle (c h : Nat) (s : State) : State :=
  s.modCore c (fun x => if Table.get false x.pendingH h then { x with wait := some (.hurdle h) } else x.retire 4)

/-- HARR and HARRW (R285, R290). -/
def runHarr (thenWait : Bool) (c word : Nat) (s : State) : State :=
  let x := s.core c
  let h := (x.getX (iRs1 word)).toNat % 1024
  if iRd word ≠ 0 then takeIllegal c word s
  else if Table.get false x.pendingH h then
    if thenWait then waitHurdle c h s else (s.raiseBit .prcSyncStatus 0 c).modCore c (fun x => x.retire 4)
  else fencePassed c ((s.cleanShared c).modCore c (fun x => { x with wait := some (.arrive h thenWait false) }))

def runHwait (c word : Nat) (s : State) : State :=
  let x := s.core c
  if iRd word ≠ 0 then takeIllegal c word s else waitHurdle c ((x.getX (iRs1 word)).toNat % 1024) s

def execCoreHarr (c : Nat) (s : State) : Host.Outcome State Fault Refusal := .next (onWord c (isSync 3) (runHarr false c) s)
def execCoreHwait (c : Nat) (s : State) : Host.Outcome State Fault Refusal := .next (onWord c (isSync 4) (runHwait c) s)
def execCoreHarrw (c : Nat) (s : State) : Host.Outcome State Fault Refusal := .next (onWord c (isSync 5) (runHarr true c) s)

/-! ### PAMO -/

/-- The cached line of an address goes back to memory and leaves the caches. -/
def State.evict (s : State) (pa : Nat) : State :=
  let s := s.writeBack (pa / 64)
  { s with lines := Table.set none s.lines (pa / 64) none }

/-- Whether a posted atomic on memory of this node must wait: its port takes nothing more. -/
def atomicWaits (s : State) (pa : Nat) : Bool :=
  match s.attrOf pa with
  | .io => false
  | .aperture _ => false
  | _ => portStalled s ((s.epOf pa).getD 0)

/-- A posted atomic on memory of this node: an ERR is a posted error (R207, R294). Where requests to its sector wait at its
endpoint, or its page is marked, it waits there behind them (R206, R220, R445). -/
def atomicLocal (c pa status : Nat) (operand : List Byte) (s : State) : State :=
  let s := if (s.attrOf pa).cached then s.evict pa else s
  let code := match placeOf pa with
    | .sram t _ => if s.tileOn t then errATOM_DENIED else errPENNED
    | _ => s.readCode pa
  if s.routeCode opATOM pa ≠ 0 then s.postLocal c pa (s.routeCode opATOM pa)
  else if s.portWaits (pa / 32 * 32) 1 true ∨ (pa < 0x8000000000 ∧ s.marked (pa / 0x10000)) then
    s.queueAtPort (coreEp c) (.coreAtom c pa) { opcode := opATOM, offset := pa, status := status, data := padTo 32 operand }
  else if code ≠ 0 then (s.afterRead pa 1).postLocal c pa code
  else applyAtomic pa status operand (s.afterRead pa 1)

/-- PAMO: the rd field holds OP, SGN and W64. -/
def runPamo (c word : Nat) (s : State) : State :=
  let x := s.core c
  let op := iRd word % 8
  let w := if bitOf (iRd word) 4 then 8 else 4
  let va := (x.getX (iRs1 word)).toNat
  let operand := bytesOf w (x.getX (iRs2 word)).toNat
  if 5 < op ∨ (bitOf (iRd word) 3 ∧ op < 4) then takeIllegal c word s
  else if va % w ≠ 0 then takeException c causeStoreMisaligned va s
  else match reach c va .store s with
    | none => s
    | some (s, .error e) => takeException c e va s
    | some (s, .ok pa) =>
      if atomicWaits s pa then s else
      let s := match s.attrOf pa with
        | .io => s.postLocal c pa errUNMAPPED
        | .aperture a =>
          s.send (coreEp c) (.coreAtom c pa)
            (addressed { opcode := opATOM, cls := clsREQ, nsect := 1, status := iRd word, data := padTo 32 operand } true
              (s.apertureFar a pa) 0) true
        | _ => atomicLocal c pa (iRd word) operand s
      s.modCore c (fun x => x.retire 4)

def execPamo (c : Nat) (s : State) : Host.Outcome State Fault Refusal := .next (onWord c (isSync 6) (runPamo c) s)

/-- CLEAN (R285): it completes when its write-backs are acknowledged. -/
def runClean (c word : Nat) (s : State) : State :=
  if iRd word ≠ 0 then takeIllegal c word s
  else fencePassed c ((s.cleanShared c).modCore c (fun x => { x with wait := some .clean }))

def execClean (c : Nat) (s : State) : Host.Outcome State Fault Refusal := .next (onWord c (isSync 7) (runClean c) s)

end Sys2Proof.Machine
end

