-- ==== Sys2Proof/Machine/I3c.lean ====
section
/-! DEFINITION. The I3C target (R386 to R388), with the meanings of its commands. -/

namespace Sys2Proof.Machine

/-- The target answers: the node is neither OFF nor in a reset hold. -/
def i3cUp (s : State) : Bool := !s.brc.off && s.brc.hold.isNone

/-- P0 has formed the provisioned ID (R387), before any thermal wait of P0 (R379). -/
def pidFormed (s : State) : Bool := i3cUp s && s.idFormed

/-- A dynamic address is assigned. -/
def addressedI3c (s : State) : Bool := i3cUp s && s.brc.da.isSome

/-- HOT_JOIN: once the ID is formed and Hot-Join enabled, while no address is assigned. -/
def hotJoinDue (s : State) : Bool := pidFormed s && bitOf s.brc.i3cEvents 3 && s.brc.da.isNone && !s.brc.hotJoinReq

def execHotJoin (s : State) : Host.Outcome State Fault Refusal :=
  act (hotJoinDue s) (fun s => { s with brc := { s.brc with hotJoinReq := true } }) s

/-- ENTDAA: the target without an address takes the one assigned. -/
def assignAddress (da : BitVec 7) (s : State) : State :=
  let s := s.setField .brcI3c 0 0 0 8 (da.toNat + 2 ^ 7)
  { s with brc := { s.brc with da := some da, hotJoinReq := false } }

def execEntdaa (da : BitVec 7) (s : State) : Host.Outcome State Fault Refusal :=
  act (pidFormed s && s.brc.da.isNone) (assignAddress da) s

/-- RSTDAA. -/
def clearAddress (s : State) : State :=
  { s.setField .brcI3c 0 0 0 8 0 with brc := { s.brc with da := none } }

def execRstdaa (s : State) : Host.Outcome State Fault Refusal := act (i3cUp s) clearAddress s

/-- ENEC and DISEC: the event bits named are enabled or disabled. -/
def execEnec (b : Byte) (s : State) : Host.Outcome State Fault Refusal :=
  act (i3cUp s) (fun s => { s with brc := { s.brc with i3cEvents := s.brc.i3cEvents ||| b.toNat } }) s

def execDisec (b : Byte) (s : State) : Host.Outcome State Fault Refusal :=
  act (i3cUp s) (fun s => { s with brc := { s.brc with i3cEvents := s.brc.i3cEvents ^^^ (s.brc.i3cEvents &&& b.toNat) } }) s

/-- The bytes that the target returns next. -/
def i3cReturn (b : List Byte) (s : State) : State := { s with brc := { s.brc with i3cAnswer := b } }

def execGetpid (s : State) : Host.Outcome State Fault Refusal :=
  act (addressedI3c s) (i3cReturn (bytesBE 6 (s.field .brcI3c 0 0 8 48))) s

def execGetbcr (s : State) : Host.Outcome State Fault Refusal :=
  act (addressedI3c s) (i3cReturn (bytesOf 1 (s.field .brcI3c 0 0 56 8))) s

def execGetdcr (s : State) : Host.Outcome State Fault Refusal := act (addressedI3c s) (i3cReturn [0]) s

/-- Two bytes whose value the spec does not give: free (log entry 2). -/
def i3cReturnFree (s : State) : State := (i3cReturn ((padTo 2 (Config.freeBytes s.freeCtr)).take 2) s).fresh

def execGetstatus (s : State) : Host.Outcome State Fault Refusal := act (addressedI3c s) i3cReturnFree s
def execGetmwl (s : State) : Host.Outcome State Fault Refusal := act (addressedI3c s) i3cReturnFree s
def execGetmrl (s : State) : Host.Outcome State Fault Refusal := act (addressedI3c s) i3cReturnFree s

/-- RSTACT: the defining byte is kept for the next target reset pattern (R388). -/
def execRstact (b : Byte) (s : State) : Host.Outcome State Fault Refusal :=
  act (i3cUp s) (fun s => { s with brc := { s.brc with rstact := some b } }) s

/-- I3C_TARGET_RESET: ignored after RSTACT with 0x00, else a reset with cause I3C (R388). -/
def execI3cTargetReset (s : State) : Host.Outcome State Fault Refusal :=
  act (decide (s.brc.rstact ≠ some 0)) (fun s => recognise causeI3C 0 s) s

/-! ### Private transfers (R388) -/

/-- Whether an address lies in the BRC, AKM or PWR block. -/
def i3cReaches (a : Nat) : Bool :=
  decide (0xF0000000000 ≤ a) && decide (a < 0xFD000000000) && [9, 11, 12].elem (blockOf a)

/-- REGRD: status, then 8 bytes of data; the data of a denied read is not stated: free. -/
def i3cReadReg (a : Nat) (s : State) : State :=
  if i3cReaches a = false then (i3cReturn (2 :: (padTo 8 (Config.freeBytes s.freeCtr)).take 8) s).fresh
  else
    let s := fetchRegister .akm a s
    if s.answer.1 = 0 then i3cReturn (0 :: bytesOf 8 s.answer.2.toNat) s
    else i3cReturn (1 :: bytesOf 8 (0x7FF4000000000E00 + s.answer.1)) s

def execI3cRegrd (a : Nat) (s : State) : Host.Outcome State Fault Refusal := act (addressedI3c s) (i3cReadReg a) s

/-- REGWR. -/
def i3cWriteReg (a : Nat) (v : Word) (s : State) : State :=
  if i3cReaches a = false then i3cReturn [2] s
  else
    let s := writeRegister .akm a v s
    i3cReturn [if s.answer.1 = 0 then 0 else 1] s

def execI3cRegwr (a : Nat) (v : Word) (s : State) : Host.Outcome State Fault Refusal := act (addressedI3c s) (i3cWriteReg a v) s

/-- A flash operation over I3C: DENIED outside BOOT_FAIL and outside the slots, BAD_MSG where it breaks its layout. While another
runs it waits its turn (log entry 38). -/
def i3cFlash (op : FlashOp) (good : Bool) (a : Nat) (s : State) : State :=
  if s.bootState ≠ 2 ∨ 0x4000000 ≤ a then i3cReturn [2] s
  else if good = false then i3cReturn [3] s
  else if s.brc.flashOp.isSome then
    { s with brc := { s.brc with i3cAnswer := [], flashWait := s.brc.flashWait ++ [op] } }
  else { s with brc := { s.brc with i3cAnswer := [], flashOp := some op, flashFor := none, flashI3c := true } }

def execI3cFlashErase (a : Nat) (s : State) : Host.Outcome State Fault Refusal :=
  act (addressedI3c s) (i3cFlash (.erase a) (decide (a % 0x10000 = 0)) a) s

def execI3cFlashProgram (a : Nat) (bytes : List Byte) (s : State) : Host.Outcome State Fault Refusal :=
  act (addressedI3c s) (i3cFlash (.program a bytes) (decide (a % 256 = 0) && decide (bytes.length = 256)) a) s

end Sys2Proof.Machine
end

