-- ==== Sys2Proof/Machine/Response.lean ====
section
/-! DEFINITION. What a requester does with a response (R99 to R101, R117, R271, R273, R274, R290 to R294, R324, R327 to R329,
R342, R345, R367), with the meanings of RDATA, ACK, ERR and DECLINE. -/

namespace Sys2Proof.Machine

/-- The offset under which a WRITE's credit counts among its pieces: after every byte of its data, so that a piece's failure goes
before it (R446). -/
def afterData : Nat := 2 ^ 32

/-- An answer as a requester takes it: data, an acknowledgement, an ERR code, or DECLINE to a prefetch. -/
inductive Answer where
  | data (b : List Byte)
  | ack
  | err (code : Nat)
  | decline
  deriving DecidableEq, Repr

/-- The bytes an answer to a read of `n` sectors delivers: data, or poison sectors of the code (R273). -/
def Answer.bytes (a : Answer) (n : Nat) : List Byte :=
  match a with
  | .data b => b
  | .err c => poisonSectors c n
  | _ => []

/-- The ERR code of an answer, or 0. -/
def Answer.code : Answer → Nat
  | .err c => c
  | _ => 0

/-! ### Tiles -/

/-- The entry of an instruction in flight. -/
def Tile.flying (x : Tile) (u : TileUnit) (disp : Nat) : Option Entry :=
  (x.inflight.find? (fun f => decide (f.unit = u) && decide (f.entry.disp = disp))).map (·.entry)

/-- A piece of a LOAD arrives (R99): its sectors are written, poison sectors with LOAD_ERR for an ERR. -/
def loadArrived (t disp dst n : Nat) (a : Answer) (s : State) : State :=
  match (s.tile t).flying .load disp with
  | none => s
  | some e =>
    let s := if a.code ≠ 0 then raiseExc t excLOAD_ERR e.at_ disp (e.addr 0).val s else s
    pieceDone t .load disp (localSectors t e dst (a.bytes n) n s)

/-- A prefetched piece arrives (R82, R83): staged, or written where its LOAD has issued; a DECLINE is read again then. -/
def prefetchArrived (t disp dst n : Nat) (a : Answer) (s : State) : State :=
  let x := s.tile t
  let mine (g : Staged) : Bool := decide (g.disp = disp) && decide (g.dst = dst)
  if ¬ x.staged.any mine then s
  else
    let unstaged := s.modTile t (fun x => { x with staged := x.staged.filter (fun g => !mine g) })
    let mark (g : Staged → Staged) : State := s.modTile t (fun x => { x with staged := x.staged.map (fun y => if mine y then g y else y) })
    match a, x.flying .load disp with
    | .data b, some e => pieceDone t .load disp (localSectors t e dst b n unstaged)
    | .data b, none => mark (fun g => { g with data := some b })
    | _, some e =>
      let far := e.addr 0
      unstaged.send t (.tileLoad t disp dst n)
        (addressed { opcode := opRD, nsect := n } far.glb far.val (dst - (e.addr 1).val)) far.glb
    | _, none => mark (fun g => { g with declined := true })

/-- A write of a STORE is answered (R100, R101). -/
def storeAnswered (t disp : Nat) (a : Answer) (s : State) : State :=
  match (s.tile t).stores.find? (fun w => decide (w.disp = disp)) with
  | none => s
  | some w =>
    let bad := decide (a.code ≠ 0)
    let s := if bad then raiseExc t excSTORE_ERR w.at_ disp w.addr.val s else s
    finishStore t disp (modStore t disp (fun w => { w with left := w.left - 1, err := w.err || bad }) s)

/-- The credit packet of a STORE is answered: the STORE is acknowledged (R100, R101). -/
def storeCreditAnswered (t disp : Nat) (a : Answer) (s : State) : State :=
  match (s.tile t).stores.find? (fun w => decide (w.disp = disp)) with
  | none => s
  | some w =>
    let s := if a.code ≠ 0 then raiseExc t excSTORE_ERR w.at_ disp w.addr.val s else s
    s.modTile t (fun x => { x with stores := x.stores.filter (fun w => decide (w.disp ≠ disp)) })

/-- A posted atomic of a tile is answered (R119). -/
def atomAnswered (t disp at_ addr : Nat) (a : Answer) (s : State) : State :=
  if (s.tile t).atoms.elem disp = false then s
  else
    let s := if a.code ≠ 0 then raiseExc t excSTORE_ERR at_ disp addr s else s
    s.modTile t (fun x => { x with atoms := x.atoms.filter (fun d => decide (d ≠ disp)) })

/-- A refused arrival of a tile (R117): SYNC_ERR, and the pending bit clears. -/
def arriveAnswered (t h disp at_ : Nat) (a : Answer) (s : State) : State :=
  if a.code = 0 ∨ (s.tile t).state = .idle then s
  else clearPendingTile t h (raiseExc t excSYNC_ERR at_ disp 0 s)

/-! ### Cores -/

/-- A scalar load through an aperture is answered (R293). -/
def coreLoadAnswered (c va : Nat) (d : LoadDest) (a : Answer) (s : State) : State :=
  if (s.core c).wait ≠ some .load then s
  else
    let code := a.code
    let v := if code = 0 then natOf (slice (a.bytes 1) (va % 32) d.width) else errorValue d.width code
    let s := s.modCore c (fun x => d.put v { x with wait := none })
    if code = 0 then s else takeLoadError c va code s

/-- An element of a vector load through an aperture is answered; with the last one the core goes on (R293, R305). -/
def coreVLoadAnswered (c va vd sew i : Nat) (a : Answer) (s : State) : State :=
  if (s.core c).wait ≠ some .load then s
  else
    let bytes := 2 ^ sew
    let code := a.code
    let s := s.modCore c (fun x =>
      if code = 0 then x.setE (8 * bytes) vd i (natOf (slice (a.bytes 1) (va % 32) bytes))
      else (x.setE (8 * bytes) vd i (errorValue bytes code)).noteLoadErr i va code)
    if vLoading s c then s
    else
      let s := s.modCore c (fun x => { x with wait := none })
      if (s.core c).lvstart = 0 then raiseLoadErr c s else s

/-- A posted request of a core is answered: an ERR is a posted error, and a fence may open (R285, R294). -/
def corePostedAnswered (c mtval : Nat) (a : Answer) (s : State) : State :=
  fencePassed c (if a.code = 0 then s else s.postError c mtval a.code)

/-- The hub answers a core's arrival (R290). The pending bit is not set where the release came first. -/
def coreArriveAnswered (c h : Nat) (a : Answer) (s : State) : State :=
  match (s.core c).wait with
  | some (.arrive h' tw true) =>
    if h' ≠ h then s
    else if a.code ≠ 0 then takeException c causeSYNC_ERROR h (s.modCore c (fun x => { x with wait := none }))
    else
      let listed := (s.hurdle h).arrived.elem (576 + c)
      s.modCore c (fun x =>
        let x := { x with wait := none, pendingH := Table.set false x.pendingH h listed }
        if tw ∧ listed then { x with wait := some (.hurdle h) } else x.retire 4)
  | _ => s

/-! ### Engines -/

/-- An output write of a solve is answered (R324). -/
def outputAnswered (e num : Nat) (a : Answer) (s : State) : State :=
  match (s.engine e).results.find? (fun r => decide (r.num = num)) with
  | none => s
  | some r =>
    let bad := decide (a.code ≠ 0)
    let s := if bad then marStatusAt e r.cmd (2 ^ 5) r.sys a.code s else s
    let r := { r with left := r.left - 1, err := r.err || bad }
    if r.left = 0 then
      sendResult e 5 r.cmd r.sys r.tally r.err
        (freeOutput e (fun g => { g with results := g.results.filter (fun q => decide (q.num ≠ num)) }) s)
    else s.modEngine e (fun g => { g with results := g.results.map (fun q => if q.num = num then r else q) })

/-- A piece of a COPY is answered (R329): a read's sectors are written, poison sectors with COPY_ERR for an ERR. -/
def copyAnswered (e : Nat) (read : Option Nat) (a : Answer) (s : State) : State :=
  match (s.engine e).copy with
  | none => s
  | some c =>
    let bad := decide (a.code ≠ 0)
    let s := if bad then marStatus e (2 ^ 7) 0 a.code s else s
    let c := { c with err := c.err || bad }
    match read with
    | some off =>
      let n := ((pieces c.src c.n).find? (fun p => decide (p.1 = off))).map (·.2) |>.getD 0
      let s := (s.writeMem (c.dst + off) (a.bytes n)).goodFrom (c.dst + off) n
      finishCopy e (s.modEngine e (fun g => { g with copy := some { c with reads := c.reads - 1 } }))
    | none => finishCopy e (s.modEngine e (fun g => { g with copy := some { c with writes := c.writes - 1 } }))

/-- The hub answers an engine's arrival (R117, R327, R330). -/
def marArriveAnswered (e h : Nat) (a : Answer) (s : State) : State :=
  match (s.engine e).wait with
  | some (.arrive h' tw) =>
    if h' ≠ h then s
    else
      let s := if a.code = 0 then s
        else marStatus e (2 ^ 9) 0 0 (s.modEngine e (fun g => { g with pendingH := Table.set false g.pendingH h false }))
      let s := s.modEngine e (fun g => { g with wait := none })
      if tw then
        (if Table.get false (s.engine e).pendingH h then s.modEngine e (fun g => { g with wait := some (.hurdle h) })
         else nextCommand e 1 16 s)
      else nextCommand e 1 1 s
  | _ => s

/-! ### The hub, the checkpoint engine and the Crook engine -/

/-- A NODE_ARRIVE is answered (R235): a refusal has it sent again, unless the hurdle has been disarmed since it was sent; any other
ERR raises HURDLE_ROUND. -/
def nodeArriveAnswered (h seq : Nat) (a : Answer) (s : State) : State :=
  match a with
  | .err c =>
    if c = errSYNC_REFUSED then
      (if s.armed h ∧ (s.hurdle h).arriveSeq = some seq then s.setHurdle h { s.hurdle h with resend := some (s.now + 4096) } else s)
    else s.hurdleEvent h 1
  | _ => s

def nodeReleaseAnswered (h : Nat) (a : Answer) (s : State) : State :=
  match a with
  | .err c => if c = errSYNC_REFUSED then s else s.hurdleEvent h 1
  | _ => s

def shearAnswered (d page : Nat) (a : Answer) (s : State) : State :=
  if a.code = 0 then shearAcked page d s else failDestination d s

/-! ### Matching -/

/-- Whether the agent of a request is penned: its answers are consumed (R196, R414). -/
def agentPenned (s : State) (p : Purpose) : Bool :=
  match p.agent with
  | some i => onAgent i (fun t => !s.tileOn t) (fun c => s.corePenned c) (fun e => s.enginePenned e) false
  | none => false

/-- What the requester does with an answer, by what the request was for. -/
def deliverAnswer (r : Request) (a : Answer) (s : State) : State :=
  let n := r.pkt.nsect
  if agentPenned s r.purpose then s
  else match r.purpose with
  | .tileLoad t disp dst k => loadArrived t disp dst k a s
  | .tilePre t disp dst k => prefetchArrived t disp dst k a s
  | .tileStore t disp => storeAnswered t disp a s
  | .tileAtom t disp at_ addr _ => atomAnswered t disp at_ addr a s
  | .tileCredit t disp => storeCreditAnswered t disp a s
  | .tileArrive t h disp at_ => arriveAnswered t h disp at_ a s
  | .coreLoad c va d => coreLoadAnswered c va d a s
  | .coreVLoad c va vd sew i => coreVLoadAnswered c va vd sew i a s
  | .coreRead _ _ => s
  | .coreWrite c pa => corePostedAnswered c pa a s
  | .coreClean c pa => corePostedAnswered c pa a s
  | .coreAtom c pa => corePostedAnswered c pa a s
  | .coreCredit c => corePostedAnswered c r.pkt.tally a s
  | .coreArrive c h => coreArriveAnswered c h a s
  | .marWrite e num => outputAnswered e num a s
  | .marCopyRead e off => copyAnswered e (some off) a s
  | .marCopyWrite e => copyAnswered e none a s
  | .marCredit e bit cmd sys => if a.code = 0 then s else marStatusAt e cmd (2 ^ bit) sys a.code s
  | .marArrive e h => marArriveAnswered e h a s
  | .nodeArrive h => nodeArriveAnswered h r.seq a s
  | .nodeRelease h _ => nodeReleaseAnswered h a s
  | .timeReq => s
  | .ckpShear d page => shearAnswered d page a s
  | .ckpRestore off => restorePiece off a.code (a.bytes n) s
  | .ckpRelay _ _ => if a.code = 0 then s else relayFailed s
  | .hecRead x off => pieceAnswered r.ep x off a.code (some (a.bytes n)) s
  | .hecWrite x off => pieceAnswered r.ep x off a.code none s
  | .hecCredit x => pieceAnswered r.ep x afterData a.code none s
  | .hecLaunch x off lpa => pieceAnswered r.ep x off a.code none (if a.code = 0 then launchPiece lpa s else s)
  | .undertaken => s

/-- The report of an ERR to the driver (R235, R274), with the destination node's ID, this node's own for a local request
(DEDUCED, log entry 48); the port has raised it already for REQ_TMO (R270), and a refused node message is no failure
(R235). -/
def reportRemote (r : Request) (a : Answer) (s : State) : State :=
  match a with
  | .err c =>
    if c = errREQ_TMO ∨ (c = errSYNC_REFUSED ∧ r.ep = 659) then s
    else s.remoteTmo r.ep r.pkt.dstNode c
  | _ => s

/-- Whether a read: its answers are RDATA, ERR and DECLINE; those of other requests ACK and ERR. -/
def Request.isRead (r : Request) : Bool := decide (r.pkt.opcode = opRD) || decide (r.pkt.opcode = opSNRD)

/-- The answer in a response packet to a request; none where it does not fit it. A DECLINE to a read without the prefetch
bit counts as BAD_PACKET, and an ERR to a prefetch as DECLINE (R83, R84, R273). -/
def answerOf (r : Request) (p : Packet) (s : State) : Option Answer :=
  if p.opcode = opRDATA then
    (if r.isRead ∧ p.nsect = r.pkt.nsect then some (.data (withPoison s p.poison p.data p.nsect)) else none)
  else if p.opcode = opACK then (if r.isRead then none else some .ack)
  else if p.opcode = opERR then (if p.status = 0 then none else some (if r.pkt.pf then .decline else .err p.status))
  else if r.isRead then some (if r.pkt.pf then .decline else .err errBAD_PACKET)
  else none

/-- A response with an opcode, at its requester: matched by endpoint and SEQ, the request's record ends, and the requester
acts. One that fails its checks or matches nothing is discarded (R191, R271). -/
def takeAnswer (n op : Nat) (s : State) : State :=
  match s.delivered[n]? with
  | none => s
  | some d =>
    if d.pkt.opcode ≠ op ∨ d.pkt.cls ≠ clsRSP then s
    else
      let s := taken n s
      match s.requests.find? (fun r => decide (r.ep = d.ep) && decide (r.seq = d.pkt.seq)) with
      | none => discardResponse d.ep s
      | some r =>
        match (if wellFormedPacket d.pkt then answerOf r d.pkt s else none) with
        | none => discardResponse d.ep s
        | some a =>
          let s := if d.pkt.poison.isEmpty then s else s.fresh
          let others := s.requests.filter (fun q => !(decide (q.ep = r.ep) && decide (q.seq = r.seq)))
          if 1 < r.left then { s with requests := others ++ [{ r with left := r.left - 1 }] }
          else deliverAnswer r a (reportRemote r a { s with requests := others })

/-- RDATA (R99, R208). -/
def execRdata (n : Nat) (s : State) : Host.Outcome State Fault Refusal := .next (takeAnswer n opRDATA s)

/-- ACK (R100). -/
def execAck (n : Nat) (s : State) : Host.Outcome State Fault Refusal := .next (takeAnswer n opACK s)

/-- ERR (R274). -/
def execErr (n : Nat) (s : State) : Host.Outcome State Fault Refusal := .next (takeAnswer n opERR s)

/-- DECLINE (R83, R273). -/
def execDecline (n : Nat) (s : State) : Host.Outcome State Fault Refusal := .next (takeAnswer n opDECLINE s)

end Sys2Proof.Machine
end

