-- ==== Sys2Proof/Machine/Vxu.lean ====
section
/-! DEFINITION. The vector engine of a tile (chapter 6): registers (R140), integer, fixed-point and floating-point
operations (R145 to R151), correctly rounded functions (R152), conversions (R153 to R155), bank moves (R156 to R158),
memory moves (R159), row reductions (R160 to R162) and derivatives (R164), with the meanings of their commands. -/

namespace Sys2Proof.Machine

/-! ### Registers -/

/-- A group of registers as one integer (R140). -/
def vGroup (x : Tile) (base : Nat) : Nat → Nat
  | 0 => 0
  | n + 1 => Table.get 0 x.vregs base + 2 ^ 4096 * vGroup x (base + 1) n

/-- A group of registers written from one integer. -/
def setVGroup (base : Nat) : Nat → Nat → Tile → Tile
  | 0, _, x => x
  | n + 1, v, x => setVGroup (base + 1) n (v / 2 ^ 4096) { x with vregs := Table.set 0 x.vregs base (v % 2 ^ 4096) }

/-- The elements of one register at a width. -/
def vElements (x : Tile) (w r : Nat) : List Nat := unpackBits w (4096 / w) (Table.get 0 x.vregs r)

/-- A register written from elements, with the flags they raised (R65). -/
def putElements (t w r : Nat) (l : List (Nat × Flags)) (s : State) : State :=
  setFlags t (Flags.union (l.map (·.2)))
    (s.modTile t (fun x => { x with vregs := Table.set 0 x.vregs r (packBits w (l.map (·.1))) }))

/-! ### Timing (R166) -/

/-- Issue ticks of a register operation at a width. -/
def vTicks (w : Nat) : Nat := if w = 8 then 4 else if w = 16 then 2 else 1

/-- Latency of a VR instruction from issue to result. -/
def vLatency (op ty : Nat) : Nat :=
  if op = 0x63 ∨ op = 0x66 ∨ op = 0x6B ∨ op = 0x8C then 5
  else if (op = 0x60 ∨ op = 0x61 ∨ op = 0x62) ∧ tyFloat ty then 4
  else if 0x80 ≤ op ∧ op ≤ 0x85 then 24
  else if op = 0xA5 then 26
  else if 0xA0 ≤ op ∧ op ≤ 0xA6 then 6
  else 2

/-- A vector instruction issues over `n` ticks and its result is there `lat` ticks after the last of them; until that last tick the
VXU issues no other (R166, R434). The latency counts from the last issue tick for every instruction (log entry 32). -/
def vIssued (t : Nat) (e : Entry) (n lat : Nat) (s : State) : State :=
  let free := issueEnd s.skip s.now n
  (issued t .vector e 0 (free - 1 + lat) s).modTile t (fun x => { x with vxuFree := free })

/-- Twice the base-2 logarithm of a number, rounded up: a latency is a whole number of ticks (log entry 32). -/
def twiceLog2 (n : Nat) : Nat := Nat.log2 (n * n - 1) + 1

/-! ### Integer, fixed-point and bit operations (R145 to R148) -/

/-- An element read as its type reads it. -/
def tyInt (ty x : Nat) : Int := if tySigned ty then signedOf (tyWidth ty) x else (x : Int)

/-- The range of a type. -/
def tyLow (ty : Nat) : Int := if tySigned ty then -(2 ^ (tyWidth ty - 1)) else 0
def tyHigh (ty : Nat) : Int := if tySigned ty then 2 ^ (tyWidth ty - 1) - 1 else 2 ^ tyWidth ty - 1

/-- An exact result modulo 2^w. -/
def modTy (ty : Nat) (v : Int) : Nat × Flags := (wrapNat (tyWidth ty) v, {})

/-- An exact result saturated to a type's range (R147). -/
def saturate (ty : Nat) (v : Int) : Nat × Flags :=
  if v < tyLow ty then (wrapNat (tyWidth ty) (tyLow ty), flagOverflow)
  else if tyHigh ty < v then (wrapNat (tyWidth ty) (tyHigh ty), flagOverflow)
  else (wrapNat (tyWidth ty) v, {})

/-- VSLLSAT of one element (R146). -/
def shiftSat (ty x c : Nat) : Nat × Flags :=
  let v := tyInt ty x
  if v = 0 then (0, {})
  else if tyWidth ty ≤ c then saturate ty (if v < 0 then tyLow ty - 1 else tyHigh ty + 1)
  else saturate ty (v * 2 ^ c)

/-- VQMUL of one element (R148). A product that is not zero and rounds to zero sets UNDERFLOW, as R65 has it of every result (log
entry 32). -/
def qMul (rm : Rm) (ty qf a b : Nat) : Nat × Flags :=
  let p := tyInt ty a * tyInt ty b
  let (k, changed) := roundAt rm (decide (p < 0)) p.natAbs (-(qf : Int)) 0 false
  let (v, f) := saturate ty (if p < 0 then -(k : Int) else k)
  (v, { f with inexact := changed, underflow := decide (p ≠ 0) && decide (k = 0) })

/-! ### Floating-point operations (R149 to R151) -/

/-- The canonical NaN of a type where an operand is NaN, else the operation. -/
def unlessNan (f : Fmt) (ops : List Exact) (r : Exact × Flags) (rm : Rm) : Nat × Flags :=
  if ops.any Exact.isNan then (f.canonNan, {})
  else
    let (v, g) := roundFloat f rm r.1
    (v, r.2.or g)

def floatAdd (f : Fmt) (rm : Rm) (a b : Exact) : Nat × Flags := unlessNan f [a, b] (addExact rm a b) rm
def floatMul (f : Fmt) (rm : Rm) (a b : Exact) : Nat × Flags := unlessNan f [a, b] (mulExact a b) rm

/-- VA × VB + VC with one rounding (R149). -/
def floatFma (f : Fmt) (rm : Rm) (a b c : Exact) : Nat × Flags :=
  let (p, g) := mulExact a b
  let (r, h) := addExact rm p c
  unlessNan f [a, b, c] (r, g.or h) rm

/-- VMIN and VMAX (R150): the chosen operand, unchanged. -/
def floatPick (f : Fmt) (largest : Bool) (a b : Nat) : Nat × Flags :=
  let x := decodeFloat f a
  let y := decodeFloat f b
  if x.isNan || y.isNan then (f.canonNan, {})
  else if largest then (if ltOrdered x y then b else a, {})
  else (if ltOrdered y x then b else a, {})

/-- VABS and VNEG (R150). -/
def floatSign (f : Fmt) (flip : Bool) (a : Nat) : Nat × Flags :=
  if (decodeFloat f a).isNan then (f.canonNan, {})
  else
    let top := 2 ^ (f.ebits + f.mbits)
    (if flip then (a + top) % (2 * top) else a % top, {})

/-- A mask of all ones or zeros (R151). -/
def maskOf (w : Nat) (b : Bool) : Nat × Flags := (if b then 2 ^ w - 1 else 0, {})

/-! ### The element functions of the VR instructions -/

/-- The operands of one element: type, QF, rounding mode and the elements of VA, operand B and VC. -/
structure VArgs where
  ty : Nat
  qf : Nat
  rm : Rm
  a : Nat
  b : Nat
  c : Nat
  deriving DecidableEq, Repr

def VArgs.w (v : VArgs) : Nat := tyWidth v.ty
def VArgs.fmt (v : VArgs) : Fmt := tyFmt v.ty
def VArgs.xa (v : VArgs) : Exact := decodeFloat v.fmt v.a
def VArgs.xb (v : VArgs) : Exact := decodeFloat v.fmt v.b
def VArgs.xc (v : VArgs) : Exact := decodeFloat v.fmt v.c
def VArgs.ia (v : VArgs) : Int := tyInt v.ty v.a
def VArgs.ib (v : VArgs) : Int := tyInt v.ty v.b

def elAdd (v : VArgs) : Nat × Flags := if tyFloat v.ty then floatAdd v.fmt v.rm v.xa v.xb else modTy v.ty (v.ia + v.ib)
def elSub (v : VArgs) : Nat × Flags :=
  if tyFloat v.ty then floatAdd v.fmt v.rm v.xa v.xb.negate else modTy v.ty (v.ia - v.ib)
def elMul (v : VArgs) : Nat × Flags := if tyFloat v.ty then floatMul v.fmt v.rm v.xa v.xb else modTy v.ty (v.ia * v.ib)
def elMulh (v : VArgs) : Nat × Flags := modTy v.ty (v.ia * v.ib / 2 ^ v.w)
def elAddsat (v : VArgs) : Nat × Flags := saturate v.ty (v.ia + v.ib)
def elSubsat (v : VArgs) : Nat × Flags := saturate v.ty (v.ia - v.ib)
def elMulsat (v : VArgs) : Nat × Flags := saturate v.ty (v.ia * v.ib)
def elMin (v : VArgs) : Nat × Flags :=
  if tyFloat v.ty then floatPick v.fmt false v.a v.b else (if v.ib < v.ia then v.b else v.a, {})
def elMax (v : VArgs) : Nat × Flags :=
  if tyFloat v.ty then floatPick v.fmt true v.a v.b else (if v.ia < v.ib then v.b else v.a, {})
def elAbs (v : VArgs) : Nat × Flags :=
  if tyFloat v.ty then floatSign v.fmt false v.a else if tySigned v.ty then saturate v.ty v.ia.natAbs else (v.a, {})
def elNeg (v : VArgs) : Nat × Flags :=
  if tyFloat v.ty then floatSign v.fmt true v.a else if tySigned v.ty then saturate v.ty (-v.ia) else modTy v.ty (-v.ia)
def elFma (v : VArgs) : Nat × Flags := floatFma v.fmt v.rm v.xa v.xb v.xc
def elSll (v : VArgs) : Nat × Flags := (if v.w ≤ v.b then 0 else v.a * 2 ^ v.b % 2 ^ v.w, {})
def elSrl (v : VArgs) : Nat × Flags := (if v.w ≤ v.b then 0 else v.a / 2 ^ v.b, {})
def elSra (v : VArgs) : Nat × Flags :=
  let x := signedOf v.w v.a
  (wrapNat v.w (if v.w ≤ v.b then (if x < 0 then -1 else 0) else x / 2 ^ v.b), {})
def elSllsat (v : VArgs) : Nat × Flags := shiftSat v.ty v.a v.b
def elAnd (v : VArgs) : Nat × Flags := (v.a &&& v.b, {})
def elOr (v : VArgs) : Nat × Flags := (v.a ||| v.b, {})
def elXor (v : VArgs) : Nat × Flags := (v.a ^^^ v.b, {})
def elNot (v : VArgs) : Nat × Flags := (2 ^ v.w - 1 - v.a, {})
def elCmpeq (v : VArgs) : Nat × Flags :=
  maskOf v.w (if tyFloat v.ty then eqExact v.xa v.xb else decide (v.a = v.b))
def elCmplt (v : VArgs) : Nat × Flags :=
  maskOf v.w (if tyFloat v.ty then ltExact v.xa v.xb else decide (v.ia < v.ib))
def elCmple (v : VArgs) : Nat × Flags :=
  maskOf v.w (if tyFloat v.ty then ltExact v.xa v.xb || eqExact v.xa v.xb else decide (v.ia ≤ v.ib))
def elSel (v : VArgs) : Nat × Flags := (if v.c ≠ 0 then v.a else v.b, {})
def elExp2 (v : VArgs) : Nat × Flags := exp2Fp32 v.a
def elLog2 (v : VArgs) : Nat × Flags := log2Fp32 v.a
def elRcp (v : VArgs) : Nat × Flags := rcpFp32 v.a
def elRsqrt (v : VArgs) : Nat × Flags := rsqrtFp32 v.a
def elSinpi (v : VArgs) : Nat × Flags := sinpiFp32 v.a
def elCospi (v : VArgs) : Nat × Flags := cospiFp32 v.a
def elQmul (v : VArgs) : Nat × Flags := qMul v.rm v.ty v.qf v.a v.b

/-! ### Derivatives (R164) -/

def xOne : Exact := exactOfInt 1 0

/-- Whether y > 0. -/
def positive (y : Exact) : Bool := ltExact (exactOfInt 0 0) y

/-- RM(dy × g), with the canonical NaN where an operand is NaN. -/
def derive (v : VArgs) (ops : List Exact) (g : Exact × Flags) : Nat × Flags :=
  let (p, f) := mulExact v.xa g.1
  unlessNan v.fmt (v.xa :: ops) (p, g.2.or f) v.rm

/-- 1 − x, exactly. Where g of R164 is exactly zero its sign is that of the sum under RNE, whatever RM holds (DESIGN CHOICE, log
entry 32). -/
def oneMinus (x : Exact) : Exact × Flags := addExact .rne xOne x.negate

def elDrelu (v : VArgs) : Nat × Flags := derive v [v.xb] (if positive v.xb then xOne else exactOfInt 0 0, {})
def elDlrelu (v : VArgs) : Nat × Flags := derive v [v.xb, v.xc] (if positive v.xb then xOne else v.xc, {})
def elDsigm (v : VArgs) : Nat × Flags :=
  let (d, f) := oneMinus v.xb
  let (g, h) := mulExact v.xb d
  derive v [v.xb] (g, f.or h)
def elDtanh (v : VArgs) : Nat × Flags :=
  let (q, f) := mulExact v.xb v.xb
  let (g, h) := oneMinus q
  derive v [v.xb] (g, f.or h)
def elDelu (v : VArgs) : Nat × Flags :=
  derive v [v.xb, v.xc] (if positive v.xb then (xOne, {}) else addExact .rne v.xb v.xc)
def elDsoftp (v : VArgs) : Nat × Flags :=
  let (e, f) := expNegFp32 v.b v.xb
  let (g, h) := oneMinus (decodeFloat fmtFp32 e)
  derive v [v.xb] (g, f.or h)
def elDexp (v : VArgs) : Nat × Flags := derive v [v.xb] (v.xb, {})

/-! ### VR instructions -/

/-- Operand B: the register's elements, or the immediate in every element (R143). -/
def operandB (x : Tile) (e : Entry) (w : Nat) : List Nat :=
  if bitOf e.word 12 then List.replicate (4096 / w) (e.ext % 2 ^ w) else vElements x w (bitsOf e.word 27 5)

/-- A VR instruction runs: every element of VD from those of VA, operand B and VC (R142, R143). -/
def runVr (f : VArgs → Nat × Flags) (t : Nat) (e : Entry) (s : State) : State :=
  let ty := bitsOf e.word 42 4
  let w := tyWidth ty
  let x := s.tile t
  let rm := rmOf (bitsOf e.word 19 3) 0
  let qf := bitsOf e.word 13 6
  let out := (List.zip (vElements x w (bitsOf e.word 32 5)) (List.zip (operandB x e w) (vElements x w (bitsOf e.word 22 5)))).map
    (fun p => f ⟨ty, qf, rm, p.1, p.2.1, p.2.2⟩)
  putElements t w (bitsOf e.word 37 5) out
    (vIssued t e (vTicks w) (vLatency e.opcode ty) s)

/-- Issues a vector instruction once the VXU has issued the one before it, unless the power cap skips the tick (R166, R434). -/
def vectorRow (op t : Nat) (f : Entry → State → State) (s : State) : Host.Outcome State Fault Refusal :=
  unitRow .vector op t (fun e s => if powerReady s && decide ((s.tile t).vxuFree ≤ s.now) then f e s else s) s

/-- VADD (R149). -/
def execVadd (t : Nat) (s : State) : Host.Outcome State Fault Refusal := vectorRow 0x60 t (runVr elAdd t) s

/-- VSUB (R149). -/
def execVsub (t : Nat) (s : State) : Host.Outcome State Fault Refusal := vectorRow 0x61 t (runVr elSub t) s

/-- VMUL (R149). -/
def execVmul (t : Nat) (s : State) : Host.Outcome State Fault Refusal := vectorRow 0x62 t (runVr elMul t) s

/-- VMULH (R145). -/
def execVmulh (t : Nat) (s : State) : Host.Outcome State Fault Refusal := vectorRow 0x63 t (runVr elMulh t) s

/-- VADDSAT (R145). -/
def execVaddsat (t : Nat) (s : State) : Host.Outcome State Fault Refusal := vectorRow 0x64 t (runVr elAddsat t) s

/-- VSUBSAT (R145). -/
def execVsubsat (t : Nat) (s : State) : Host.Outcome State Fault Refusal := vectorRow 0x65 t (runVr elSubsat t) s

/-- VMULSAT (R145). -/
def execVmulsat (t : Nat) (s : State) : Host.Outcome State Fault Refusal := vectorRow 0x66 t (runVr elMulsat t) s

/-- VMIN (R150). -/
def execVmin (t : Nat) (s : State) : Host.Outcome State Fault Refusal := vectorRow 0x67 t (runVr elMin t) s

/-- VMAX (R150). -/
def execVmax (t : Nat) (s : State) : Host.Outcome State Fault Refusal := vectorRow 0x68 t (runVr elMax t) s

/-- VABS (R150). -/
def execVabs (t : Nat) (s : State) : Host.Outcome State Fault Refusal := vectorRow 0x69 t (runVr elAbs t) s

/-- VNEG (R150). -/
def execVneg (t : Nat) (s : State) : Host.Outcome State Fault Refusal := vectorRow 0x6A t (runVr elNeg t) s

/-- VFMA (R149). -/
def execVfma (t : Nat) (s : State) : Host.Outcome State Fault Refusal := vectorRow 0x6B t (runVr elFma t) s

/-- VSLL (R146). -/
def execVsll (t : Nat) (s : State) : Host.Outcome State Fault Refusal := vectorRow 0x70 t (runVr elSll t) s

/-- VSRL (R146). -/
def execVsrl (t : Nat) (s : State) : Host.Outcome State Fault Refusal := vectorRow 0x71 t (runVr elSrl t) s

/-- VSRA (R146). -/
def execVsra (t : Nat) (s : State) : Host.Outcome State Fault Refusal := vectorRow 0x72 t (runVr elSra t) s

/-- VSLLSAT (R146). -/
def execVsllsat (t : Nat) (s : State) : Host.Outcome State Fault Refusal := vectorRow 0x73 t (runVr elSllsat t) s

/-- VAND (R145). -/
def execVand (t : Nat) (s : State) : Host.Outcome State Fault Refusal := vectorRow 0x74 t (runVr elAnd t) s

/-- VOR (R145). -/
def execVor (t : Nat) (s : State) : Host.Outcome State Fault Refusal := vectorRow 0x75 t (runVr elOr t) s

/-- VXOR (R145). -/
def execVxor (t : Nat) (s : State) : Host.Outcome State Fault Refusal := vectorRow 0x76 t (runVr elXor t) s

/-- VNOT (R145). -/
def execVnot (t : Nat) (s : State) : Host.Outcome State Fault Refusal := vectorRow 0x77 t (runVr elNot t) s

/-- VCMPEQ (R151). -/
def execVcmpeq (t : Nat) (s : State) : Host.Outcome State Fault Refusal := vectorRow 0x78 t (runVr elCmpeq t) s

/-- VCMPLT (R151). -/
def execVcmplt (t : Nat) (s : State) : Host.Outcome State Fault Refusal := vectorRow 0x79 t (runVr elCmplt t) s

/-- VCMPLE (R151). -/
def execVcmple (t : Nat) (s : State) : Host.Outcome State Fault Refusal := vectorRow 0x7A t (runVr elCmple t) s

/-- VSEL (R151). -/
def execVsel (t : Nat) (s : State) : Host.Outcome State Fault Refusal := vectorRow 0x7B t (runVr elSel t) s

/-- VEXP2 (R152). -/
def execVexp2 (t : Nat) (s : State) : Host.Outcome State Fault Refusal := vectorRow 0x80 t (runVr elExp2 t) s

/-- VLOG2 (R152). -/
def execVlog2 (t : Nat) (s : State) : Host.Outcome State Fault Refusal := vectorRow 0x81 t (runVr elLog2 t) s

/-- VRCP (R152). -/
def execVrcp (t : Nat) (s : State) : Host.Outcome State Fault Refusal := vectorRow 0x82 t (runVr elRcp t) s

/-- VRSQRT (R152). -/
def execVrsqrt (t : Nat) (s : State) : Host.Outcome State Fault Refusal := vectorRow 0x83 t (runVr elRsqrt t) s

/-- VSINPI (R152). -/
def execVsinpi (t : Nat) (s : State) : Host.Outcome State Fault Refusal := vectorRow 0x84 t (runVr elSinpi t) s

/-- VCOSPI (R152). -/
def execVcospi (t : Nat) (s : State) : Host.Outcome State Fault Refusal := vectorRow 0x85 t (runVr elCospi t) s

/-- VQMUL (R148). -/
def execVqmul (t : Nat) (s : State) : Host.Outcome State Fault Refusal := vectorRow 0x8C t (runVr elQmul t) s

/-- VDRELU (R164). -/
def execVdrelu (t : Nat) (s : State) : Host.Outcome State Fault Refusal := vectorRow 0xA0 t (runVr elDrelu t) s

/-- VDLRELU (R164). -/
def execVdlrelu (t : Nat) (s : State) : Host.Outcome State Fault Refusal := vectorRow 0xA1 t (runVr elDlrelu t) s

/-- VDSIGM (R164). -/
def execVdsigm (t : Nat) (s : State) : Host.Outcome State Fault Refusal := vectorRow 0xA2 t (runVr elDsigm t) s

/-- VDTANH (R164). -/
def execVdtanh (t : Nat) (s : State) : Host.Outcome State Fault Refusal := vectorRow 0xA3 t (runVr elDtanh t) s

/-- VDELU (R164). -/
def execVdelu (t : Nat) (s : State) : Host.Outcome State Fault Refusal := vectorRow 0xA4 t (runVr elDelu t) s

/-- VDSOFTP (R164). -/
def execVdsoftp (t : Nat) (s : State) : Host.Outcome State Fault Refusal := vectorRow 0xA5 t (runVr elDsoftp t) s

/-- VDEXP (R164). -/
def execVdexp (t : Nat) (s : State) : Host.Outcome State Fault Refusal := vectorRow 0xA6 t (runVr elDexp t) s

/-! ### Conversions (R153 to R155) -/

/-- The exact value of a source element of VCVT. -/
def cvtSource (c qf x : Nat) : Exact :=
  match sideFmt c with
  | some f => decodeFloat f x
  | none => exactOfInt (tyInt c x) (if tyQ c then -(qf : Int) else 0)

/-- A destination element of VCVT (R154). -/
def cvtResult (c qf : Nat) (rm : Rm) (v : Exact) : Nat × Flags :=
  match sideFmt c with
  | some f => roundFloat f rm v
  | none =>
    let (k, f) := roundInt rm (if tyQ c then qf else 0) (tyLow c) (tyHigh c) v
    (wrapNat (sideWidth c) k, f)

/-- One element converted; a copy where source and destination are the same type, with the canonical NaN for a NaN. -/
def cvtElement (dst src qf : Nat) (rm : Rm) (x : Nat) : Nat × Flags :=
  if dst = src then
    match sideFmt src with
    | some f => (if (decodeFloat f x).isNan then f.canonNan else x, {})
    | none => (x, {})
  else cvtResult dst qf rm (cvtSource src qf x)

/-- VCVT runs: a whole group (R153); under RM = 4 each element takes its random value (R155). -/
def runVcvt (t : Nat) (e : Entry) (s : State) : State :=
  let dst := bitsOf e.word 27 5
  let src := bitsOf e.word 22 5
  let code := bitsOf e.word 19 3
  let qf := bitsOf e.word 13 6
  let gsr := (e.addr 0).val
  if code = 4 ∧ gsr % 32 ≠ 0 then failIssue t .vector excMISALIGNED gsr e s
  else
    let n := cvtElements dst src
    let wide := decide (sideWidth dst = 64) || decide (sideWidth src = 64)
    let ticks := if wide then n / 64 else n / 128
    let s := vIssued t e ticks 4 s
    let s := if code = 4 then boundRead t e gsr 32 s else s
    let d := readDescriptor s t gsr
    let step := s.getReg (regAddr .synStep)
    let xs := unpackBits (sideWidth src) n (vGroup (s.tile t) (bitsOf e.word 32 5) (cvtRegs dst src src))
    let out := (List.zip (List.range n) xs).map (fun p =>
      cvtElement dst src qf (rmOf code (if code = 4 then d.random step (p.1 / 32) (p.1 % 32) else 0)) p.2)
    setFlags t (Flags.union (out.map (·.2)))
      (s.modTile t (setVGroup (bitsOf e.word 37 5) (cvtRegs dst src dst) (packBits (sideWidth dst) (out.map (·.1)))))

/-- VCVT (R153). -/
def execVcvt (t : Nat) (s : State) : Host.Outcome State Fault Refusal := vectorRow 0x88 t (runVcvt t) s

/-! ### VACC (R156 to R158) -/

/-- A bank value written as FP32 or FP64 (R156): the values of a B32 bank are FP32 results, widened exactly. -/
def vaccValue (b : Bank) (wide : Bool) (m n : Nat) : Nat × Flags :=
  let (x, f) := bankValue b .rne m n
  if wide then
    let (x, g) := if b.kind = .b32 then
        let (v, g) := roundFloat fmtFp32 .rne x
        (decodeFloat fmtFp32 v, g)
      else (x, {})
    let (v, h) := roundFloat fmtFp64 .rne x
    (v, (f.or g).or h)
  else
    let (v, g) := roundFloat fmtFp32 .rne x
    (v, f.or g)

/-- Modes 0 and 1: element 32s + c is bank row ROW + s, column 32 × PART + c. -/
def vaccRead (t : Nat) (e : Entry) (wide : Bool) (s : State) : State :=
  let b := (s.tile t).bank e.bank
  let w := if wide then 64 else 32
  let row := bitsOf e.word 30 7
  let col := 32 * bitsOf e.word 28 2
  let nan := if wide then fmtFp64.canonNan else fmtFp32.canonNan
  let out := (List.range (4096 / w)).map (fun i =>
    if b.chain.isSome then (nan, ({} : Flags)) else vaccValue b wide (row + i / 32) (col + i % 32))
  putElements t w (bitsOf e.word 37 5) out s

/-- Mode 2: 32 records. -/
def vaccRecords (t : Nat) (e : Entry) (s : State) : State :=
  let b := (s.tile t).bank e.bank
  let row := bitsOf e.word 30 7
  let col := 32 * bitsOf e.word 28 2
  let data := (List.range 32).flatMap (fun c =>
    if b.chain.isSome then openRecord b else recordOf b.frac (b.accAt row (col + c)))
  s.modTile t (fun x => { x with vregs := Table.set 0 x.vregs (bitsOf e.word 37 5) (natOf data) })

/-- One record of mode 3 into the bank (R157); a bank of another kind takes NAN and ACC_MISMATCH. -/
def vaccInto (b : Bank) (row col : Nat) (rec : List Byte) : Bank × Flags :=
  let k := accKey row col
  match b.kind with
  | .short =>
    let (r, f) := accOfRecord b.frac rec
    ({ b with acc := Table.set b.dflt b.acc k ((b.accAt row col).combine r) }, f)
  | .b32 => ({ b with res := Table.set 0 b.res k fmtFp32.canonNan }, flagMismatch)
  | .f64 => ({ b with res := Table.set 0 b.res k fmtFp64.canonNan }, flagMismatch)

/-- Mode 3: 32 records added into the bank; an open chain takes nothing (R158). -/
def vaccAdd (t : Nat) (e : Entry) (s : State) : State :=
  let b := (s.tile t).bank e.bank
  let row := bitsOf e.word 30 7
  let col := 32 * bitsOf e.word 28 2
  let data := bytesOf 512 (Table.get 0 (s.tile t).vregs (bitsOf e.word 37 5))
  let s := if b.chain.isSome then s else
    let out := (List.range 32).foldl (fun (x : Bank × Flags) c =>
      let (y, f) := vaccInto x.1 row (col + c) (slice data (16 * c) 16)
      (y, x.2.or f)) (b, {})
    setFlags t out.2 (setBank t e.bank out.1 s)
  noteFinal t e (s.now + 4) true s

/-- VACC issues (R156, R158). In mode 2 on a B32 or F64 bank with an open chain ILLEGAL_OP goes first, as R156 says of a mode marked
so; BANK_OPEN is then not raised (DESIGN CHOICE, log entry 49). -/
def runVacc (t : Nat) (e : Entry) (s : State) : State :=
  let b := (s.tile t).bank e.bank
  let mode := bitsOf e.word 26 2
  if computesFinal (s.tile t) e = false then s
  else if mode = 2 ∧ b.kind ≠ .short then failIssue t .vector excILLEGAL_OP 0 e s
  else
    let s := vIssued t e 1 4 s
    let s := if b.chain.isSome then raiseExc t excBANK_OPEN e.at_ e.disp 0 s else s
    match mode with
    | 0 => vaccRead t e false s
    | 1 => vaccRead t e true s
    | 2 => vaccRecords t e s
    | _ => vaccAdd t e s

/-- VACC (R156). -/
def execVacc (t : Nat) (s : State) : Host.Outcome State Fault Refusal := vectorRow 0x90 t (runVacc t) s

/-! ### VLD and VST (R159) -/

/-- Between the eight registers of a group and a brick of 32-bit elements: element 32s + c of register r is the brick's
element at row c, column 4r + s. -/
def brickFromGroup (v : Nat) : List Byte :=
  let xs := unpackBits 32 1024 v
  bytesOf 4096 (packBits 32 ((List.range 1024).map (fun k =>
    let c := k / 32
    let j := k % 32
    xs.getD (128 * (j / 4) + 32 * (j % 4) + c) 0)))

def groupFromBrick (b : List Byte) : Nat :=
  let xs := unpackBits 32 1024 (natOf b)
  packBits 32 ((List.range 1024).map (fun i =>
    let r := i / 128
    let st := i % 128 / 32
    let c := i % 32
    xs.getD (32 * c + 4 * r + st) 0))

/-- The latency of a memory move: its own, and the transposer's (R166). -/
def vmLatency (e : Entry) : Nat := 3 + (if bitOf e.word 26 then 4 else 0)

def runVld (t : Nat) (e : Entry) (s : State) : State :=
  let vd := bitsOf e.word 37 5
  let n := bitsOf e.word 27 5 + 1
  let off := (e.addr 0).val
  let s := boundRead t e off (512 * n) (vIssued t e n (vmLatency e) s)
  if bitOf e.word 26 then
    forEach (List.range (n / 8)) (fun g s =>
      s.modTile t (setVGroup (vd + 8 * g) 8 (groupFromBrick (localBytes s t (off + 4096 * g) 4096)))) s
  else s.modTile t (setVGroup vd n (natOf (localBytes s t off (512 * n))))

def runVst (t : Nat) (e : Entry) (s : State) : State :=
  let vd := bitsOf e.word 37 5
  let n := bitsOf e.word 27 5 + 1
  let off := (e.addr 0).val
  let s := boundCheck t e off (512 * n) (vIssued t e n (vmLatency e) s)
  let data := if bitOf e.word 26 then
      (List.range (n / 8)).flatMap (fun g => brickFromGroup (vGroup (s.tile t) (vd + 8 * g) 8))
    else bytesOf (512 * n) (vGroup (s.tile t) vd n)
  localSectors t e off data (16 * n) s

/-- VLD (R159). -/
def execVld (t : Nat) (s : State) : Host.Outcome State Fault Refusal := vectorRow 0xB0 t (runVld t) s

/-- VST (R159). -/
def execVst (t : Nat) (s : State) : Host.Outcome State Fault Refusal := vectorRow 0xB1 t (runVst t) s

/-! ### Row reductions (R160 to R162) -/

/-- The leaves of a segment: v(32j + c) is element 32s + c of register VA + j. -/
def leavesOf (x : Tile) (w va n seg : Nat) : List Nat :=
  (List.range n).flatMap (fun j => slice (vElements x w (va + j)) (32 * seg) 32)

/-- VRSUM of one segment (R161). -/
def sumLeaves (ty : Nat) (l : List Nat) : Nat × Flags :=
  if tyFloat ty then treeSum (tyFmt ty) l
  else
    let v := (l.map (tyInt ty)).foldl (· + ·) 0
    (wrapNat (tyWidth ty) v, if v < tyLow ty ∨ tyHigh ty < v then flagOverflow else {})

/-- VRMAX and VRMIN of one segment (R162). -/
def pickLeaf (largest : Bool) (ty : Nat) (l : List Nat) : Nat × Flags :=
  let pick (a b : Nat) : Nat :=
    if tyFloat ty then (floatPick (tyFmt ty) largest a b).1
    else if largest then (if tyInt ty a < tyInt ty b then b else a)
    else (if tyInt ty b < tyInt ty a then b else a)
  (l.foldl pick (l.headD 0), {})

/-- A reduction runs: each segment's result goes to every element of the segment. -/
def runVrd (f : Nat → List Nat → Nat × Flags) (t : Nat) (e : Entry) (s : State) : State :=
  let ty := bitsOf e.word 42 4
  let w := tyWidth ty
  let n := bitsOf e.word 27 5 + 1
  let x := s.tile t
  let segs := (List.range (4096 / w / 32)).map (fun k => f ty (leavesOf x w (bitsOf e.word 32 5) n k))
  putElements t w (bitsOf e.word 37 5) (segs.flatMap (fun r => List.replicate 32 r))
    (vIssued t e n (4 + twiceLog2 (32 * n)) s)

/-- VRSUM (R161). -/
def execVrsum (t : Nat) (s : State) : Host.Outcome State Fault Refusal := vectorRow 0x98 t (runVrd sumLeaves t) s

/-- VRMAX (R162). -/
def execVrmax (t : Nat) (s : State) : Host.Outcome State Fault Refusal := vectorRow 0x99 t (runVrd (pickLeaf true) t) s

/-- VRMIN (R162). -/
def execVrmin (t : Nat) (s : State) : Host.Outcome State Fault Refusal := vectorRow 0x9A t (runVrd (pickLeaf false) t) s

end Sys2Proof.Machine
end

