-- ==== Sys2Proof/Machine/Dispatch.lean ====
section
/-! DEFINITION. The dispatch: one arm for each command, each a direct call of its meaning. -/

namespace Sys2Proof.Machine

/-- The effect of a command on everything but the queue. -/
def exec (i : Instr) (s : State) : Host.Outcome State Fault Refusal :=
  match i with
  | .dispatch t => Sys2Proof.Machine.execDispatch t s
  | .nop t => Sys2Proof.Machine.execNop t s
  | .loop t => Sys2Proof.Machine.execLoop t s
  | .call t => Sys2Proof.Machine.execCall t s
  | .ret t => Sys2Proof.Machine.execRet t s
  | .agset t => Sys2Proof.Machine.execAgset t s
  | .agstride t => Sys2Proof.Machine.execAgstride t s
  | .agadd t => Sys2Proof.Machine.execAgadd t s
  | .endProg t => Sys2Proof.Machine.execEndProg t s
  | .tileIdle t => Sys2Proof.Machine.execTileIdle t s
  | .instructionComplete t u n => Sys2Proof.Machine.execInstructionComplete t u n s
  | .preread t n => Sys2Proof.Machine.execPreread t n s
  | .twait t => Sys2Proof.Machine.execTwait t s
  | .tallyWaitComplete a => Sys2Proof.Machine.execTallyWaitComplete a s
  | .harr t => Sys2Proof.Machine.execHarr t s
  | .hwait t => Sys2Proof.Machine.execHwait t s
  | .harrw t => Sys2Proof.Machine.execHarrw t s
  | .load t => Sys2Proof.Machine.execLoad t s
  | .xpose t => Sys2Proof.Machine.execXpose t s
  | .store t => Sys2Proof.Machine.execStore t s
  | .atomi t => Sys2Proof.Machine.execAtomi t s
  | .atoms t => Sys2Proof.Machine.execAtoms t s
  | .mmul t => Sys2Proof.Machine.execMmul t s
  | .bankFinal t b => Sys2Proof.Machine.execBankFinal t b s
  | .mdrain t => Sys2Proof.Machine.execMdrain t s
  | .mldb t => Sys2Proof.Machine.execMldb t s
  | .vadd t => Sys2Proof.Machine.execVadd t s
  | .vsub t => Sys2Proof.Machine.execVsub t s
  | .vmul t => Sys2Proof.Machine.execVmul t s
  | .vmulh t => Sys2Proof.Machine.execVmulh t s
  | .vaddsat t => Sys2Proof.Machine.execVaddsat t s
  | .vsubsat t => Sys2Proof.Machine.execVsubsat t s
  | .vmulsat t => Sys2Proof.Machine.execVmulsat t s
  | .vmin t => Sys2Proof.Machine.execVmin t s
  | .vmax t => Sys2Proof.Machine.execVmax t s
  | .vabs t => Sys2Proof.Machine.execVabs t s
  | .vneg t => Sys2Proof.Machine.execVneg t s
  | .vfma t => Sys2Proof.Machine.execVfma t s
  | .vsll t => Sys2Proof.Machine.execVsll t s
  | .vsrl t => Sys2Proof.Machine.execVsrl t s
  | .vsra t => Sys2Proof.Machine.execVsra t s
  | .vsllsat t => Sys2Proof.Machine.execVsllsat t s
  | .vand t => Sys2Proof.Machine.execVand t s
  | .vor t => Sys2Proof.Machine.execVor t s
  | .vxor t => Sys2Proof.Machine.execVxor t s
  | .vnot t => Sys2Proof.Machine.execVnot t s
  | .vcmpeq t => Sys2Proof.Machine.execVcmpeq t s
  | .vcmplt t => Sys2Proof.Machine.execVcmplt t s
  | .vcmple t => Sys2Proof.Machine.execVcmple t s
  | .vsel t => Sys2Proof.Machine.execVsel t s
  | .vexp2 t => Sys2Proof.Machine.execVexp2 t s
  | .vlog2 t => Sys2Proof.Machine.execVlog2 t s
  | .vrcp t => Sys2Proof.Machine.execVrcp t s
  | .vrsqrt t => Sys2Proof.Machine.execVrsqrt t s
  | .vsinpi t => Sys2Proof.Machine.execVsinpi t s
  | .vcospi t => Sys2Proof.Machine.execVcospi t s
  | .vcvt t => Sys2Proof.Machine.execVcvt t s
  | .vqmul t => Sys2Proof.Machine.execVqmul t s
  | .vacc t => Sys2Proof.Machine.execVacc t s
  | .vrsum t => Sys2Proof.Machine.execVrsum t s
  | .vrmax t => Sys2Proof.Machine.execVrmax t s
  | .vrmin t => Sys2Proof.Machine.execVrmin t s
  | .vdrelu t => Sys2Proof.Machine.execVdrelu t s
  | .vdlrelu t => Sys2Proof.Machine.execVdlrelu t s
  | .vdsigm t => Sys2Proof.Machine.execVdsigm t s
  | .vdtanh t => Sys2Proof.Machine.execVdtanh t s
  | .vdelu t => Sys2Proof.Machine.execVdelu t s
  | .vdsoftp t => Sys2Proof.Machine.execVdsoftp t s
  | .vdexp t => Sys2Proof.Machine.execVdexp t s
  | .vld t => Sys2Proof.Machine.execVld t s
  | .vst t => Sys2Proof.Machine.execVst t s
  | .tilSeqCommit t src v => Sys2Proof.Machine.execTilSeqCommit t src v s
  | .packetRoute n err => Sys2Proof.Machine.execPacketRoute n err s
  | .d2dFrame n frame => Sys2Proof.Machine.execD2dFrame n frame s
  | .pfbPenReq src v => Sys2Proof.Machine.execPfbPenReq src v s
  | .rd n ce ue => Sys2Proof.Machine.execRd n ce ue s
  | .wr n => Sys2Proof.Machine.execWr n s
  | .atom n ce ue => Sys2Proof.Machine.execAtom n ce ue s
  | .snrd n ce ue => Sys2Proof.Machine.execSnrd n ce ue s
  | .snwr n => Sys2Proof.Machine.execSnwr n s
  | .credit n => Sys2Proof.Machine.execCredit n s
  | .arrive n => Sys2Proof.Machine.execArrive n s
  | .nodeArrive n => Sys2Proof.Machine.execNodeArrive n s
  | .nodeRelease n => Sys2Proof.Machine.execNodeRelease n s
  | .nodeArriveResend h => Sys2Proof.Machine.execNodeArriveResend h s
  | .timeReq n => Sys2Proof.Machine.execTimeReq n s
  | .timeRsp n => Sys2Proof.Machine.execTimeRsp n s
  | .rdata n => Sys2Proof.Machine.execRdata n s
  | .ack n => Sys2Proof.Machine.execAck n s
  | .err n => Sys2Proof.Machine.execErr n s
  | .decline n => Sys2Proof.Machine.execDecline n s
  | .refresh pc bank => Sys2Proof.Machine.execRefresh pc bank s
  | .stackCalibration k => Sys2Proof.Machine.execStackCalibration k s
  | .forcedCalibration n => Sys2Proof.Machine.execForcedCalibration n s
  | .patrolScrub pc ce ue => Sys2Proof.Machine.execPatrolScrub pc ce ue s
  | .portSaturation p => Sys2Proof.Machine.execPortSaturation p s
  | .memMapCommit src v => Sys2Proof.Machine.execMemMapCommit src v s
  | .memPenReq src v => Sys2Proof.Machine.execMemPenReq src v s
  | .hurdleRelease h => Sys2Proof.Machine.execHurdleRelease h s
  | .synTallyWrite m src v => Sys2Proof.Machine.execSynTallyWrite m src v s
  | .synHcommit src v => Sys2Proof.Machine.execSynHcommit src v s
  | .synTreeCommit src v => Sys2Proof.Machine.execSynTreeCommit src v s
  | .synDesigCommit src v => Sys2Proof.Machine.execSynDesigCommit src v s
  | .synQwinCommit src v => Sys2Proof.Machine.execSynQwinCommit src v s
  | .tsyncEdge => Sys2Proof.Machine.execTsyncEdge s
  | .tsyncLost => Sys2Proof.Machine.execTsyncLost s
  | .timeExchange => Sys2Proof.Machine.execTimeExchange s
  | .qwinOpen k => Sys2Proof.Machine.execQwinOpen k s
  | .qwinClose k => Sys2Proof.Machine.execQwinClose k s
  | .holtimFrame p frame => Sys2Proof.Machine.execHoltimFrame p frame s
  | .assign p node plane => Sys2Proof.Machine.execAssign p node plane s
  | .linkDown p => Sys2Proof.Machine.execLinkDown p s
  | .linkUp p => Sys2Proof.Machine.execLinkUp p s
  | .requestTimeout p tag => Sys2Proof.Machine.execRequestTimeout p tag s
  | .holtimSaturation p l => Sys2Proof.Machine.execHoltimSaturation p l s
  | .hfiPlaneCommit src v => Sys2Proof.Machine.execHfiPlaneCommit src v s
  | .hfiWinCommit src v => Sys2Proof.Machine.execHfiWinCommit src v s
  | .hfiTmo src v => Sys2Proof.Machine.execHfiTmo src v s
  | .rv64Instruction c => Sys2Proof.Machine.execRv64Instruction c s
  | .speculativeRead c a => Sys2Proof.Machine.execSpeculativeRead c a s
  | .interrupt c => Sys2Proof.Machine.execInterrupt c s
  | .mtip c => Sys2Proof.Machine.execMtip c s
  | .postedError c => Sys2Proof.Machine.execPostedError c s
  | .tcred c => Sys2Proof.Machine.execTcred c s
  | .tcredC c => Sys2Proof.Machine.execTcredC c s
  | .coreTwait c => Sys2Proof.Machine.execCoreTwait c s
  | .coreHarr c => Sys2Proof.Machine.execCoreHarr c s
  | .coreHwait c => Sys2Proof.Machine.execCoreHwait c s
  | .coreHarrw c => Sys2Proof.Machine.execCoreHarrw c s
  | .pamo c => Sys2Proof.Machine.execPamo c s
  | .clean c => Sys2Proof.Machine.execClean c s
  | .lvcfg c => Sys2Proof.Machine.execLvcfg c s
  | .lvxAdd c => Sys2Proof.Machine.execLvxAdd c s
  | .lvxSub c => Sys2Proof.Machine.execLvxSub c s
  | .lvxMul c => Sys2Proof.Machine.execLvxMul c s
  | .lvxMulh c => Sys2Proof.Machine.execLvxMulh c s
  | .lvxMin c => Sys2Proof.Machine.execLvxMin c s
  | .lvxMax c => Sys2Proof.Machine.execLvxMax c s
  | .lvxMinu c => Sys2Proof.Machine.execLvxMinu c s
  | .lvxMaxu c => Sys2Proof.Machine.execLvxMaxu c s
  | .lvxAnd c => Sys2Proof.Machine.execLvxAnd c s
  | .lvxOr c => Sys2Proof.Machine.execLvxOr c s
  | .lvxXor c => Sys2Proof.Machine.execLvxXor c s
  | .lvxSll c => Sys2Proof.Machine.execLvxSll c s
  | .lvxSrl c => Sys2Proof.Machine.execLvxSrl c s
  | .lvxSra c => Sys2Proof.Machine.execLvxSra c s
  | .lvxCmpeq c => Sys2Proof.Machine.execLvxCmpeq c s
  | .lvxCmplt c => Sys2Proof.Machine.execLvxCmplt c s
  | .lvxCmpltu c => Sys2Proof.Machine.execLvxCmpltu c s
  | .lvxMerge c => Sys2Proof.Machine.execLvxMerge c s
  | .lvxMove c => Sys2Proof.Machine.execLvxMove c s
  | .lvxFcvt c => Sys2Proof.Machine.execLvxFcvt c s
  | .lvxFadd c => Sys2Proof.Machine.execLvxFadd c s
  | .lvxFsub c => Sys2Proof.Machine.execLvxFsub c s
  | .lvxFmul c => Sys2Proof.Machine.execLvxFmul c s
  | .lvxFdiv c => Sys2Proof.Machine.execLvxFdiv c s
  | .lvxFmacc c => Sys2Proof.Machine.execLvxFmacc c s
  | .lvxFnmsac c => Sys2Proof.Machine.execLvxFnmsac c s
  | .lvxFmin c => Sys2Proof.Machine.execLvxFmin c s
  | .lvxFmax c => Sys2Proof.Machine.execLvxFmax c s
  | .lvxFsqrt c => Sys2Proof.Machine.execLvxFsqrt c s
  | .lvxFcmpeq c => Sys2Proof.Machine.execLvxFcmpeq c s
  | .lvxFcmplt c => Sys2Proof.Machine.execLvxFcmplt c s
  | .lvxFcmple c => Sys2Proof.Machine.execLvxFcmple c s
  | .lvxLoadUnit c stop => Sys2Proof.Machine.execLvxLoadUnit c stop s
  | .lvxLoadStrided c stop => Sys2Proof.Machine.execLvxLoadStrided c stop s
  | .lvxLoadFirstFault c stop => Sys2Proof.Machine.execLvxLoadFirstFault c stop s
  | .lvxLoadIndexed c stop => Sys2Proof.Machine.execLvxLoadIndexed c stop s
  | .lvxStoreUnit c stop => Sys2Proof.Machine.execLvxStoreUnit c stop s
  | .lvxStoreStrided c stop => Sys2Proof.Machine.execLvxStoreStrided c stop s
  | .lvxStoreIndexed c stop => Sys2Proof.Machine.execLvxStoreIndexed c stop s
  | .lvxRsum c => Sys2Proof.Machine.execLvxRsum c s
  | .lvxRmin c => Sys2Proof.Machine.execLvxRmin c s
  | .lvxRmax c => Sys2Proof.Machine.execLvxRmax c s
  | .lvxRminu c => Sys2Proof.Machine.execLvxRminu c s
  | .lvxRmaxu c => Sys2Proof.Machine.execLvxRmaxu c s
  | .frsumOrd c => Sys2Proof.Machine.execFrsumOrd c s
  | .frsumTree c => Sys2Proof.Machine.execFrsumTree c s
  | .frmin c => Sys2Proof.Machine.execFrmin c s
  | .frmax c => Sys2Proof.Machine.execFrmax c s
  | .pand c => Sys2Proof.Machine.execPand c s
  | .por c => Sys2Proof.Machine.execPor c s
  | .pxor c => Sys2Proof.Machine.execPxor c s
  | .pandn c => Sys2Proof.Machine.execPandn c s
  | .pnot c => Sys2Proof.Machine.execPnot c s
  | .ppopc c => Sys2Proof.Machine.execPpopc c s
  | .pfirst c => Sys2Proof.Machine.execPfirst c s
  | .ptov c => Sys2Proof.Machine.execPtov c s
  | .vtop c => Sys2Proof.Machine.execVtop c s
  | .prcStartCommit src v => Sys2Proof.Machine.execPrcStartCommit src v s
  | .prcPmaCommit src v => Sys2Proof.Machine.execPrcPmaCommit src v s
  | .pmaApply => Sys2Proof.Machine.execPmaApply s
  | .prcAperCommit src v => Sys2Proof.Machine.execPrcAperCommit src v s
  | .msiWrite src c sup v => Sys2Proof.Machine.execMsiWrite src c sup v s
  | .marNop e => Sys2Proof.Machine.execMarNop e s
  | .solve e => Sys2Proof.Machine.execSolve e s
  | .solveFinish e => Sys2Proof.Machine.execSolveFinish e s
  | .marLate e => Sys2Proof.Machine.execMarLate e s
  | .marTwait e => Sys2Proof.Machine.execMarTwait e s
  | .marHarr e => Sys2Proof.Machine.execMarHarr e s
  | .marHwait e => Sys2Proof.Machine.execMarHwait e s
  | .marHarrw e => Sys2Proof.Machine.execMarHarrw e s
  | .marCredit e => Sys2Proof.Machine.execMarCredit e s
  | .copy e => Sys2Proof.Machine.execCopy e s
  | .jump e => Sys2Proof.Machine.execJump e s
  | .stop e => Sys2Proof.Machine.execStop e s
  | .marStartCommit e src v => Sys2Proof.Machine.execMarStartCommit e src v s
  | .eagerCopyComplete => Sys2Proof.Machine.execEagerCopyComplete s
  | .pageCopyOut page => Sys2Proof.Machine.execPageCopyOut page s
  | .shearPage => Sys2Proof.Machine.execShearPage s
  | .ckpCutCommit src v => Sys2Proof.Machine.execCkpCutCommit src v s
  | .restoreJob src v => Sys2Proof.Machine.execRestoreJob src v s
  | .restoreComplete => Sys2Proof.Machine.execRestoreComplete s
  | .ckpLaunchCommit src v => Sys2Proof.Machine.execCkpLaunchCommit src v s
  | .ckpLaunchSend src v => Sys2Proof.Machine.execCkpLaunchSend src v s
  | .launchStall => Sys2Proof.Machine.execLaunchStall s
  | .ethernetFrame k frame => Sys2Proof.Machine.execEthernetFrame k frame s
  | .ethLinkUp k => Sys2Proof.Machine.execEthLinkUp k s
  | .ethLinkDown k => Sys2Proof.Machine.execEthLinkDown k s
  | .init k dg => Sys2Proof.Machine.execInit k dg s
  | .finishMsg k dg => Sys2Proof.Machine.execFinishMsg k dg s
  | .close k dg => Sys2Proof.Machine.execClose k dg s
  | .handshakeTimeout n => Sys2Proof.Machine.execHandshakeTimeout n s
  | .dataMsg k dg => Sys2Proof.Machine.execDataMsg k dg s
  | .crookAck k dg => Sys2Proof.Machine.execCrookAck k dg s
  | .retransmit slot seq => Sys2Proof.Machine.execRetransmit slot seq s
  | .sessionIdleTimeout slot => Sys2Proof.Machine.execSessionIdleTimeout slot s
  | .readMsg slot q => Sys2Proof.Machine.execReadMsg slot q s
  | .writeMsg slot q => Sys2Proof.Machine.execWriteMsg slot q s
  | .regrd slot q => Sys2Proof.Machine.execRegrd slot q s
  | .regwr slot q => Sys2Proof.Machine.execRegwr slot q s
  | .crookCredit slot q => Sys2Proof.Machine.execCrookCredit slot q s
  | .doorbell slot q => Sys2Proof.Machine.execDoorbell slot q s
  | .launchMsg slot q => Sys2Proof.Machine.execLaunchMsg slot q s
  | .dumpRead slot q => Sys2Proof.Machine.execDumpRead slot q s
  | .flashRead slot q => Sys2Proof.Machine.execFlashRead slot q s
  | .flashErase slot q => Sys2Proof.Machine.execFlashErase slot q s
  | .flashProgram slot q => Sys2Proof.Machine.execFlashProgram slot q s
  | .flashOpDone => Sys2Proof.Machine.execFlashOpDone s
  | .crookResetMsg slot q => Sys2Proof.Machine.execCrookResetMsg slot q s
  | .crookReset => Sys2Proof.Machine.execCrookReset s
  | .shearAck slot q => Sys2Proof.Machine.execShearAck slot q s
  | .eventSink slot q => Sys2Proof.Machine.execEventSink slot q s
  | .hecEvtPost src v => Sys2Proof.Machine.execHecEvtPost src v s
  | .hecDbPop src => Sys2Proof.Machine.execHecDbPop src s
  | .vstbyRising => Sys2Proof.Machine.execVstbyRising s
  | .rstN lowNs => Sys2Proof.Machine.execRstN lowNs s
  | .powerGoodFail cond ns => Sys2Proof.Machine.execPowerGoodFail cond ns s
  | .pwrOkRise => Sys2Proof.Machine.execPwrOkRise s
  | .watchdogExpiry => Sys2Proof.Machine.execWatchdogExpiry s
  | .brcWdogKick src v => Sys2Proof.Machine.execBrcWdogKick src v s
  | .thermalTrip sensor celsius => Sys2Proof.Machine.execThermalTrip sensor celsius s
  | .thermalAlert sensor celsius => Sys2Proof.Machine.execThermalAlert sensor celsius s
  | .glitchDetect detail => Sys2Proof.Machine.execGlitchDetect detail s
  | .resetHoldEnd hot => Sys2Proof.Machine.execResetHoldEnd hot s
  | .thermalWaitEnd => Sys2Proof.Machine.execThermalWaitEnd s
  | .bootP0Done => Sys2Proof.Machine.execBootP0Done s
  | .bootP1Done failed => Sys2Proof.Machine.execBootP1Done failed s
  | .bootP2Done failed => Sys2Proof.Machine.execBootP2Done failed s
  | .bootP3Done tiles cores engines => Sys2Proof.Machine.execBootP3Done tiles cores engines s
  | .bootP4Done => Sys2Proof.Machine.execBootP4Done s
  | .bootP5Done => Sys2Proof.Machine.execBootP5Done s
  | .bootPhaseTimeout => Sys2Proof.Machine.execBootPhaseTimeout s
  | .hotJoin => Sys2Proof.Machine.execHotJoin s
  | .entdaa da => Sys2Proof.Machine.execEntdaa da s
  | .rstdaa => Sys2Proof.Machine.execRstdaa s
  | .enec b => Sys2Proof.Machine.execEnec b s
  | .disec b => Sys2Proof.Machine.execDisec b s
  | .getpid => Sys2Proof.Machine.execGetpid s
  | .getbcr => Sys2Proof.Machine.execGetbcr s
  | .getdcr => Sys2Proof.Machine.execGetdcr s
  | .getstatus => Sys2Proof.Machine.execGetstatus s
  | .getmwl => Sys2Proof.Machine.execGetmwl s
  | .getmrl => Sys2Proof.Machine.execGetmrl s
  | .rstact b => Sys2Proof.Machine.execRstact b s
  | .i3cTargetReset => Sys2Proof.Machine.execI3cTargetReset s
  | .i3cRegrd a => Sys2Proof.Machine.execI3cRegrd a s
  | .i3cRegwr a v => Sys2Proof.Machine.execI3cRegwr a v s
  | .i3cFlashErase a => Sys2Proof.Machine.execI3cFlashErase a s
  | .i3cFlashProgram a bytes => Sys2Proof.Machine.execI3cFlashProgram a bytes s
  | .jobChange src v => Sys2Proof.Machine.execJobChange src v s
  | .jobChangeComplete => Sys2Proof.Machine.execJobChangeComplete s
  | .aksQuote src v => Sys2Proof.Machine.execAksQuote src v s
  | .quoteComplete => Sys2Proof.Machine.execQuoteComplete s
  | .peerLoad src v => Sys2Proof.Machine.execPeerLoad src v s
  | .debugToken src v => Sys2Proof.Machine.execDebugToken src v s
  | .akmPenCmd src v => Sys2Proof.Machine.execAkmPenCmd src v s
  | .undertakenCredit n => Sys2Proof.Machine.execUndertakenCredit n s
  | .marginAlarm t slack => Sys2Proof.Machine.execMarginAlarm t slack s
  | .ageingMeasurement k slacks => Sys2Proof.Machine.execAgeingMeasurement k slacks s
  | .marginAdjustment k => Sys2Proof.Machine.execMarginAdjustment k s
  | .dailyAgeingRecord f => Sys2Proof.Machine.execDailyAgeingRecord f s
  | .telemetrySample temps vin => Sys2Proof.Machine.execTelemetrySample temps vin s
  | .fatalError code => Sys2Proof.Machine.execFatalError code s
  | .freezeComplete => Sys2Proof.Machine.execFreezeComplete s
  | .dumpComplete => Sys2Proof.Machine.execDumpComplete s
  | .freezeTimeout => Sys2Proof.Machine.execFreezeTimeout s
  | .dumpTimeout => Sys2Proof.Machine.execDumpTimeout s
  | .holdExpiry => Sys2Proof.Machine.execHoldExpiry s
  | .powerComparison mean => Sys2Proof.Machine.execPowerComparison mean s
  | .pwrCap src v => Sys2Proof.Machine.execPwrCap src v s
  | .tapReset => Sys2Proof.Machine.execTapReset s
  | .samplePreload => Sys2Proof.Machine.execSamplePreload s
  | .extest => Sys2Proof.Machine.execExtest s
  | .extestPulse => Sys2Proof.Machine.execExtestPulse s
  | .extestTrain => Sys2Proof.Machine.execExtestTrain s
  | .tapClamp => Sys2Proof.Machine.execTapClamp s
  | .highz => Sys2Proof.Machine.execHighz s
  | .tapBypass => Sys2Proof.Machine.execTapBypass s
  | .coreDebug op => Sys2Proof.Machine.execCoreDebug op s
  | .internalScan op => Sys2Proof.Machine.execInternalScan op s
  | .registerWrite src a v => Sys2Proof.Machine.execRegisterWrite src a v s
  | .akmMemoryUe => Sys2Proof.Machine.execAkmMemoryUe s
  | .vstbyFalling => Sys2Proof.Machine.execVstbyFalling s
  | .signatureComplete => Sys2Proof.Machine.execSignatureComplete s

end Sys2Proof.Machine
end

