-- ==== Sys2Proof/Safety.lean ====
section
/-! DEFINITION. What a safe run is: every step answers a next state, the memories keep their canonical form, and the read
and reserved fields of the state stay as the spec has them. -/

namespace Sys2Proof.Machine

/-- A step that answers a next state. -/
def Runs (s : State) : Prop := ∃ t, step s = .next t

/-- The canonical forms of the two byte memories. -/
def State.memWf (s : State) : Bool := Memory.wf 0 s.mem && Memory.wf flashErased s.flash

end Sys2Proof.Machine
end

