-- ==== Sys2Proof/Certificates/Slice0/Obligations.lean ====
section
/-! DEFINITION. The statements about the model, one `def Obligations.<Name> : Prop` each, and the small notions they are
written with. -/

namespace Sys2Proof.Machine

/-! ### Notions the statements share -/

/-- A command that answers exactly this next state. -/
def Answers (c : Instr) (s u : State) : Prop := exec c s = .next u

/-- Of the tiles, only tile `t` may differ. -/
def OnlyTile (t : Nat) (s u : State) : Prop := u.tiles = Table.set {} s.tiles t (u.tile t)

/-- Of the cores, only core `c` may differ. -/
def OnlyCore (c : Nat) (s u : State) : Prop := u.cores = Table.set {} s.cores c (u.core c)

/-- Of the engines, only engine `e` may differ. -/
def OnlyEngine (e : Nat) (s u : State) : Prop := u.engines = Table.set {} s.engines e (u.engine e)

/-- Nothing the fabric, the synchronization unit, the Holtim ports or the memories hold differs. -/
def SameOutside (s u : State) : Prop :=
  u.mem = s.mem ∧ u.flash = s.flash ∧ u.poison = s.poison ∧ u.tallies = s.tallies ∧ u.hurdles = s.hurdles
    ∧ u.ports = s.ports ∧ u.flights = s.flights ∧ u.delivered = s.delivered ∧ u.requests = s.requests
    ∧ u.seqs = s.seqs ∧ u.engines = s.engines ∧ u.time = s.time ∧ u.now = s.now ∧ u.pending = s.pending

/-- A request that a command appended: its purpose and the packet fields that say what is asked. -/
def sentSince (s u : State) : List Request := u.requests.drop s.requests.length

end Sys2Proof.Machine

open Sys2Proof Sys2Proof.Machine

/-! ### The block -/

/-- A step with a command in front of the queue is that command's effect on the node with the rest of the queue. -/
def Obligations.StepRunsTheCommandInFront : Prop :=
  ∀ (c : Instr) (rest : List Instr) (s : State),
    step { s with pending := c :: rest } = exec c { s with pending := rest }

/-- Every step keeps the canonical form of the two byte memories: keys rise and no cell holds what an unlisted byte reads. -/
def Obligations.StepKeepsMemoryForm : Prop :=
  ∀ s u : State, s.memWf = true → step s = .next u → u.memWf = true

/-- The state after reset: R8 and R390's after-reset values, every agent stopped and held, memories in canonical form. The
clause on BRC_RESET_CAUSE is the model's choice (log entry 5), and so is an erased boot flash (log entry 6). -/
def Obligations.ResetStateHoldsAfterResetValues : Prop :=
  State.reset.memWf = true ∧ State.reset.pending = []
    ∧ (∀ (r : RegRow) (i j : Nat), r.addr i j ≠ 0xF9000000008 → State.reset.getReg (r.addr i j) = regReset (r.addr i j))
    ∧ (∀ t, (State.reset.tile t).state = .idle) ∧ (∀ c, (State.reset.core c).held = true)
    ∧ (∀ e, (State.reset.engine e).state = .idle) ∧ (∀ i, State.reset.tally i = {})
    ∧ (∀ h, State.reset.armed h = false) ∧ State.reset.jid = 0 ∧ State.reset.nodeValid = false

/-- Every command answers a next state, but for the two TAP opcodes whose effect R439 leaves to the debug key holder's
documentation, while their scope is unlocked. -/
def Obligations.OnlyUnlockedDebugOpcodesStop : Prop :=
  ∀ (i : Instr) (s : State), (∃ u, exec i s = .next u)
    ∨ (∃ op, (i = .coreDebug op ∨ i = .internalScan op) ∧ exec i s = .refused (.debugUndocumented op.toNat))

/-! ### The tile: sequencer -/

namespace Sys2Proof.Machine

/-- The sequencer of tile `t` may take its next word, which lies in the program region, has opcode `op` and no double-bit error in
what is fetched. -/
def AtWord (s : State) (t op : Nat) : Prop :=
  (s.tile t).state = .running ∧ s.tileOn t = true ∧ (s.tile t).held = false ∧ (s.tile t).ended = false
    ∧ s.akm.frozen = false ∧ inRegion s t (s.tile t).fetch = true ∧ nextOp s t = op
    ∧ bytesGood s (sramBase t + wordOffset s t (s.tile t).fetch) (8 * fetchWords s t) = true

/-- The word at FETCH, and the word after it. -/
def word0 (s : State) (t : Nat) : Nat := progWord s t (s.tile t).fetch
def word1 (s : State) (t : Nat) : Nat := progWord s t ((s.tile t).fetch + 1)

/-- A generator's stride for a loop level, as a signed 40-bit value. -/
def Gen.stride (a : Gen) (l : Nat) : Int :=
  signedOf 40 (if l = 0 then a.s0 else if l = 1 then a.s1 else if l = 2 then a.s2 else a.s3)

/-- The tile after a unit has taken the head of its queue: credits spent, one more instruction in flight. -/
def issuedTile (x : Tile) (u : TileUnit) (e : Entry) (left due : Nat) : Tile :=
  { takeCredits x u e with
    queues := x.queues.put u ((x.queues.of u).drop 1),
    inflight := x.inflight ++ [{ unit := u, entry := e, left := left, due := due }] }

end Sys2Proof.Machine

/-- R113: what AGSET, AGSTRIDE and AGADD write into a generator, that AGSET without GLB refuses a base of more than 48
bits, and that every generator is zero when the tile starts RUNNING. Nothing but the tile's generator and its fetch
changes. -/
def Obligations.GeneratorInstructionsFollowTheirFields : Prop :=
  (∀ (s : State) (t : Nat),
    let x := s.tile t
    let w := word0 s t
    let g := bitsOf w 51 5
    let old := Table.get {} x.gens g
    (AtWord s t 0x04 → inRegion s t (x.fetch + 1) = true → bitsOf w 0 50 = 0 →
      (bitOf w 50 = true ∨ bitsOf (word1 s t) 48 16 = 0) →
      exec (.agset t) s = .next (s.setTile t
        ({ x with gens := Table.set {} x.gens g { old with base := word1 s t, glb := bitOf w 50 } }.advance x.fetch 2)))
    ∧ (AtWord s t 0x04 → inRegion s t (x.fetch + 1) = true → bitOf w 50 = false → bitsOf (word1 s t) 48 16 ≠ 0 →
      exec (.agset t) s = .next (raiseExc t excILLEGAL_OP x.fetch (x.disp + 1) 0 s))
    ∧ (AtWord s t 0x05 → bitsOf w 40 9 = 0 → ∃ new : Gen,
      exec (.agstride t) s = .next (s.setTile t ({ x with gens := Table.set {} x.gens g new }.advance x.fetch 1))
      ∧ new.stride (bitsOf w 49 2) = signedOf 40 (bitsOf w 0 40)
      ∧ (∀ l, l < 4 → l ≠ bitsOf w 49 2 → new.stride l = old.stride l) ∧ new.base = old.base ∧ new.glb = old.glb)
    ∧ (AtWord s t 0x06 → bitsOf w 40 11 = 0 → ∃ b : Nat,
      exec (.agadd t) s = .next (s.setTile t
        ({ x with gens := Table.set {} x.gens g { old with base := b } }.advance x.fetch 1))
      ∧ (old.glb = false → b < 2 ^ 48 ∧ ((b : Int) - old.base - signedOf 40 (bitsOf w 0 40)) % 2 ^ 48 = 0)
      ∧ (old.glb = true → b / 2 ^ 40 = old.base / 2 ^ 40
          ∧ ((b : Int) - old.base - signedOf 40 (bitsOf w 0 40)) % 2 ^ 40 = 0)))
  ∧ (∀ (s : State) (t g : Nat), Table.get {} ((startTile t s).tile t).gens g = {})

/-- R73, R111, R112: what NOP, LOOP, CALL and RET do with the open loops and calls and with fetch, and when they overflow
or are illegal. R111, R112: after an instruction of `n` words at `w`, the innermost loop that may be tested branches back
while it has iterations left and closes when it has none; then the next loop out is compared with the same instruction. A
loop opened before the open call is not tested. -/
def Obligations.LoopsAndCallsNestAndClose : Prop :=
  (
    ∀ (s : State) (t : Nat),
      let x := s.tile t
      let w := word0 s t
      let last := bitsOf w 32 20
      let count := bitsOf w 0 32
      let tested := if x.loops.length ≤ x.shield then none else x.loops.getLast?
      let overflow := raiseExc t excSEQ_OVERFLOW x.fetch (x.disp + 1) 0 s
      (AtWord s t 0x00 → bitsOf w 0 56 = 0 → exec (.nop t) s = .next (s.setTile t (x.advance x.fetch 1)))
      ∧ (AtWord s t 0x01 → bitsOf w 52 4 = 0 → x.fetch < last → (∀ l, tested = some l → last ≤ l.last) → count ≠ 0 →
          x.loops.length < 4 →
          exec (.loop t) s = .next (s.setTile t
            { x with loops := x.loops ++ [⟨x.fetch, last, count - 1, 0⟩], fetch := x.fetch + 1 }))
      ∧ (AtWord s t 0x01 → bitsOf w 52 4 = 0 → x.fetch < last → (∀ l, tested = some l → last ≤ l.last) → count ≠ 0 →
          4 ≤ x.loops.length → exec (.loop t) s = .next overflow)
      ∧ (AtWord s t 0x01 → bitsOf w 52 4 = 0 → x.fetch < last → count = 0 → tested = none →
          ∃ n, last < n ∧ n ≤ last + 2 ∧ exec (.loop t) s = .next (s.setTile t { x with fetch := n }))
      ∧ (AtWord s t 0x01 → bitsOf w 52 4 = 0 → (last ≤ x.fetch ∨ ∃ l, tested = some l ∧ l.last < last) →
          exec (.loop t) s = .next (raiseExc t excILLEGAL_OP x.fetch (x.disp + 1) 0 s))
      ∧ (AtWord s t 0x02 → bitsOf w 20 36 = 0 → x.calls.length < 8 →
          exec (.call t) s = .next (s.setTile t
            { x with calls := ⟨x.fetch, x.loops.length⟩ :: x.calls, fetch := bitsOf w 0 20 }))
      ∧ (AtWord s t 0x02 → bitsOf w 20 36 = 0 → 8 ≤ x.calls.length → exec (.call t) s = .next overflow)
      ∧ (AtWord s t 0x03 → bitsOf w 0 56 = 0 → x.calls = [] → exec (.ret t) s = .next overflow)
      ∧ (∀ c cs, AtWord s t 0x03 → bitsOf w 0 56 = 0 → x.calls = c :: cs →
          exec (.ret t) s = .next (if c.depth < x.loops.length then overflow
            else s.setTile t ({ x with calls := cs }.advance c.at_ 1))))
  ∧ (
    ∀ (x : Tile) (w n : Nat) (outer : List Loop) (l : Loop),
      let ends := w ≤ l.last ∧ l.last < w + n
      (x.loops.length ≤ x.shield → x.advance w n = { x with fetch := w + n })
      ∧ (x.loops = outer ++ [l] → x.shield ≤ outer.length → ¬ ends → x.advance w n = { x with fetch := w + n })
      ∧ (x.loops = outer ++ [l] → x.shield ≤ outer.length → ends → l.left ≠ 0 →
          x.advance w n = { x with
            loops := outer ++ [{ l with left := l.left - 1, iter := l.iter + 1 }], fetch := l.at_ + 1 })
      ∧ (x.loops = outer ++ [l] → x.shield ≤ outer.length → outer.length < 4 → ends → l.left = 0 →
          x.advance w n = { x with loops := outer }.advance w n))

/-- R72, R106, R108, R114: DISPATCH gives a legal instruction of a queue the next dispatch number and the addresses of
that moment, and holds while the queue is full; END goes to all five queues once each has room, and abandons loops and
calls; words outside the region raise PROG_BOUND. R71, R136: an exception sets its bit of TIL_EXC_STATUS and no other bit
of it; while all bits were clear its code, word, dispatch number and address are recorded, and of two exceptions in one
tick those of the lower dispatch number, then of the lower code; ILLEGAL_OP, PROG_BOUND, SEQ_OVERFLOW and MISALIGNED halt a
RUNNING tile, the others leave its state as it is. The model's readings: the address recorded for PROG_BOUND is the program word's
(DESIGN CHOICE, log entry 49); END takes one dispatch number, a refused word records the next one, and of several misaligned operands the first
is recorded (DEDUCED, log entry 31). -/
def Obligations.DispatchAndExceptions : Prop :=
  (
    ∀ (s : State) (t : Nat),
      let x := s.tile t
      let w := word0 s t
      let op := bitsOf w 56 8
      let ext := if wordsOf w = 2 then word1 s t else 0
      let ns := namedBy op w ext
      let room := x.queues.load.length < 64 ∧ x.queues.matrix.length < 64 ∧ x.queues.vector.length < 64
        ∧ x.queues.store.length < 64 ∧ x.queues.sync.length < 64
      let e : Entry := ⟨x.disp + 1, x.fetch, w, ext, ns.map (fun n => genAddr x n.gen)⟩
      let finish : Tile := { x with
        disp := x.disp + 1, ended := true, loops := [], calls := [], fetch := x.fetch + 1,
        queues := ⟨x.queues.load ++ [⟨x.disp + 1, x.fetch, w, 0, []⟩], x.queues.matrix ++ [⟨x.disp + 1, x.fetch, w, 0, []⟩],
          x.queues.vector ++ [⟨x.disp + 1, x.fetch, w, 0, []⟩], x.queues.store ++ [⟨x.disp + 1, x.fetch, w, 0, []⟩],
          x.queues.sync ++ [⟨x.disp + 1, x.fetch, w, 0, []⟩]⟩ }
      (∀ u, AtWord s t op → inRegion s t (x.fetch + (wordsOf w - 1)) = true → unitOf op = some u →
          bitOf (bitsOf w 51 5) (unitIndex u) = false → bitOf (bitsOf w 46 5) (unitIndex u) = false →
          legalFields op w ext = true → globalLocal x ns = false → misaligned x ns = none →
          exec (.dispatch t) s = .next (if 64 ≤ (x.queues.of u).length then s
            else s.setTile t ({ x with
              disp := x.disp + 1, queues := x.queues.put u (x.queues.of u ++ [e]) }.advance x.fetch (wordsOf w))))
      ∧ (∀ u a, AtWord s t op → inRegion s t (x.fetch + (wordsOf w - 1)) = true → unitOf op = some u →
          bitOf (bitsOf w 51 5) (unitIndex u) = false → bitOf (bitsOf w 46 5) (unitIndex u) = false →
          legalFields op w ext = true → globalLocal x ns = false → misaligned x ns = some a →
          exec (.dispatch t) s = .next (raiseExc t excMISALIGNED x.fetch (x.disp + 1) a s))
      ∧ (AtWord s t 0x07 → bitsOf w 0 56 = 0 →
          exec (.endProg t) s = .next (if room then s.setTile t finish else s)
          ∧ exec (.dispatch t) s = .next (if room then s.setTile t finish else s))
      ∧ (canFetch s t = true → inRegion s t x.fetch = false →
          exec (.dispatch t) s = .next (raiseExc t excPROG_BOUND x.fetch (x.disp + 1) (wordOffset s t x.fetch) s)))
  ∧ (
    ∀ (s : State) (t bit word disp addr : Nat), t < 576 → bit < 18 → Table.risesFrom 0 s.regs = true →
      let u := raiseExc t bit word disp addr s
      let old := (s.getReg (regAddr .tilExcStatus t)).toNat
      let new := (u.getReg (regAddr .tilExcStatus t)).toNat
      let info (b w d : Nat) : Nat := excCode b + w % 2 ^ 20 * 2 ^ 8 + d % 2 ^ 32 * 2 ^ 28
      let recorded (b w d a : Nat) : Prop := (u.getReg (regAddr .tilExcInfo t)).toNat = info b w d
        ∧ u.getReg (regAddr .tilExcAddr t) = BitVec.ofNat 64 a
      (∀ k, k < 64 → bitOf new k = (bitOf old k || decide (k = bit)))
      ∧ (old = 0 → (s.tile t).excAt ≠ s.now + 1 → recorded bit word disp addr)
      ∧ (∀ b w d a, b < 18 → (s.tile t).excAt = s.now + 1 → (s.tile t).excOld = 0 →
          (s.tile t).excSeen = [(b, info b w d, a, d)] →
          (d < disp ∨ (d = disp ∧ excCode b ≤ excCode bit) → recorded b w d a)
          ∧ (disp < d ∨ (d = disp ∧ excCode bit < excCode b) → recorded bit word disp addr))
      ∧ ((s.tile t).state = .running →
          (u.tile t).state = if bit = excILLEGAL_OP ∨ bit = excPROG_BOUND ∨ bit = excSEQ_OVERFLOW ∨ bit = excMISALIGNED
            then .halted else .running)
      ∧ u.mem = s.mem ∧ u.tallies = s.tallies ∧ u.hurdles = s.hurdles ∧ u.requests = s.requests)

/-! ### The tile: completion, end and pre-reads -/

/-- R76, R77, R78: an instruction whose pieces have come and whose tick is reached completes, and one is added to the
counter from its unit to each unit of its post set, and to no other; with a counter of the post set at 255, or while the packet of an atomic or a
credit-only STORE is still in the tile's router, nothing changes. R79: a RUNNING tile whose queues have all reached END and whose requests are all acknowledged becomes IDLE;
counters left non-zero are cleared and raise CREDIT_RESIDUE, which records the END's word and number (DEDUCED, log entry 31). R81, R82, R86: a pre-read sends reads with the prefetch bit
for the LOAD's pieces into the staging buffer and nothing else; the first piece that still fits is asked for. -/
def Obligations.CompletionsIdleAndPrereads : Prop :=
  (
    ∀ (s : State) (t n : Nat) (u : TileUnit) (f : InFlight),
      let x := s.tile t
      let own := unitIndex u
      s.akm.frozen = false → x.held = false → Table.risesFrom 0 x.credits = true →
      (x.inFlightOf u)[n]? = some f → f.left = 0 → f.due ≤ s.now →
      let stays := u = .store ∧ f.entry.leaves = true ∧ packetStays s t f.entry.disp = true
      ((∀ k, k < 5 → bitOf f.entry.posts k = true → x.credit own k < 255) → ¬ stays →
        ∃ y : Tile, exec (.instructionComplete t u n) s = .next (s.setTile t y)
          ∧ (∀ a k, a < 5 → k < 5 → y.credit a k = x.credit a k + if a = own ∧ bitOf f.entry.posts k then 1 else 0)
          ∧ y.inflight = x.inflight.filter (fun g => !(decide (g.unit = u) && decide (g.entry.disp = f.entry.disp)))
          ∧ y = { x with credits := y.credits, inflight := y.inflight })
      ∧ (stays ∨ (∃ k, k < 5 ∧ bitOf f.entry.posts k = true ∧ 255 ≤ x.credit own k) →
        exec (.instructionComplete t u n) s = .next s))
  ∧ (
    ∀ (s : State) (t : Nat),
      let x := s.tile t
      let e := x.queues.load.headD ⟨0, 0, 0, 0, []⟩
      let idle (y : Tile) : Tile := { y with state := .idle, queues := {}, credits := [], ended := false, staged := [] }
      x.state = .running → s.tileOn t = true → x.held = false → s.akm.frozen = false →
      (∀ u, atEnd (x.queues.of u) = true) → x.inflight = [] → x.stores = [] → x.atoms = [] → x.wait = none →
      (∀ r ∈ s.requests, ∀ h d w, r.purpose ≠ .tileArrive t h d w) →
      exec (.tileIdle t) s = .next (if x.credits = [] then s.setTile t (idle x)
        else (raiseExc t excCREDIT_RESIDUE e.at_ e.disp 0 s).modTile t idle))
  ∧ (
    ∀ (s : State) (t n : Nat) (e : Entry), (s.tile t).queues.load[n]? = some e → prereadDue s t n = true →
      ∃ u, exec (.preread t n) s = .next u
        ∧ (∀ r ∈ sentSince s u, r.pkt.opcode = opRD ∧ r.pkt.pf = true ∧ r.ep = t
            ∧ ∃ dst k, r.purpose = .tilePre t e.disp dst k ∧ (dst - (e.addr 1).val, k) ∈ piecesLeft (s.tile t) e)
        ∧ (∀ p ps, piecesLeft (s.tile t) e = p :: ps → stagedSectors (s.tile t) + p.2 ≤ 8192 → sentSince s u ≠ [])
        ∧ (∀ k, k < s.requests.length → u.requests[k]? = s.requests[k]?)
        ∧ u = { s with tiles := u.tiles, requests := u.requests, flights := u.flights, seqs := u.seqs } ∧ OnlyTile t s u)

/-! ### The tile: waits and arrivals -/

namespace Sys2Proof.Machine

/-- No hurdle that the tile takes part in is released in this tick. -/
def Unreleased (s : State) (t : Nat) : Prop :=
  Table.risesFrom 0 s.regs = true ∧ ∀ h, releaseDue h s = true → s.inMap h t = false

/-- The tile after its sync instruction is ready to complete in this tick. -/
def waitOver (now : Nat) (e : Entry) (y : Tile) : Tile :=
  { y with wait := none, inflight := y.inflight.map (fun f =>
      if f.unit = .sync ∧ f.entry.disp = e.disp then { f with left := 0, due := now } else f) }

end Sys2Proof.Machine

/-- R115, R117: what TWAIT, HARR, HWAIT and HARRW do at issue, with the hurdle's pending bit clear and set. An arrival
sets the bit and sends ARRIVE; with the bit set it raises SYNC_ORDER and sends nothing; a wait on a clear bit, or of
distance 0, is over at once. Arrivals wait for their fence. In the tick in which its hurdle is released, an arrival finds
the bit clear. While a wait has not completed, the sync unit issues nothing. R226, R230, R327: a tally wait of a tile, a core or an engine
is over once its count is ahead of its mark by the distance, as a 32-bit difference below 2^31; the mark then advances by
the distance and the agent goes on. While the difference is smaller nothing changes. -/
def Obligations.TileWaitsFollowBitsAndTallies : Prop :=
  (
    ∀ (s : State) (t : Nat) (e : Entry), syncWaits (s.tile t) = false → Unreleased s t →
      let x := s.tile t
      let i := bitsOf e.word 38 8
      let dist := bitsOf e.word 0 31
      let h := bitsOf e.word 0 10
      let set := Table.get false x.pendingH h
      let arriving (y : Tile) : State :=
        (s.setTile t { y with pendingH := Table.set false x.pendingH h true }).send t (.tileArrive t h e.disp e.at_)
          { opcode := opARRIVE, cls := clsSYNC, tally := h }
      let refused (left : Nat) : State :=
        raiseExc t excSYNC_ORDER e.at_ e.disp 0 (s.setTile t (issuedTile x .sync e left s.now))
      (headIs s t .sync 0x10 = some e → dist ≠ 0 →
        exec (.twait t) s = .next (s.setTile t { issuedTile x .sync e 1 s.now with wait := some (.tally i dist e) }))
      ∧ (headIs s t .sync 0x10 = some e → dist = 0 → (s.tally (192 * t + i)).err = false →
        exec (.twait t) s = .next (s.setTile t (waitOver s.now e { issuedTile x .sync e 1 s.now with
          marks := Table.set 0 x.marks i (Table.get 0 x.marks i % 2 ^ 32) })))
      ∧ (headIs s t .sync 0x11 = some e → fenceOpen s t e = true →
        exec (.harr t) s = .next (if set then refused 0 else arriving (issuedTile x .sync e 0 s.now)))
      ∧ (headIs s t .sync 0x12 = some e →
        exec (.hwait t) s = .next (s.setTile t (if set then { issuedTile x .sync e 1 s.now with wait := some (.hurdle h e) }
          else waitOver s.now e (issuedTile x .sync e 1 s.now))))
      ∧ (headIs s t .sync 0x13 = some e → fenceOpen s t e = true → set = false →
        exec (.harrw t) s = .next (arriving { issuedTile x .sync e 1 s.now with wait := some (.hurdle h e) }))
      ∧ (headIs s t .sync 0x13 = some e → fenceOpen s t e = true → set = true →
        exec (.harrw t) s = .next ((refused 1).modTile t (fun y => { y with wait := some (.hurdle h e) })))
      ∧ (fenceOpen s t e = false → (headIs s t .sync 0x11 = some e → exec (.harr t) s = .next s)
          ∧ (headIs s t .sync 0x13 = some e → exec (.harrw t) s = .next s)))
  ∧ (
    ∀ (s : State) (t : Nat) (e : Entry), headIs s t .sync 0x11 = some e → fenceOpen s t e = true → s.akm.frozen = false →
      let x := s.tile t
      let h := bitsOf e.word 0 10
      (syncWaits x = false → releaseDue h s = true → s.inMap h t = true → x.early.elem h = false →
        Table.risesFrom 0 x.pendingH = true → ∃ u r, exec (.harr t) s = .next u ∧ sentSince s u = [r]
          ∧ r.purpose = .tileArrive t h e.disp e.at_ ∧ r.pkt.opcode = opARRIVE)
      ∧ (syncWaits x = true → exec (.harr t) s = .next s))
  ∧ (
    ∀ (s : State) (i d : Nat),
      let met (count mark : Nat) : Prop := d = 0 ∨
        (wrapNat 32 ((count : Int) - mark) < 2 ^ 31 ∧ d ≤ wrapNat 32 ((count : Int) - mark))
      let short (count mark : Nat) : Prop :=
        d ≠ 0 ∧ wrapNat 32 ((count : Int) - mark) < 2 ^ 31 ∧ wrapNat 32 ((count : Int) - mark) < d
      let marks' (m : Table Nat) : Table Nat := Table.set 0 m i ((Table.get 0 m i + d) % 2 ^ 32)
      (∀ t e, t < 576 → (s.tile t).wait = some (.tally i d e) → (s.tile t).held = false → (s.tile t).state = .running →
        let x := s.tile t
        let y := s.tally (192 * t + i)
        (met y.count (Table.get 0 x.marks i) → y.err = false →
          exec (.tallyWaitComplete t) s = .next (s.setTile t (waitOver s.now e { x with marks := marks' x.marks })).fresh)
        ∧ (met y.count (Table.get 0 x.marks i) → y.err = true →
          exec (.tallyWaitComplete t) s = .next (((raiseExc t excTALLY_ERR e.at_ e.disp 0
            (s.setTile t { x with marks := marks' x.marks })).modTile t (waitOver s.now e)).fresh))
        ∧ (short y.count (Table.get 0 x.marks i) → exec (.tallyWaitComplete t) s = .next s))
      ∧ (∀ c, c < 64 → (s.core c).wait = some (.tally i d) → (s.core c).held = false → (s.core c).paused = false →
        let x := s.core c
        let y := s.tally (110592 + 192 * c + i)
        (met y.count (Table.get 0 x.marks i) → exec (.tallyWaitComplete (576 + c)) s = .next
          (s.setCore c (({ x with wait := none, marks := marks' x.marks } : Core).retire 4)).fresh)
        ∧ (short y.count (Table.get 0 x.marks i) → exec (.tallyWaitComplete (576 + c)) s = .next s))
      ∧ (∀ g, g < 16 → (s.engine g).wait = some (.tally i d) → (s.engine g).paused = false →
        (s.engine g).state = .running →
        let x := s.engine g
        let y := s.tally (122880 + 256 * g + i)
        (met y.count (Table.get 0 x.marks i) → y.err = false →
          exec (.tallyWaitComplete (640 + g)) s = .next (s.setEngine g { x with
            wait := none, marks := marks' x.marks, cmd := x.cmd + 1, next := s.now + 16 }).fresh)
        ∧ (short y.count (Table.get 0 x.marks i) → exec (.tallyWaitComplete (640 + g)) s = .next s)))

/-! ### The tile: copies and atomics -/

/-- R98: a copy is cut at the 1 KiB boundaries of its far-side address; its pieces follow one another, are not empty,
cross no boundary and together are the whole copy. -/
def Obligations.CopiesAreCutAtKibBoundaries : Prop :=
  ∀ far n : Nat, far % 32 = 0 →
    ((pieces far n).map (·.2)).sum = n
    ∧ (∀ k (hk : k < (pieces far n).length), (pieces far n)[k].1 = 32 * (((pieces far n).take k).map (·.2)).sum)
    ∧ (∀ p ∈ pieces far n, 0 < p.2 ∧ (far + p.1) % 1024 + 32 * p.2 ≤ 1024)
    ∧ (∀ k (hk : k + 1 < (pieces far n).length), (far + (pieces far n)[k + 1].1) % 1024 = 0)

namespace Sys2Proof.Machine

/-- The 48-bit LPA, or 40-bit offset in a window, of a request at an offset from an operand's address. -/
def farOffset (a : Addr) (off : Nat) : Nat :=
  if a.glb then (globalOffset a.val + off) % 2 ^ 40 else (a.val + off) % 2 ^ 48

end Sys2Proof.Machine

/-- R99, R82, R110: LOAD sends one read without the prefetch bit for each piece that was not pre-read, and writes a staged
piece into its own SRAM at issue. A destination beyond the SRAM raises LOCAL_BOUND and the LOAD goes on. R100, R101, R102:
STORE reads its source whole, sends one write for each piece and keeps its credit until they are answered; with no sector
it sends its credit at once, if it carries one. R119: ATOMI and ATOMS send one posted atomic with the operation,
signedness and width of their fields and an operand of 4 or 8 bytes from the extension word or from SRAM, and wait for its
answer. R34, R35, R110: a sector that a unit of the tile writes in its own SRAM: discarded beyond the SRAM, discarded with
PROG_LOCKED in the program region of a RUNNING tile; else written with the tile's identity as its tag, unless another
writer has written it since the tags were cleared, and then it becomes all ones, the conflict is counted (its record and tag: DESIGN
CHOICE, log entry 49). -/
def Obligations.TileCopiesSendTheirRequests : Prop :=
  (
    ∀ (s : State) (t : Nat) (e : Entry), headIs s t .load 0x20 = some e →
      let x := s.tile t
      let a := e.addr 0
      let dst := (e.addr 1).val
      let n := bitsOf e.word 20 16
      let ps := pieces a.val n
      let s1 := boundCheck t e dst (32 * n) (s.setTile t (issuedTile x .load e ps.length s.now))
      ((∀ g ∈ x.staged, g.disp ≠ e.disp) → ∃ u, exec (.load t) s = .next u
        ∧ (sentSince s u).map (fun r => (r.ep, r.purpose, r.pkt.opcode, r.pkt.nsect, r.pkt.pf, r.pkt.offset))
          = ps.map (fun p => (t, Purpose.tileLoad t e.disp (dst + p.1) p.2, opRD, p.2, false, farOffset a p.1))
        ∧ u.flights.length = s.flights.length + ps.length
        ∧ u = { s1 with requests := u.requests, flights := u.flights, seqs := u.seqs })
      ∧ (∀ p g b, ps = [p] → x.staged = [g] → g.disp = e.disp → g.dst = dst + p.1 → g.declined = false → g.data = some b →
        exec (.load t) s = .next (pieceDone t .load e.disp (localSectors t e (dst + p.1) b p.2
          (s1.modTile t (fun y => { y with staged := [] }))))))
  ∧ (
    ∀ (s : State) (t : Nat) (e : Entry), headIs s t .store 0x30 = some e → (∀ w ∈ (s.tile t).stores, w.disp ≠ e.disp) →
      let x := s.tile t
      let a := e.addr 0
      let loc := (e.addr 1).val
      let n := bitsOf e.word 20 16
      let ps := pieces a.val n
      let s1 := boundRead t e loc (32 * n) (s.setTile t (issuedTile x .store e 0 s.now))
      let data := localBytes s t loc (32 * n)
      let w : StoreWait := ⟨e.disp, e.at_, ps.length, false, if bitsOf e.ext 62 2 = 2 then some (bitsOf e.ext 46 16) else none,
        bitsOf e.ext 29 17, if bitsOf e.ext 62 2 ≠ 0 then bitsOf e.ext 0 16 else 0, false, a, 32 * n⟩
      (n ≠ 0 → ∃ u, exec (.store t) s = .next u
        ∧ (sentSince s u).map (fun r => (r.ep, r.purpose, r.pkt.opcode, r.pkt.nsect, r.pkt.offset, r.pkt.data))
          = ps.map (fun p => (t, Purpose.tileStore t e.disp, opWR, p.2, farOffset a p.1, slice data p.1 (32 * p.2)))
        ∧ (u.tile t).stores = x.stores ++ [w]
        ∧ u = { s1 with tiles := u.tiles, requests := u.requests, flights := u.flights, seqs := u.seqs } ∧ OnlyTile t s u)
      ∧ (n = 0 → bitsOf e.ext 62 2 ≠ 0 → bitsOf e.ext 0 16 ≠ 0 → ∃ u r, exec (.store t) s = .next u ∧ sentSince s u = [r]
        ∧ r.ep = t ∧ r.purpose = .tileCredit t e.disp ∧ r.pkt.opcode = opCREDIT ∧ r.pkt.tally = w.tally
        ∧ r.pkt.credit = w.credit ∧ r.pkt.terr = false ∧ u.mem = s.mem ∧ OnlyTile t s u)
      ∧ (n = 0 → (bitsOf e.ext 62 2 = 0 ∨ bitsOf e.ext 0 16 = 0) →
        exec (.store t) s = .next (s.setTile t (issuedTile x .store e 0 s.now))))
  ∧ (
    ∀ (s : State) (t : Nat) (e : Entry),
      let x := s.tile t
      let a := e.addr 0
      let width := if bitOf e.word 41 then 8 else 4
      let code := bitsOf e.word 43 3 + (if bitOf e.word 42 then 8 else 0) + (if bitOf e.word 41 then 16 else 0)
      let asks (s1 u : State) (operand : List Byte) : Prop := ∃ r, sentSince s u = [r] ∧ r.ep = t
        ∧ r.purpose = .tileAtom t e.disp e.at_ a.val a.glb ∧ r.pkt.opcode = opATOM ∧ r.pkt.status = code
        ∧ r.pkt.data = padTo 32 operand ∧ r.pkt.offset = farOffset a 0 ∧ (u.tile t).atoms = x.atoms ++ [e.disp]
        ∧ u = { s1 with tiles := u.tiles, requests := u.requests, flights := u.flights, seqs := u.seqs } ∧ OnlyTile t s u
      (headIs s t .store 0x34 = some e → ∃ u, exec (.atomi t) s = .next u ∧ asks s u (bytesOf width e.ext))
      ∧ (headIs s t .store 0x35 = some e → ∃ u, exec (.atoms t) s = .next u
          ∧ asks (boundRead t e (e.addr 1).val width (s.setTile t (issuedTile x .store e 0 s.now))) u
              (localBytes s t (e.addr 1).val width)))
  ∧ (
    ∀ (s : State) (t off : Nat) (e : Entry) (b : List Byte), t < 576 → off % 32 = 0 → b.length = 32 →
      Unreleased s t →
      let x := s.tile t
      let sec := off / 32
      let a := sramBase t + off
      let me := s.nodeId * 1024 + t
      let u := localSectors t e off b 1 s
      let locked := x.state = .running ∧ inProgram s t sec = true
      (0x600000 ≤ off → u = s)
      ∧ (off < 0x600000 → locked → u = raiseExc t excPROG_LOCKED e.at_ e.disp off s)
      ∧ (off < 0x600000 → ¬ locked → Table.get none x.tags sec = none →
          u = (s.writeSectorMem a b).setTile t { x with tags := Table.set none x.tags sec (some me) })
      ∧ (off < 0x600000 → ¬ locked → Table.get none x.tags sec = some me → u = s.writeSectorMem a b)
      ∧ (∀ other, off < 0x600000 → ¬ locked → Table.get none x.tags sec = some other → other ≠ me →
          u.mem = Memory.write 0 s.mem a (List.replicate 32 0xFF)
          ∧ u.bit .tilExcStatus t excWRITE_CONFLICT = true
          ∧ u.field .tilConflictCount t 0 0 32 = Nat.min (2 ^ 32 - 1) (s.field .tilConflictCount t 0 0 32 + 1)
          ∧ u.requests = s.requests ∧ u.tallies = s.tallies))

/-! ### The tile: matrix unit -/

/-- R94, R95, R121 to R127: an MMUL that may issue takes its place in the MXU for K_t ticks, notes the tick its bank
becomes final, and leaves in the bank: for short formats the exact sums on the seed; for an OPEN one the chain with its
operands; else the tree results of the whole chain. A CONT that continues no open chain is ILLEGAL_OP. With K = 0 no MXU tick is taken, the
bank is final 256 ticks later and the seed stands alone (DEDUCED, log entry 32). R45, R46: a
short-format product of INT8 operands is their exact integer dot product. -/
def Obligations.MatrixProductsAndDots : Prop :=
  (
    ∀ (s : State) (t : Nat) (e : Entry), headIs s t .matrix 0x40 = some e → mxuReady s t e = true →
      let x := s.tile t
      let p := mmulOf e
      let old := x.bank e.bank
      let kt := mxuTicks p.ca p.cb p.ps p.k
      let free := issueEnd s.skip s.now kt
      let last := if kt = 0 then s.now else free - 1
      let a := operandLanes s t (e.addr 0).val (codeWidth p.ca) p.m p.k (!p.atr)
      let b := operandLanes s t (e.addr 1).val (codeWidth p.cb) p.n p.k p.btr
      let joined (first : Chain → List (List Nat)) (l : List (List Nat)) : List (List Nat) :=
        match (if p.cont then old.chain else none) with
        | some c => if (first c).isEmpty then l else List.zipWith (· ++ ·) (first c) l
        | none => l
      let seed := if p.seed = 1 then seedBank old (fracOf p.ca + fracOf p.cb) else (({} : Acc), [], ({} : Flags))
      let scales (i count : Nat) : List Nat :=
        if p.sck = 0 then [] else arrayOf s t (e.addr i).val (if p.sck = 1 then 1 else 4) count
      let sa := scales 2 p.m
      let sb := scales 3 p.n
      let nan (i j : Nat) : Bool := decide (p.sck = 1) && (decide (sa.getD i 0 = 255) || decide (sb.getD j 0 = 255))
      let wb := if p.ca = 9 then 8 else 4
      (p.cont = true → continues old p = false → exec (.mmul t) s = .next (raiseExc t excILLEGAL_OP e.at_ e.disp 0
        (s.setTile t { x with queues := x.queues.put .matrix ((x.queues.of .matrix).drop 1) })))
      ∧ ((p.cont = true → continues old p = true) → ∃ u, exec (.mmul t) s = .next u
        ∧ (u.tile t).mxuFree = free
        ∧ (u.tile t).inflight = x.inflight ++ [⟨.matrix, e, 0, last⟩]
        ∧ (u.tile t).queues = x.queues.put .matrix ((x.queues.of .matrix).drop 1)
        ∧ ((u.tile t).bank e.bank).finals = old.finals ++ [⟨e.disp, last + 256, false⟩]
        ∧ (u.tile t).bank (!e.bank) = x.bank (!e.bank)
        ∧ (p.ca ≤ 6 → Table.risesFrom 0 old.acc = true →
          ((u.tile t).bank e.bank).kind = .short ∧ ((u.tile t).bank e.bank).chain = none
          ∧ ((u.tile t).bank e.bank).frac = fracOf p.ca + fracOf p.cb
          ∧ ((u.tile t).bank e.bank).scale = (if p.sck = 0 then .none else if p.sck = 1 then .e8m0 else .fp32)
          ∧ (∀ i, i < p.m → ((u.tile t).bank e.bank).scalesA.getD i 0 = sa.getD i 0)
          ∧ (∀ j, j < p.n → ((u.tile t).bank e.bank).scalesB.getD j 0 = sb.getD j 0)
          ∧ (∀ i j, i < p.m → j < p.n → ((u.tile t).bank e.bank).accAt i j
              = (shortDot p.ca p.cb (nan i j) (Table.get seed.1 seed.2.1 (accKey i j)) (a.getD i []) (b.getD j [])).1))
        ∧ (6 < p.ca → p.isOpen = true →
          ((u.tile t).bank e.bank).chain = some ⟨p.ca, p.cb, p.ps, p.m, p.n, joined (·.rows) a, joined (·.cols) b⟩)
        ∧ (6 < p.ca → p.isOpen = false →
          ((u.tile t).bank e.bank).chain = none ∧ ((u.tile t).bank e.bank).kind = (if p.ca = 9 then .f64 else .b32)
          ∧ (p.seed ≠ 2 → ((u.tile t).bank e.bank).bias = none)
          ∧ (p.seed = 2 → ∃ l, ((u.tile t).bank e.bank).bias = some l
              ∧ ∀ j, j < p.n → l.getD j 0 = natOf (localBytes s t ((e.addr 4).val + wb * j) wb))
          ∧ (∀ i j, i < p.m → j < p.n → Table.get 0 ((u.tile t).bank e.bank).res (accKey i j)
              = (longDot p.ca p.ps ((joined (·.rows) a).getD i []) ((joined (·.cols) b).getD j [])).1))
        ∧ (u.tile t).vregs = x.vregs ∧ SameOutside s u ∧ OnlyTile t s u))
  ∧ (
    ∀ row col : List Nat, row.length = col.length → row.length < 2 ^ 24 → (∀ x ∈ row, x < 256) → (∀ x ∈ col, x < 256) →
      shortDot 5 5 false {} row col
        = (⟨((List.zip row col).map (fun p => signedOf 8 p.1 * signedOf 8 p.2)).sum, false, false, false⟩, {}))
  ∧ (
    ∀ k a n : Nat, k < 64 → 0 < n →
      powered k (issueEnd k a n) = powered k a + n ∧ powered k (issueEnd k a n - 1) + 1 = powered k a + n)

/-- R120: XPOSE writes the transpose of each brick, in ascending order, and the transpose of a brick has element (c, r) of
the brick at (r, c), at every element width. R96, R128, R158: MDRAIN waits until every earlier compute on its bank is
final, and then writes the 16 bricks of the bank's values, row blocks outer, to its destination; with no sector of it
tagged, locked or beyond the SRAM, memory takes exactly those bytes. An output format the bank's kind does not have is
ILLEGAL_OP. R130, R95, R96: MLDB loads every accumulator of its bank as short-format values of fraction F and notes when
they are final; BANK_FINAL makes final what is due and nothing else. -/
def Obligations.MatrixMovesBetweenBankAndSram : Prop :=
  (
    (∀ (s : State) (t : Nat) (e : Entry), headIs s t .load 0x21 = some e →
      let w := codeWidth (bitsOf e.word 32 4)
      let size := 128 * w
      let n := bitsOf e.word 16 16
      let src := (e.addr 0).val
      let dst := (e.addr 1).val
      exec (.xpose t) s = .next (forEach (List.range n) (fun i s =>
        localSectors t e (dst + size * i) (transposeBrick w (localBytes s t (src + size * i) size)) (size / 32) s)
        (boundCheck t e dst (size * n) (boundRead t e src (size * n)
          (s.setTile t (issuedTile (s.tile t) .load e 0 s.now))))))
    ∧ (∀ (w : Nat) (b : List Byte) (r c : Nat), w ∈ [4, 6, 8, 16, 32, 64] → b.length = 128 * w → r < 32 → c < 32 →
        (transposeBrick w b).length = 128 * w
        ∧ bitsOf (natOf (transposeBrick w b)) (w * (32 * r + c)) w = bitsOf (natOf b) (w * (32 * c + r)) w))
  ∧ (
    ∀ (s : State) (t : Nat) (e : Entry), headIs s t .matrix 0x48 = some e → powerReady s = true → Unreleased s t →
      let x := s.tile t
      let b := x.bank e.bank
      let fmt := bitsOf e.word 41 4
      let rec_ := bitOf e.word 40
      let code := bitsOf e.word 37 3
      let off := (e.addr 0).val
      let size := if rec_ then 16384 else 128 * codeWidth fmt
      (computesFinal x e = false → exec (.mdrain t) s = .next s)
      ∧ (computesFinal x e = true → drainLegal b fmt rec_ = false →
          exec (.mdrain t) s = .next (raiseExc t excILLEGAL_OP e.at_ e.disp 0
            (s.setTile t { x with queues := x.queues.put .matrix ((x.queues.of .matrix).drop 1) })))
      ∧ (computesFinal x e = true → drainLegal b fmt rec_ = true → (code = 4 → (e.addr 1).val % 32 = 0) →
          ∃ u, exec (.mdrain t) s = .next u
          ∧ (u.tile t).inflight = x.inflight ++ [⟨.matrix, e, 0, s.now + (if rec_ then 256 else 128)⟩]
          ∧ (u.tile t).bank0 = x.bank0 ∧ (u.tile t).bank1 = x.bank1 ∧ (u.tile t).vregs = x.vregs ∧ OnlyTile t s u
          ∧ u.tallies = s.tallies ∧ u.requests = s.requests ∧ u.flights = s.flights
          ∧ (code ≠ 4 → b.chain = none → x.tags = [] → off % 32 = 0 → off + 16 * size ≤ 0x600000 → progSectors s t = 0 →
              u.mem = (List.range 16).foldl (fun m k => Memory.write 0 m (sramBase t + off + size * k)
                (drainBrick b fmt code rec_ (fun _ _ => 0) (k / 4) (k % 4)).1) s.mem)))
  ∧ (
    (∀ (s : State) (t : Nat) (e : Entry), headIs s t .matrix 0x49 = some e → mxuReady s t e = true →
      let src := bitsOf e.word 43 2
      let frac := bitsOf e.word 37 6
      let free := issueEnd s.skip s.now (if src = 0 then 256 else 128)
      ∃ u, exec (.mldb t) s = .next u ∧ (u.tile t).mxuFree = free
        ∧ ((u.tile t).bank e.bank).kind = .short ∧ ((u.tile t).bank e.bank).frac = frac
        ∧ (∀ i j, i < 128 → j < 128 →
            ((u.tile t).bank e.bank).accAt i j = (mldbElement s t (e.addr 0).val src frac i j).1)
        ∧ ((u.tile t).bank e.bank).finals = ((s.tile t).bank e.bank).finals ++ [⟨e.disp, free - 1 + 256, false⟩]
        ∧ (u.tile t).bank (!e.bank) = (s.tile t).bank (!e.bank) ∧ SameOutside s u ∧ OnlyTile t s u)
    ∧ (∀ (s : State) (t : Nat) (b : Bool), (∃ p ∈ ((s.tile t).bank b).finals, p.due ≤ s.now) →
      let x := s.tile t
      let bank' : Bank := { x.bank b with finals := (x.bank b).finals.filter (fun p => decide (s.now < p.due)) }
      exec (.bankFinal t b) s = .next (s.setTile t (if b then { x with bank1 := bank' } else { x with bank0 := bank' }))))

/-! ### The tile: vector unit -/

namespace Sys2Proof.Machine

/-- The VR instructions: command, opcode and what one element of VD becomes. -/
def vrRows : List ((Nat → Instr) × Nat × (VArgs → Nat × Flags)) := [
  (.vadd, 0x60, elAdd), (.vsub, 0x61, elSub), (.vmul, 0x62, elMul), (.vmulh, 0x63, elMulh), (.vaddsat, 0x64, elAddsat),
  (.vsubsat, 0x65, elSubsat), (.vmulsat, 0x66, elMulsat), (.vmin, 0x67, elMin), (.vmax, 0x68, elMax), (.vabs, 0x69, elAbs),
  (.vneg, 0x6A, elNeg), (.vfma, 0x6B, elFma), (.vsll, 0x70, elSll), (.vsrl, 0x71, elSrl), (.vsra, 0x72, elSra),
  (.vsllsat, 0x73, elSllsat), (.vand, 0x74, elAnd), (.vor, 0x75, elOr), (.vxor, 0x76, elXor), (.vnot, 0x77, elNot),
  (.vcmpeq, 0x78, elCmpeq), (.vcmplt, 0x79, elCmplt), (.vcmple, 0x7A, elCmple), (.vsel, 0x7B, elSel),
  (.vexp2, 0x80, elExp2), (.vlog2, 0x81, elLog2), (.vrcp, 0x82, elRcp), (.vrsqrt, 0x83, elRsqrt), (.vsinpi, 0x84, elSinpi),
  (.vcospi, 0x85, elCospi), (.vqmul, 0x8C, elQmul), (.vdrelu, 0xA0, elDrelu), (.vdlrelu, 0xA1, elDlrelu),
  (.vdsigm, 0xA2, elDsigm), (.vdtanh, 0xA3, elDtanh), (.vdelu, 0xA4, elDelu), (.vdsoftp, 0xA5, elDsoftp),
  (.vdexp, 0xA6, elDexp)]

/-- The tile after the VXU has taken the head of its queue for `n` issue ticks, its result there `lat` ticks after the last. -/
def vIssuedTile (s : State) (x : Tile) (e : Entry) (n lat : Nat) : Tile :=
  { issuedTile x .vector e 0 (issueEnd s.skip s.now n - 1 + lat) with vxuFree := issueEnd s.skip s.now n }

/-- The node with a tile's sticky flags set by those of a list of results. -/
def withFlags (t : Nat) (l : List (Nat × Flags)) (s : State) : State :=
  let bits := (Flags.union (l.map (·.2))).tilBits
  if bits = 0 then s
  else s.setReg (regAddr .tilFlags t) (BitVec.ofNat 64 ((s.getReg (regAddr .tilFlags t)).toNat ||| bits))

end Sys2Proof.Machine

/-- R65, R140 to R144: every VR instruction writes all elements of VD from those of VA, of VB or the immediate, and of VC,
read before any is written; it sets the sticky flags its elements raise, and changes no other register. With issue ticks
skipped for the power cap (R434) nothing changes. How latencies count and what VQMUL flags is log entry 32. -/
def Obligations.VectorInstructionsWriteElementwise : Prop :=
  ∀ r ∈ vrRows, ∀ (s : State) (t : Nat) (e : Entry), headIs s t .vector r.2.1 = some e →
    let x := s.tile t
    let ty := bitsOf e.word 42 4
    let w := tyWidth ty
    let va := vElements x w (bitsOf e.word 32 5)
    let vb := if bitOf e.word 12 then List.replicate (4096 / w) (e.ext % 2 ^ w) else vElements x w (bitsOf e.word 27 5)
    let vc := vElements x w (bitsOf e.word 22 5)
    let out := (List.range (4096 / w)).map (fun k =>
      r.2.2 ⟨ty, bitsOf e.word 13 6, rmOf (bitsOf e.word 19 3) 0, va.getD k 0, vb.getD k 0, vc.getD k 0⟩)
    exec (r.1 t) s = .next (if powerReady s = true ∧ x.vxuFree ≤ s.now then
        withFlags t out (s.setTile t { vIssuedTile s x e (vTicks w) (vLatency e.opcode ty) with
          vregs := Table.set 0 x.vregs (bitsOf e.word 37 5) (packBits w (out.map (·.1))) })
      else s)

/-- R145, R146, R147, R151: the integer and fixed-point results of one element, read signed for INT and Q and unsigned for
UINT: modular sums and products, saturated ones with OVERFLOW exactly when they leave the type's range, the high product,
shifts by the unsigned count, minima and maxima, masks of comparisons. R43, R149 to R151, R164: a NaN operand of a
floating-point operation gives the canonical NaN of the type with no flag, and makes every comparison false. -/
def Obligations.IntegerResultsAndNanOperands : Prop :=
  (
    ∀ v : VArgs, tyIntQ v.ty = true → v.a < 2 ^ tyWidth v.ty → v.b < 2 ^ tyWidth v.ty →
      let w := tyWidth v.ty
      let signed := decide (v.ty < 4) || tyQ v.ty
      let val (x : Nat) : Int := if signed ∧ 2 ^ (w - 1) ≤ x then (x : Int) - 2 ^ w else x
      let bits (x : Nat) : Int := if 2 ^ (w - 1) ≤ x then (x : Int) - 2 ^ w else x
      let lo : Int := if signed then -(2 ^ (w - 1)) else 0
      let hi : Int := if signed then 2 ^ (w - 1) - 1 else 2 ^ w - 1
      let a := val v.a
      let b := val v.b
      let sat (r : Nat × Flags) (z : Int) : Prop := r.1 < 2 ^ w ∧ val r.1 = max lo (min hi z)
        ∧ r.2 = if lo ≤ z ∧ z ≤ hi then {} else flagOverflow
      elAdd v = ((v.a + v.b) % 2 ^ w, {})
      ∧ elSub v = ((v.a + (2 ^ w - v.b)) % 2 ^ w, {})
      ∧ elMul v = (v.a * v.b % 2 ^ w, {})
      ∧ ((elMulh v).1 < 2 ^ w ∧ val (elMulh v).1 = a * b / 2 ^ w)
      ∧ sat (elAddsat v) (a + b) ∧ sat (elSubsat v) (a - b) ∧ sat (elMulsat v) (a * b)
      ∧ ((elMin v).2 = {} ∧ val (elMin v).1 = min a b) ∧ ((elMax v).2 = {} ∧ val (elMax v).1 = max a b)
      ∧ (signed = true → sat (elAbs v) (a.natAbs : Int) ∧ sat (elNeg v) (-a))
      ∧ (signed = false → elAbs v = (v.a, {}) ∧ elNeg v = ((2 ^ w - v.a) % 2 ^ w, {}))
      ∧ elSll v = (if w ≤ v.b then 0 else v.a * 2 ^ v.b % 2 ^ w, {})
      ∧ elSrl v = (if w ≤ v.b then 0 else v.a / 2 ^ v.b, {})
      ∧ ((elSra v).2 = {} ∧ (elSra v).1 < 2 ^ w
          ∧ bits (elSra v).1 = if w ≤ v.b then (if bits v.a < 0 then -1 else 0) else bits v.a / 2 ^ v.b)
      ∧ sat (elSllsat v) (a * 2 ^ v.b)
      ∧ elAnd v = (v.a &&& v.b, {}) ∧ elOr v = (v.a ||| v.b, {}) ∧ elXor v = (v.a ^^^ v.b, {})
      ∧ elNot v = (2 ^ w - 1 - v.a, {})
      ∧ elCmpeq v = (if v.a = v.b then 2 ^ w - 1 else 0, {})
      ∧ elCmplt v = (if a < b then 2 ^ w - 1 else 0, {})
      ∧ elCmple v = (if a ≤ b then 2 ^ w - 1 else 0, {}))
  ∧ (
    ∀ v : VArgs, tyFloat v.ty = true → (v.xa.isNan = true ∨ v.xb.isNan = true) →
      let nan : Nat × Flags := ((tyFmt v.ty).canonNan, {})
      elAdd v = nan ∧ elSub v = nan ∧ elMul v = nan ∧ elFma v = nan
      ∧ elMin v = nan ∧ elMax v = nan ∧ (v.xa.isNan = true → elAbs v = nan ∧ elNeg v = nan)
      ∧ elDrelu v = nan ∧ elDsigm v = nan ∧ elDtanh v = nan ∧ elDexp v = nan
      ∧ elCmpeq v = (0, {}) ∧ elCmplt v = (0, {}) ∧ elCmple v = (0, {}))

/-- R153, R156, R157, R159, R160: what VCVT, VACC, VLD, VST and the row reductions write; their completion ticks count from
the last issue tick, a reduction's with the levels of its tree (R166 as log entry 32 reads it, DEDUCED). R159: the brick form of VLD and
VST is one permutation: the brick written from eight registers that were read from a brick is that brick. -/
def Obligations.VectorMovesConversionsReductionsAndBricks : Prop :=
  (
    ∀ (s : State) (t : Nat) (e : Entry), powerReady s = true → (s.tile t).vxuFree ≤ s.now →
      let x := s.tile t
      let vd := bitsOf e.word 37 5
      let va := bitsOf e.word 32 5
      let code := bitsOf e.word 19 3
      let n := bitsOf e.word 27 5 + 1
      let off := (e.addr 0).val
      let ty := bitsOf e.word 42 4
      let w := tyWidth ty
      let b := x.bank e.bank
      let row := bitsOf e.word 30 7
      let col := 32 * bitsOf e.word 28 2
      let reduced (f : Nat → List Nat → Nat × Flags) : State :=
        let segs := (List.range (4096 / w / 32)).map (fun k => f ty (leavesOf x w va n k))
        let out := segs.flatMap (fun r => List.replicate 32 r)
        withFlags t out (s.setTile t { vIssuedTile s x e n (4 + twiceLog2 (32 * n)) with
          vregs := Table.set 0 x.vregs vd (packBits w (out.map (·.1))) })
      (headIs s t .vector 0x88 = some e →
        let dst := bitsOf e.word 27 5
        let src := bitsOf e.word 22 5
        let count := cvtElements dst src
        let ticks := if sideWidth dst = 64 ∨ sideWidth src = 64 then count / 64 else count / 128
        let gsr := (e.addr 0).val
        let s1 := s.setTile t (vIssuedTile s x e ticks 4)
        let s2 := boundRead t e gsr 32 s1
        let written (v : State) (rm : Nat → Rm) : State :=
          let xs := unpackBits (sideWidth src) count (vGroup (v.tile t) va (cvtRegs dst src src))
          let out := (List.zip (List.range count) xs).map (fun p => cvtElement dst src (bitsOf e.word 13 6) (rm p.1) p.2)
          withFlags t out (v.modTile t
            (setVGroup vd (cvtRegs dst src dst) (packBits (sideWidth dst) (out.map (·.1)))))
        (code ≠ 4 → exec (.vcvt t) s = .next (written s1 (fun _ => rmOf code 0)))
        ∧ (code = 4 → gsr % 32 = 0 → exec (.vcvt t) s = .next (written s2 (fun k =>
            .sr ((readDescriptor s2 t gsr).random (s2.getReg (regAddr .synStep)) (k / 32) (k % 32)))))
        ∧ (code = 4 → gsr % 32 ≠ 0 → exec (.vcvt t) s = .next (raiseExc t excMISALIGNED e.at_ e.disp gsr
            (s.setTile t { x with queues := x.queues.put .vector ((x.queues.of .vector).drop 1) }))))
      ∧ (headIs s t .vector 0x90 = some e → computesFinal x e = true → b.chain = none →
        (bitsOf e.word 26 2 = 0 → exec (.vacc t) s = .next
          (let out := (List.range 128).map (fun i => vaccValue b false (row + i / 32) (col + i % 32))
           withFlags t out (s.setTile t { vIssuedTile s x e 1 4 with
             vregs := Table.set 0 x.vregs vd (packBits 32 (out.map (·.1))) })))
        ∧ (bitsOf e.word 26 2 = 1 → exec (.vacc t) s = .next
          (let out := (List.range 64).map (fun i => vaccValue b true (row + i / 32) (col + i % 32))
           withFlags t out (s.setTile t { vIssuedTile s x e 1 4 with
             vregs := Table.set 0 x.vregs vd (packBits 64 (out.map (·.1))) })))
        ∧ (bitsOf e.word 26 2 = 2 → b.kind = .short → exec (.vacc t) s = .next
          (s.setTile t { vIssuedTile s x e 1 4 with
            vregs := Table.set 0 x.vregs vd (natOf ((List.range 32).flatMap (fun c =>
              recordOf b.frac (b.accAt row (col + c))))) }))
        ∧ (bitsOf e.word 26 2 = 3 → ∃ u, exec (.vacc t) s = .next u
          ∧ ((u.tile t).bank e.bank).finals = b.finals ++ [⟨e.disp, s.now + 4, true⟩]
          ∧ (b.kind = .short → Table.risesFrom 0 b.acc = true → ∀ c, c < 32 → col + c < 128 →
              ((u.tile t).bank e.bank).accAt row (col + c) = (b.accAt row (col + c)).combine
                (accOfRecord b.frac (slice (bytesOf 512 (Table.get 0 x.vregs vd)) (16 * c) 16)).1)
          ∧ (u.tile t).vregs = x.vregs ∧ SameOutside s u ∧ OnlyTile t s u))
      ∧ (headIs s t .vector 0xB0 = some e →
          let s1 := boundRead t e off (512 * n) (s.setTile t (vIssuedTile s x e n (3 + if bitOf e.word 26 then 4 else 0)))
          exec (.vld t) s = .next (if bitOf e.word 26 then
              forEach (List.range (n / 8)) (fun g s =>
                s.modTile t (setVGroup (vd + 8 * g) 8 (groupFromBrick (localBytes s t (off + 4096 * g) 4096)))) s1
            else s1.modTile t (setVGroup vd n (natOf (localBytes s t off (512 * n))))))
      ∧ (headIs s t .vector 0xB1 = some e →
          exec (.vst t) s = .next (localSectors t e off
            (if bitOf e.word 26 then (List.range (n / 8)).flatMap (fun g => brickFromGroup (vGroup x (vd + 8 * g) 8))
              else bytesOf (512 * n) (vGroup x vd n))
            (16 * n) (boundCheck t e off (512 * n)
              (s.setTile t (vIssuedTile s x e n (3 + if bitOf e.word 26 then 4 else 0))))))
      ∧ (headIs s t .vector 0x98 = some e → exec (.vrsum t) s = .next (reduced sumLeaves))
      ∧ (headIs s t .vector 0x99 = some e → exec (.vrmax t) s = .next (reduced (pickLeaf true)))
      ∧ (headIs s t .vector 0x9A = some e → exec (.vrmin t) s = .next (reduced (pickLeaf false))))
  ∧ (
    ∀ b : List Byte, b.length = 4096 → brickFromGroup (groupFromBrick b) = b)

/-! ### The package fabric -/

namespace Sys2Proof.Machine

/-- Stops between two stops of a ring, the shorter way. -/
def ringDistance (r : Ring) (a b : Stop) : Nat :=
  let n := (ringStops r).length
  Nat.min ((posOn r b + n - posOn r a) % n) ((posOn r a + n - posOn r b) % n)

/-- Every field of a packet fits its place in the header of R187. -/
def Packet.fits (p : Packet) : Prop :=
  p.opcode < 2 ^ 8 ∧ p.cls < 4 ∧ p.mcast < 4 ∧ p.dstEp < 2 ^ 10 ∧ p.srcEp < 2 ^ 10 ∧ p.nsect < 2 ^ 6
    ∧ p.dstNode < 2 ^ 16 ∧ p.srcNode < 2 ^ 16 ∧ p.jid < 2 ^ 16 ∧ p.offset < 2 ^ 48 ∧ p.window < 2 ^ 8
    ∧ p.status < 2 ^ 8 ∧ p.tally < 2 ^ 17 ∧ p.credit < 2 ^ 16 ∧ p.seq < 2 ^ 16 ∧ p.mask < 2 ^ 36 ∧ p.rsvd < 4

/-- The arrival at a position is a request of an opcode that its endpoint serves now: it is well formed, addressed to no
penned tile, and no earlier request touches its sectors. -/
def Serves (s : State) (n op : Nat) (a : Arrival) : Prop :=
  s.delivered[n]? = some a ∧ a.pkt.opcode = op ∧ a.pkt.cls ≠ clsRSP ∧ (addressOp op = true → mustWait s n a = false)
    ∧ (a.ep < 576 → s.tileOn a.ep = true) ∧ wellFormedPacket a.pkt = true

/-- No dirty cache line covers any of `n` sectors from an address up. -/
def NoDirtyLine (s : State) (base n : Nat) : Prop :=
  s.linesWhere (fun k l => l.dirty && decide (base < 64 * (k + 1)) && decide (64 * k < base + 32 * n)) = []

end Sys2Proof.Machine

/-- R187, R188: the 32 header bytes of a packet give back every field, their HCRC checks, and the HCRC does not depend on
the VC bit. -/
def Obligations.PacketHeaderRoundTrip : Prop :=
  ∀ p : Packet, p.fits →
    (headerBytes p).length = 32 ∧ packetOf (headerBytes p) p.data p.poison = p
    ∧ hcrcOf (headerBytes p) = natOf (slice (headerBytes p) 30 2)
    ∧ ∀ v : Bool, slice (headerBytes { p with vc := v }) 30 2 = slice (headerBytes p) 30 2

/-- R177: within a phase a packet's next stop lies on the ring and is one stop nearer its end, counted the shorter way
round; where both ways are equally long it is the one at the next position. -/
def Obligations.RingHopsTakeTheShorterWay : Prop :=
  ∀ (r : Ring) (a b : Stop), a ∈ ringStops r → b ∈ ringStops r → a ≠ b →
    (nextStop r a b).1 ∈ ringStops r ∧ ringDistance r (nextStop r a b).1 b + 1 = ringDistance r a b
    ∧ (2 * ringDistance r a b = (ringStops r).length →
        posOn r (nextStop r a b).1 = (posOn r a + 1) % (ringStops r).length)

/-- R176 to R183, R186, R197, R442: a packet at its source stop is answered there or enters its injection buffer and heads for its
endpoint; on a phase it moves to the next stop, with the cycles of the link, and takes VC 1 over the wrap link; at the end of its
first phase, a tile that lies on both rings, it turns into its second on VC 0; at its last stop it reaches the endpoint; with a
header error it is discarded and the error is fatal. A packet whose next buffer has no credit, or that one of a higher class goes
before at its output, stays where it is. R192, R193: a multicast at the head of its tree or line starts it (on VC 0, also where it
goes on along the ring it came by: the model's choice, log entry 55); each stop of it hands a copy to its own tile when its bit is
set, and the packet goes on along the row and down the columns that hold masked tiles further on, or round the line. -/
def Obligations.PacketsMoveStopByStop : Prop :=
  (∀ (s : State) (n : Nat) (f : Flight), s.flights[n]? = some f → mayMove s n f = true → injectionStopped s f = false →
    let without : State := releaseRx f { s with flights := dropAt s.flights n }
    let declines := f.pkt.pf = true ∧ f.pkt.opcode = opRD
    (∀ code, f.leg = .source → f.via = none → decodeRoute s f = .answer code →
      exec (.packetRoute n .none) s = .next { without with delivered := s.delivered ++ [{
        ep := f.pkt.srcEp,
        pkt := responseTo f.pkt f.pkt.dstEp (if declines then opDECLINE else opERR) (if declines then 0 else code) [] }] })
    ∧ (∀ ep k p, f.leg = .source → decodeRoute s f = .go ep k p → p.mcast = 0 → ∃ (g : Flight) (u : State),
        exec (.packetRoute n .none) s = .next u ∧ u.flights = setAt s.flights n g
        ∧ u = { s with flights := u.flights, d2d := u.d2d, ports := u.ports }
        ∧ g.since = placeIn s (injectBuf f) ∧ g.dst = (stopOf ep k).getD f.src ∧ g.stop = f.stop ∧ g.src = f.src ∧ g.via = f.via ∧ g.pkt.vc = false
        ∧ g.held = [(injectBuf f, flitsOf p)]
        ∧ g.cycles = (if sideStop f.src then 16 else 2)
        ∧ g.leg = (if (routeOf (decide (p.cls = clsRSP)) f.src g.dst).length = 2 then .first else .second))
    ∧ (∀ r b, f.stop ≠ f.dst →
        let route := routeOf (decide (f.pkt.cls = clsRSP)) f.src f.dst
        (((f.leg = .first ∨ f.leg = .second) ∧ route = [(r, b)])
          ∨ (f.leg = .first ∧ f.stop ≠ b ∧ ∃ o, route = [(r, b), o]) ∨ (f.leg = .second ∧ ∃ o, route = [o, (r, b)])) →
        ∃ (g : Flight) (u : State), exec (.packetRoute n .none) s = .next u ∧ u.flights = setAt s.flights n g
          ∧ u = { s with flights := u.flights, d2d := u.d2d, arb := u.arb }
          ∧ g = { f with
              stop := (nextStop r f.stop b).1,
              cycles := f.cycles + linkCycles s r f.stop (nextStop r f.stop b).1 (nextStop r f.stop b).2,
              pkt := { f.pkt with vc := f.pkt.vc || (nextStop r f.stop b).2 }, held := g.held, since := g.since })
    ∧ (∀ r b r' b', f.leg = .first → f.stop = b → f.stop ≠ f.dst →
        routeOf (decide (f.pkt.cls = clsRSP)) f.src f.dst = [(r, b), (r', b')] → ∃ (g : Flight) (u : State),
          exec (.packetRoute n .none) s = .next u ∧ u.flights = setAt s.flights n g
          ∧ u = { s with flights := u.flights, d2d := u.d2d, arb := u.arb }
          ∧ g = { f with
              leg := .second, cycles := f.cycles + 2, pkt := { f.pkt with vc := false }, since := g.since,
              held := [(.turn b r' (vcNumber f.pkt false), flitsOf f.pkt)] })
    ∧ (∀ x y, (f.leg = .first ∨ f.leg = .second) → f.stop = f.dst → f.dst = .tile x y → f.pkt.mcast = 0 → 24 * y + x < 576 →
        untaken f.pkt = false → ∃ u, exec (.packetRoute n .none) s = .next u
          ∧ u.delivered = s.delivered ++ [{ ep := 24 * y + x, via := f.via, pkt := f.pkt }]
          ∧ u.flights = dropAt s.flights n
          ∧ u = { s with flights := u.flights, delivered := u.delivered, d2d := u.d2d, arb := u.arb })
    ∧ (∃ d, exec (.packetRoute n .header) s
        = .next (raiseFatal 1 (fabricError 0 (stopNumber f.stop) { without with d2d := d }))))
  ∧ (∀ (rsp : Bool) (src dst b b' : Stop) (r r' : Ring), routeOf rsp src dst = [(r, b), (r', b')] →
      b' = dst ∧ ∃ x y, b = .tile x y
        ∧ (rsp = false → r = .row y ∧ r' = .col x ∧ src.row = some y ∧ dst.col = x)
        ∧ (rsp = true → r = .col x ∧ r' = .row y ∧ src.col = x ∧ dst.row = some y))
  ∧ (∀ (s : State) (n : Nat) (f : Flight), s.flights[n]? = some f → mayMove s n f = true → f.pkt.spreads = true →
      f.leg ≠ .source →
      let step' (u : State) : Prop := exec (.packetRoute n .none) s = .next u
        ∧ u = { s with flights := u.flights, delivered := u.delivered, d2d := u.d2d, arb := u.arb }
      ((f.leg = .first ∨ f.leg = .second) → f.stop = f.dst → ∃ g u, step' u ∧ u.flights = setAt s.flights n g
        ∧ u.delivered = s.delivered ∧ g.leg = treeLeg f ∧ g.stop = f.stop ∧ g.pkt = { f.pkt with vc := false })
      ∧ (∀ x y, f.stop = .tile x y →
        let j := x - f.pkt.dstEp % 24
        let i := y - f.pkt.dstEp / 24
        let copy (bit : Nat) : List Arrival :=
          if bitOf f.pkt.mask bit then [{ ep := 24 * y + x, pkt := copyFor f.pkt (24 * y + x) }] else []
        (f.leg = .foldRow → ∃ u down on, step' u ∧ u.delivered = s.delivered ++ copy j
          ∧ u.flights = dropAt s.flights n ++ down ++ on
          ∧ down.length ≤ 1 ∧ (down.length = 1 ↔ ∃ k, 0 < k ∧ k < 6 ∧ bitOf f.pkt.mask (6 * k + j) = true)
          ∧ on.length ≤ 1 ∧ (on.length = 1 ↔ ∃ k l, j < l ∧ l < 6 ∧ k < 6 ∧ bitOf f.pkt.mask (6 * k + l) = true)
          ∧ (∀ g ∈ down, g.leg = .foldCol ∧ g.stop = f.stop ∧ g.pkt = { f.pkt with vc := false })
          ∧ (∀ g ∈ on, g.leg = .foldRow ∧ g.stop = .tile (x + 1) y ∧ g.pkt = f.pkt))
        ∧ (f.leg = .foldCol → ∃ u, step' u ∧ u.delivered = s.delivered ++ (if i = 0 then [] else copy (6 * i + j))
          ∧ ((∃ k, i < k ∧ k < 6 ∧ bitOf f.pkt.mask (6 * k + j) = true) → ∃ g, u.flights = setAt s.flights n g
              ∧ g.leg = .foldCol ∧ g.stop = .tile x (y + 1) ∧ g.pkt = f.pkt)
          ∧ ((∀ k, i < k → k < 6 → bitOf f.pkt.mask (6 * k + j) = false) → u.flights = dropAt s.flights n))
        ∧ (∀ k, f.leg = .line k → ∃ u, step' u ∧ u.delivered = s.delivered ++ copy (if f.pkt.mcast = 2 then x else y)
          ∧ (k = 0 → u.flights = dropAt s.flights n)
          ∧ (∀ l, k = l + 1 → ∃ g, u.flights = setAt s.flights n g ∧ g.leg = .line l ∧ g.stop = lineNext f
              ∧ g.pkt = { f.pkt with vc := f.pkt.vc || isWrap (treeRing f) f.stop g.stop }))))
  ∧ (∀ f : Flight, f.stop ∈ ringStops (treeRing f) →
      posOn (treeRing f) (lineNext f) = (posOn (treeRing f) f.stop + 1) % (ringStops (treeRing f)).length)
  ∧ (∀ (s : State) (n : Nat) (f : Flight) (err : FlitError), s.flights[n]? = some f → mayMove s n f = false →
      ∃ g u, exec (.packetRoute n err) s = .next u ∧ u = { s with flights := setAt s.flights n g, d2d := u.d2d }
        ∧ g = { f with held := g.held })
  ∧ (∀ (s : State) (n m : Nat) (f g : Flight), f.leg ≠ .source → g.leg ≠ .source → n ≠ m → s.flights[m]? = some g →
      ready s m g = true → g.pkt.cls < f.pkt.cls → (∃ o ∈ outputsOf f, o ∈ outputsOf g) → mayMove s n f = false)
  ∧ (∀ (s : State) (n : Nat) (f : Flight) (r : Ring) (a b : Stop) (v : Nat), f.leg ≠ .source → .link r a b v ∈ nextBufs f →
      ((if (crossing r a b).isSome then 32 else 4) ≤ occupied s (.link r a b v) → mayMove s n f = false)
      ∧ (∀ d, crossing r a b = some d → posOn r b = (posOn r a + 1) % (ringStops r).length →
          (s.link (2 * d)).credit v = 0 → mayMove s n f = false))

/-- R180, R199, R200: a die-to-die frame with a good CRC in sequence is taken at the end of the link it comes to (which end: log
entry 46): the expected number advances, its acknowledgement and its credits are in, then its flits in order. Any other frame of a
link that is up changes nothing else and asks for a replay: that end sends a frame with NAK at once, and the other end, which takes
it, has every stored frame after the acknowledged one sent again and counted. A frame that is sent has its flits, numbers and check
code where a receiver reads them. -/
def Obligations.D2dFramesAreTakenInSequence : Prop :=
  (∀ (s : State) (n : Nat) (frame : List Byte), n < 134 → frame.length = 768 → s.bit .pfbD2dStatus n 0 = true →
    let e := frameEnd s n frame
    let x := s.link e
    let seq := natOf (slice frame 645 2) % 4096
    let word := natOf (slice frame 647 2)
    let good := crc64 (frame.take 760) = natOf (slice frame 760 8) ∧ seq = x.expect
    e / 2 = n
    ∧ (good → ∃ y : D2d, exec (.d2dFrame n frame) s = .next (takeLinkFlits e (frameFlits frame 5 640)
          (if bitOf word 12 then linkReplay e (s.fresh.setLink e y) else s.fresh.setLink e y))
        ∧ y.expect = (x.expect + 1) % 4096 ∧ y.nak = false ∧ y.acked = word % 4096 ∧ y.sent = x.sent ∧ y.store = x.store
        ∧ y.rx = x.rx
        ∧ ∀ v, v < 8 → y.credit v = min 32 (x.credit v + (frame.getD (649 + v) 0).toNat))
    ∧ (¬ good → exec (.d2dFrame n frame) s
        = .next (linkReplay (otherEnd e) (sendControl e (s.fresh.setLink e { x with nak := true })))))
  ∧ (∀ (s : State) (e : Nat), Table.risesFrom 0 s.d2d = true →
    let x := s.link e
    let y := s.link (otherEnd e)
    let u := sendControl e s
    ∃ f : Frame, u = { s with d2d := u.d2d } ∧ f.seq = x.sent ∧ f.nak = x.nak ∧ f.slots = [] ∧ f.ack = (x.expect + 4095) % 4096
      ∧ (u.link e).wire = x.wire ++ [f] ∧ (u.link e).nak = false ∧ (u.link e).sent = (x.sent + 1) % 4096
      ∧ (u.link (otherEnd e)).expect = (y.expect + 1) % 4096 ∧ (u.link (otherEnd e)).acked = f.ack
      ∧ ∀ v, v < 8 → (u.link (otherEnd e)).credit v = min 32 (y.credit v + min 255 (x.freed.getD v 0)))
  ∧ (∀ (s : State) (e c : Nat) (b : List Byte), bitOf c 1 = true → bitOf c 2 = false →
    let x := s.link e
    let v := bitsOf c 3 3
    takeLinkFlits e [(c, b)] s = s.setLink e { x with rx := Table.set [] x.rx v [(b, bitOf c 6)] })
  ∧ (∀ (s : State) (e : Nat) (slots : List Slot), Table.risesFrom 0 s.d2d = true → 0 < slots.length → slots.length ≤ 5 →
    let x := s.link e
    let u := sendFlits e slots s
    ∃ f : Frame, u = { s with d2d := u.d2d } ∧ (u.link e).wire = x.wire ++ [f] ∧ f.slots = slots ∧ f.seq = x.sent
      ∧ ∀ v, v < 8 → (u.link e).credit v = x.credit v - (slots.filter (fun y => decide (y.vc = v))).length)
  ∧ (∀ (s : State) (e : Nat) (first : Frame) (rest : List Frame), Table.risesFrom 0 s.d2d = true → e < 268 →
    let n := e / 2
    let x := s.link e
    let times := if x.failing = some first.seq then x.retries + 1 else 1
    framesAfter x.acked x.store = first :: rest → times ≤ 16 →
    let u := linkReplay e s
    (u.link e).wire = x.wire ++ first :: rest ∧ (u.link e).retries = times ∧ (u.link e).store = x.store
      ∧ u.field .pfbD2dStatus n 0 16 32 = min (2 ^ 32 - 1) (s.field .pfbD2dStatus n 0 16 32 + (rest.length + 1)))
  ∧ (∀ f : Frame, f.msg = [] → f.slots.length ≤ 5 → (∀ x ∈ f.slots, x.bytes.length = 128) →
    let b := f.d2dBytes
    b.length = 768 ∧ crc64 (b.take 760) = natOf (slice b 760 8) ∧ natOf (slice b 645 2) = f.seq % 4096
      ∧ frameFlits b 5 640 = f.slots.map (fun x => (x.control, x.bytes)))

/-! ### Requests at their endpoints -/

/-- R84, R206, R208, R210, R211: RD and SNRD answer all sectors in one RDATA, or one ERR with the code of the lowest failing
sector, or DECLINE to a prefetch, and change nothing where no sector has a wrong symbol; a sector with one is corrected,
written back and counted; a sector found uncorrectable becomes stored poison, sets UE and is answered MEM_UE. -/
def Obligations.ReadsAnswerWholeOrFail : Prop :=
  (∀ (s : State) (n : Nat) (a : Arrival), heldBy s a.ep a.pkt.offset a.pkt.nsect = true → reserveDenied s a.pkt = false →
    NoDirtyLine s a.pkt.offset a.pkt.nsect →
    (∀ i, i < a.pkt.nsect → s.wrongAt (a.pkt.offset + 32 * i) = 0) →
    let base := a.pkt.offset
    let code := if base < 0x8000000000 then pieceCode s base a.pkt.nsect else sramCode s base a.pkt.nsect
    let u := if code = 0 then respond a opRDATA 0 (s.readMem base (32 * a.pkt.nsect)) (taken n s)
      else if a.pkt.pf = true ∧ a.pkt.opcode = opRD then respond a opDECLINE 0 [] (taken n s)
      else respond a opERR code [] (taken n s)
    (Serves s n opRD a → exec (.rd n [] []) s = .next u) ∧ (Serves s n opSNRD a → exec (.snrd n [] []) s = .next u))
  ∧ (∀ (s : State) (n : Nat) (a : Arrival), Serves s n opRD a → heldBy s a.ep a.pkt.offset 1 = true →
    reserveDenied s a.pkt = false → NoDirtyLine s a.pkt.offset 1 → s.memWf = true → Table.risesFrom 0 s.regs = true →
    Table.risesFrom 0 s.poison = true → Table.risesFrom 0 s.wrong = true → a.pkt.nsect = 1 → a.pkt.pf = false →
    a.pkt.offset < 0x8000000000 → s.pcPenned (s.pcOf a.pkt.offset).1 = false →
    Table.get false s.poison (a.pkt.offset / 32) = false →
    (s.wrongAt a.pkt.offset = 1 → ∃ v, exec (.rd n [] []) s = .next (respond a opRDATA 0 (s.readMem a.pkt.offset 32) v)
      ∧ v.mem = s.mem ∧ v.poison = s.poison ∧ v.wrongAt a.pkt.offset = 0
      ∧ v.field .memErrStatus 0 0 16 32 = min (2 ^ 32 - 1) (s.field .memErrStatus 0 0 16 32 + 1))
    ∧ ∃ v, exec (.rd n [] [0]) s = .next (respond a opERR errMEM_UE [] v)
      ∧ v.readMem a.pkt.offset 32 = List.replicate 32 0xFF ∧ Table.get false v.poison (a.pkt.offset / 32) = true
      ∧ v.bit .memErrStatus 0 0 = true ∧ v.tiles = s.tiles ∧ v.tallies = s.tallies)

/-- R70, R206, R211, R220: a WR to stacked memory stores its sectors and clears their poison, a core's narrow one stores
only its bytes (log entry 29); to a marked page it is held, and waits while the side buffer is full; to the program region
of a tile that runs or halted it is refused PROG_LOCKED; to other tile SRAM each sector goes in with the sender's tag. It
is acknowledged after that; where a hurdle is released in this tick, after the release (R92). R93, R119, R207: a posted atomic replaces its word by the operation's result, signed or
unsigned, and changes no other byte; on a failing sector it is refused and changes nothing; tile SRAM refuses it with
ATOM_DENIED. -/
def Obligations.WritesAndAtomicsStoreTheirBytes : Prop :=
  (
    ∀ (s : State) (n : Nat) (a : Arrival), Serves s n opWR a →
      let p := a.pkt
      let s1 := taken n s
      let unheld := isHeld s a = false ∧ reserveDenied s p = false
      (p.narrow = false → p.poison = [] → (p.keep = 0 ∨ p.nsect = 1) → unheld → heldBy s a.ep p.offset p.nsect = true →
        p.offset < 0x8000000000 → NoDirtyLine s p.offset p.nsect → (∀ i, i < p.nsect → s.pcPenned (s.pcOf (p.offset + 32 * i)).1 = false) →
        Table.risesFrom 0 s.poison = true → Table.risesFrom 0 s.wrong = true → ∃ v,
          exec (.wr n) s = .next (acknowledge a v)
          ∧ v.mem = Memory.write 0 s.mem p.offset
              (if p.keep = 0 then p.data else s.mergedSector p.offset p.data (2 ^ 32 - 1 - p.keep))
          ∧ (∀ k, let inside := decide (p.offset / 32 ≤ k) && decide (k < p.offset / 32 + p.nsect)
              Table.get false v.poison k = (Table.get false s.poison k && !inside)
              ∧ Table.get 0 v.wrong k = if inside then 0 else Table.get 0 s.wrong k)
          ∧ v = { s1 with mem := v.mem, poison := v.poison, wrong := v.wrong })
      ∧ (p.narrow = true → p.poison = [] → unheld → heldBy s a.ep (p.offset / 32 * 32) 1 = true → p.offset < 0x8000000000 →
        NoDirtyLine s (p.offset / 32 * 32) 1 → s.pcPenned (s.pcOf (p.offset / 32 * 32)).1 = false →
        Table.get false s.poison (p.offset / 32) = false → s.wrongAt p.offset < 2 → s.memWf = true →
        Table.risesFrom 0 s.wrong = true → ∃ v,
          exec (.wr n) s = .next (acknowledge a v)
          ∧ v = { noteCorrected (s.pcOf (p.offset / 32 * 32)).1 (s.wrongAt p.offset) s1 with
              mem := v.mem, poison := v.poison, wrong := v.wrong }
          ∧ v.wrongAt p.offset = 0
          ∧ (∀ k, Table.get 0 v.mem k = if p.offset ≤ k ∧ k < p.offset + p.data.length then p.data.getD (k - p.offset) 0
              else Table.get 0 s.mem k))
      ∧ (isHeld s a = true → reserveDenied s p = false → exec (.wr n) s = .next (
          if 32 ≤ (s.heldWrites.filter (fun h => decide (h.port = a.ep - 576))).length then s
          else { s1 with
            heldWrites := s1.heldWrites ++ [⟨a.ep - 576, a⟩],
            ckp := { s.ckp with copyRequests :=
              if s.ckp.copyRequests.elem (p.offset / 0x10000) then s.ckp.copyRequests
              else s.ckp.copyRequests ++ [p.offset / 0x10000] } }))
      ∧ (∀ t off, unheld → p.narrow = false → p.poison = [] → p.keep = 0 → heldBy s a.ep p.offset p.nsect = true →
          placeOf p.offset = .sram t off → Unreleased s t →
          let writer := p.srcNode * 1024 + p.srcEp
          let s2 := if taggedByOther s1 t (off / 32) p.nsect writer then markConflict t p s1 else s1
          let locked := (s.tile t).state ≠ .idle ∧ ∃ i, i < p.nsect ∧ inProgram s t (off / 32 + i) = true
          (locked → exec (.wr n) s = .next (respond a opERR errPROG_LOCKED [] s1))
          ∧ (¬ locked → exec (.wr n) s = .next (acknowledge a
              (writeSectors t (off / 32) writer p.data p.nsect s2)))))
  ∧ (
    ∀ (s : State) (n : Nat) (a : Arrival), Serves s n opATOM a → isHeld s a = false → reserveDenied s a.pkt = false →
      heldBy s a.ep (a.pkt.offset / 32 * 32) 1 = true → NoDirtyLine s (a.pkt.offset / 32 * 32) 1 → a.pkt.poison = [] →
      s.wrongAt a.pkt.offset = 0 →
      let p := a.pkt
      let s1 := taken n s
      let bytes := if bitOf p.status 4 then 8 else 4
      let w := 8 * bytes
      let sgn := bitOf p.status 3
      let old := natOf (s.readMem p.offset bytes)
      let x := natOf (p.data.take bytes)
      let val (z : Nat) : Int := if sgn then signedOf w z else z
      let code := if p.offset < 0x8000000000 then pieceCode s (p.offset / 32 * 32) 1
        else sramCode s (p.offset / 32 * 32) 1
      (∀ t off, placeOf p.offset = .sram t off → exec (.atom n [] []) s = .next (respond a opERR errATOM_DENIED [] s1))
      ∧ ((∀ t off, placeOf p.offset ≠ .sram t off) → code ≠ 0 →
          exec (.atom n [] []) s = .next (respond a opERR code [] s1))
      ∧ ((∀ t off, placeOf p.offset ≠ .sram t off) → code = 0 → ∃ new,
          exec (.atom n [] []) s = .next (acknowledge a (s1.writeMem p.offset (bytesOf bytes new)))
          ∧ (p.status % 8 = 0 → new = (old + x) % 2 ^ w) ∧ (p.status % 8 = 1 → new = old &&& x)
          ∧ (p.status % 8 = 2 → new = old ||| x) ∧ (p.status % 8 = 3 → new = old ^^^ x)
          ∧ (p.status % 8 = 4 → (new = old ∨ new = x) ∧ val new ≤ val old ∧ val new ≤ val x)
          ∧ (p.status % 8 = 5 → (new = old ∨ new = x) ∧ val old ≤ val new ∧ val x ≤ val new)))

/-- R225: a credit of c adds c to COUNT modulo 2^32 and sets ERR where it carries TERR; a credit of 0 changes neither; no
other tally changes; and the order of two credits does not matter. Nothing else changes and ERR is set by nothing else, where the
sender's write has met no WRITE_CONFLICT at the tile. -/
def Obligations.CreditsAddToTheirTally : Prop :=
  (∀ (s : State) (n : Nat) (a : Arrival), Serves s n opCREDIT a → tallyEp a.pkt.tally = a.ep → a.pkt.tally < 131072 →
    s.tallyOwnerOff a.pkt.tally = false → Table.risesFrom 0 s.tallies = true →
    let i := a.pkt.tally
    let c := a.pkt.credit
    ∃ v, exec (.credit n) s = .next (acknowledge a v)
      ∧ (v.tally i).count = (if c = 0 then (s.tally i).count else ((s.tally i).count + c) % 2 ^ 32)
      ∧ (c = 0 → v.tally i = s.tally i) ∧ (c ≠ 0 → a.pkt.terr = true → (v.tally i).err = true)
      ∧ (∀ j, j ≠ i → v.tally j = s.tally j)
      ∧ (conflictCredit a s = false → (v.tally i).err = ((s.tally i).err || (decide (c ≠ 0) && a.pkt.terr))
          ∧ v = { taken n s with tallies := v.tallies }))
  ∧ (∀ (x : Tally) (c c' : Nat) (e e' : Bool), (x.credit c e).credit c' e' = (x.credit c' e').credit c e)

/-! ### Responses at their requesters -/

namespace Sys2Proof.Machine

/-- The response at a position answers this request, whose only answer it is. -/
def Matches (s : State) (n op : Nat) (d : Arrival) (r : Request) : Prop :=
  s.delivered[n]? = some d ∧ d.pkt.opcode = op ∧ d.pkt.cls = clsRSP ∧ wellFormedPacket d.pkt = true ∧ d.pkt.poison = []
    ∧ s.requests.find? (fun r => decide (r.ep = d.ep) && decide (r.seq = d.pkt.seq)) = some r ∧ r.left = 1

/-- The node with a response taken and the record of its request ended. -/
def answered (s : State) (n : Nat) (r : Request) : State :=
  { taken n s with requests := s.requests.filter (fun q => !(decide (q.ep = r.ep) && decide (q.seq = r.seq))) }

end Sys2Proof.Machine

/-- R35: the credit of a copy of this node with a write that met a WRITE_CONFLICT at the tile is applied with the error bit, once
(which copy a write and a credit belong to: log entry 49). R195, R196, R229: a credit to a tally whose owner is penned or not
enabled is refused PENNED and changes no tally, but for one that had entered its tile's port before; and so is a credit or a read
that comes to such a tile. R83, R99, R100, R101, R191, R271, R273: what a tile's LOAD, STORE and prefetch do with RDATA, ACK, ERR
and DECLINE: an ERR to a STORE raises STORE_ERR and its credit carries the error; the data of a prefetch are staged, or written where
its LOAD has issued; an ERR or DECLINE to it has the LOAD read anew. A response that answers no request is discarded with
RSP_DISCARD set and FABRIC_UE raised (log entry 15). R273: where a read fails, each 4-byte word of the data it
delivers is 0x7FF4_7F80 plus the error code. R274: an ERR is told to the driver with the destination's ID (of a local request
this node's: log entry 48). -/
def Obligations.ResponsesAndRefusedCredits : Prop :=
  (
    ∀ (s : State) (n : Nat) (a : Arrival), s.delivered[n]? = some a → a.pkt.opcode = opCREDIT → a.pkt.cls ≠ clsRSP →
      wellFormedPacket a.pkt = true → tallyEp a.pkt.tally = a.ep → a.pkt.tally < 131072 →
      s.tallyOwnerOff a.pkt.tally = true →
      (a.inPort = false → exec (.credit n) s = .next (respond a opERR errPENNED [] (taken n s)))
      ∧ (a.inPort = true → Table.risesFrom 0 s.tallies = true → conflictCredit a s = false → ∃ v,
          exec (.credit n) s = .next (acknowledge a v) ∧ v = { taken n s with tallies := v.tallies }
          ∧ (v.tally a.pkt.tally).count = (if a.pkt.credit = 0 then (s.tally a.pkt.tally).count
              else ((s.tally a.pkt.tally).count + a.pkt.credit) % 2 ^ 32)))
  ∧ (
    ∀ (s : State) (n : Nat) (a : Arrival) (k : Nat), Serves s n opCREDIT a → tallyEp a.pkt.tally = a.ep →
      a.pkt.tally < 131072 → s.tallyOwnerOff a.pkt.tally = false → Table.risesFrom 0 s.tallies = true →
      Table.risesFrom 0 s.tiles = true → a.ep < 576 → a.pkt.srcNode = s.nodeId → copyOf s a.ep a.pkt = some k →
      let mark := (a.pkt.srcNode * 1024 + a.pkt.srcEp, k)
      mark ∈ (s.tile a.ep).conflicts → a.pkt.credit ≠ 0 → ∃ v, exec (.credit n) s = .next (acknowledge a v)
        ∧ (v.tally a.pkt.tally).err = true
        ∧ (∀ c, c ∈ (v.tile a.ep).conflicts ↔ c ∈ (s.tile a.ep).conflicts ∧ c ≠ mark)
        ∧ v = { taken n s with tallies := v.tallies, tiles := v.tiles })
  ∧ (
    ∀ (s : State) (n : Nat) (a : Arrival), s.delivered[n]? = some a → a.pkt.cls ≠ clsRSP → a.ep < 576 → s.tileOn a.ep = false →
      a.inPort = false → a.pkt.pf = false →
      let u := respond a opERR errPENNED [] (taken n s)
      (a.pkt.opcode = opCREDIT → exec (.credit n) s = .next u)
      ∧ (a.pkt.opcode = opRD → mustWait s n a = false → exec (.rd n [] []) s = .next u))
  ∧ (
    (∀ (s : State) (n : Nat) (d : Arrival) (r : Request) (t disp dst k : Nat) (e : Entry), s.tileOn t = true →
      r.purpose = .tileLoad t disp dst k → r.pkt.opcode = opRD → r.pkt.pf = false → r.ep = t →
      (s.tile t).flying .load disp = some e →
      let v := answered s n r
      let told := if d.pkt.status = errREQ_TMO then v else v.remoteTmo t r.pkt.dstNode d.pkt.status
      (Matches s n opRDATA d r → d.pkt.nsect = r.pkt.nsect →
        exec (.rdata n) s = .next (pieceDone t .load disp (localSectors t e dst d.pkt.data k v)))
      ∧ (Matches s n opERR d r → d.pkt.status ≠ 0 →
        exec (.err n) s = .next (pieceDone t .load disp (localSectors t e dst (poisonSectors d.pkt.status k) k
          (raiseExc t excLOAD_ERR e.at_ disp (e.addr 0).val told)))))
    ∧ (∀ (s : State) (n : Nat) (d : Arrival) (r : Request) (t disp : Nat) (w : StoreWait), s.tileOn t = true →
      r.purpose = .tileStore t disp → r.pkt.dstNode = s.nodeId → r.pkt.opcode = opWR → Matches s n opACK d r →
      (s.tile t).stores = [w] → w.disp = disp → w.sent = false →
      (1 < w.left → exec (.ack n) s = .next ((answered s n r).setTile t
        { s.tile t with stores := [{ w with left := w.left - 1 }] }))
      ∧ (w.left = 1 → w.credit = 0 → exec (.ack n) s = .next ((answered s n r).setTile t { s.tile t with stores := [] }))
      ∧ (w.left = 1 → w.credit ≠ 0 → ∃ u q, exec (.ack n) s = .next u
        ∧ u.requests = (answered s n r).requests ++ [q] ∧ q.ep = t ∧ q.pkt.opcode = opCREDIT ∧ q.pkt.tally = w.tally
        ∧ q.pkt.credit = w.credit ∧ q.pkt.terr = w.err ∧ (u.tile t).stores = [{ w with left := 0, sent := true }]))
    ∧ (∀ (s : State) (n : Nat) (d : Arrival) (r : Request) (t disp : Nat) (w : StoreWait), s.tileOn t = true →
      r.purpose = .tileStore t disp → r.ep = t → r.pkt.opcode = opWR → r.pkt.pf = false → Matches s n opERR d r →
      d.pkt.status ≠ 0 → (s.tile t).stores = [w] → w.disp = disp → w.sent = false →
      let v := answered s n r
      let told := if d.pkt.status = errREQ_TMO then v else v.remoteTmo t r.pkt.dstNode d.pkt.status
      let failed := raiseExc t excSTORE_ERR w.at_ disp w.addr.val told
      (1 < w.left → exec (.err n) s = .next (failed.modTile t (fun x =>
        { x with stores := [{ w with left := w.left - 1, err := true }] })))
      ∧ (w.left = 1 → w.credit = 0 → exec (.err n) s = .next (failed.modTile t (fun x => { x with stores := [] })))
      ∧ (w.left = 1 → w.credit ≠ 0 → ∃ u q, exec (.err n) s = .next u
        ∧ u.requests = v.requests ++ [q] ∧ q.ep = t ∧ q.pkt.opcode = opCREDIT ∧ q.pkt.tally = w.tally
        ∧ q.pkt.credit = w.credit ∧ q.pkt.terr = true))
    ∧ (∀ (s : State) (n : Nat) (d : Arrival) (r : Request) (t disp dst k : Nat) (g : Staged), s.tileOn t = true →
      r.purpose = .tilePre t disp dst k → r.pkt.opcode = opRD → r.pkt.pf = true →
      (s.tile t).staged = [g] → g.disp = disp → g.dst = dst →
      let v := answered s n r
      let staged (l : List Staged) : State := v.setTile t { s.tile t with staged := l }
      let again (e : Entry) (u : State) : Prop := ∃ q, u.requests = v.requests ++ [q] ∧ q.ep = t
        ∧ q.purpose = .tileLoad t disp dst k ∧ q.pkt.opcode = opRD ∧ q.pkt.pf = false ∧ q.pkt.nsect = k
        ∧ q.pkt.offset = farOffset (e.addr 0) (dst - (e.addr 1).val) ∧ (u.tile t).staged = []
      (Matches s n opRDATA d r → d.pkt.nsect = r.pkt.nsect →
        ((s.tile t).flying .load disp = none → exec (.rdata n) s = .next (staged [{ g with data := some d.pkt.data }]))
        ∧ (∀ e, (s.tile t).flying .load disp = some e →
            exec (.rdata n) s = .next (pieceDone t .load disp (localSectors t e dst d.pkt.data k (staged [])))))
      ∧ (Matches s n opDECLINE d r →
        ((s.tile t).flying .load disp = none → exec (.decline n) s = .next (staged [{ g with declined := true }]))
        ∧ (∀ e, (s.tile t).flying .load disp = some e → ∃ u, exec (.decline n) s = .next u ∧ again e u))
      ∧ (Matches s n opERR d r → d.pkt.status ≠ 0 →
        ((s.tile t).flying .load disp = none → exec (.err n) s = .next (staged [{ g with declined := true }]))
        ∧ (∀ e, (s.tile t).flying .load disp = some e → ∃ u, exec (.err n) s = .next u ∧ again e u)))
    ∧ (∀ (s : State) (n op : Nat) (d : Arrival), s.delivered[n]? = some d → d.pkt.opcode = op → d.pkt.cls = clsRSP →
      (∀ r ∈ s.requests, r.ep = d.ep → r.seq ≠ d.pkt.seq) →
      let u := discardResponse d.ep (taken n s)
      (op = opRDATA → exec (.rdata n) s = .next u) ∧ (op = opACK → exec (.ack n) s = .next u)
      ∧ (op = opERR → exec (.err n) s = .next u) ∧ (op = opDECLINE → exec (.decline n) s = .next u)))
  ∧ (
    ∀ c n k : Nat, c < 0x80 → k < 8 * n →
      (poisonSectors c n).length = 32 * n ∧ natOf (slice (poisonSectors c n) (4 * k) 4) = 0x7FF47F80 + c)

/-! ### Hurdles, the timebase and quiet windows -/

/-- R243, R325, R381, R417, and the model's clock (log entry 3): with no command waiting a step is one tick of the clock. In the reset hold and
in an OFF node nothing else changes. Else the units due are penned first (R417); and with no unit due, no datagram received, no event to send and no RESET due,
the timebase moves by one, or by none or two where it slews, at most once in 2,048 ticks; cores that are not held count two cycles (and
may be sent MSIs, as the APLIC's wires settle: log entry 14); a tile whose tick of start has come and that has a program starts RUNNING; P5 ends at its limit and leaves the node READY; and no memory, tally or hurdle changes. -/
def Obligations.EmptyQueueStepIsOneTick : Prop :=
  ∀ s : State, s.pending = [] →
    (s.brc.off = true ∨ s.brc.hold.isSome = true → step s = .next { s with now := s.now + 1 })
    ∧ (s.brc.off = false → s.brc.hold = none → step s = step (applyPens s) ∧ (applyPens s).penDue = [])
    ∧ (s.brc.off = false → s.brc.hold = none → s.penDue = [] → s.hec.rx = [] → (∀ x ∈ s.hec.ring, x.sent = true) →
      (∀ t, s.hec.resetAt = some t → s.now + 1 < t + ticksOfUs 900) →
      s.ckp.relays = [] → s.ckp.launching = false → (∀ r, s.ckp.restore = some r → r.reading = none) →
      Table.risesFrom 0 s.tiles = true → Table.risesFrom 0 s.cores = true → ∃ u, step s = .next u
      ∧ u.now = s.now + 1 ∧ u.pending = []
      ∧ (slewDue s = false → u.time = (s.time + 1) % 2 ^ 64 ∧ u.tstate = s.tstate)
      ∧ (slewDue s = true → s.tstate.slewAt + 2048 ≤ s.now ∧ u.tstate.slewAt = s.now
          ∧ u.time = (if 0 < s.tstate.slew ∨ (s.tstate.slew = 0 ∧ 0 < s.tstate.rate) then s.time + 2 else s.time) % 2 ^ 64)
      ∧ (∀ c,
          let y := if (s.core c).held = true ∨ bitOf (s.core c).csr.mcountinhibit 0 = true then s.core c
            else { s.core c with csr := { (s.core c).csr with mcycle := ((s.core c).csr.mcycle + 2) % 2 ^ 64 } }
          u.core c = { y with imsicM := (u.core c).imsicM, imsicS := (u.core c).imsicS }
          ∧ (bitOf s.aplicM.domaincfg 8 = false → bitOf s.aplicS.domaincfg 8 = false → u.core c = y))
      ∧ (∀ t, (s.tile t).startAt = none → u.tile t = s.tile t)
      ∧ (∀ t k, (s.tile t).startAt = some k → k ≤ s.now + 1 → s.akm.frozen = false → s.tileOn t = true →
          (s.tile t).state = .idle → s.field .tilSeqProg t 0 18 18 ≠ 0 → (u.tile t).state = .running ∧ (u.tile t).fetch = s.field .tilSeqProg t 0 36 20)
      ∧ (inPhase s 5 = true → s.brc.phaseStart + phaseLimit 5 ≤ s.now + 1 → Table.risesFrom 0 s.regs = true →
          u.ready = true ∧ u.bootPhase = 6)
      ∧ u.mem = s.mem ∧ u.poison = s.poison ∧ u.wrong = s.wrong ∧ u.tallies = s.tallies ∧ u.hurdles = s.hurdles)

/-- R234, R236, R239, R334, R354: once a hurdle's local arrivals are complete, a local hurdle's release tick is the smallest multiple
of 256 that is at least T_local + 128, where T_local is the present tick, or with an empty map the tick in which the round began; with
an empty map the launch hurdle's is the later one in which the image or a restore was ready, and the cut hurdle's, in a round that is a
cut, the later one in which the fleece before it ended. The bellwether's of a cross-node hurdle, with every child's arrival, the smallest that is at least the present tick + DBCAST (with no
child, T_local + DBCAST); another node then sends one NODE_ARRIVE to its parent and knows no release tick yet. A frozen node sends
none (R427). -/
def Obligations.ReleaseTickFollowsCompletion : Prop :=
  ∀ (s : State) (h : Nat), s.armed h = true → (s.hurdle h).trel = none → (s.hurdle h).tlocal = none → localDone h s = true →
    (∀ c ∈ s.children, c ∈ (s.hurdle h).children) →
    let u := progressHurdle h s
    let x := u.hurdle h
    let began := (s.hurdle h).began
    let tl := if s.participants h ≠ [] then s.time else if h = s.launchHurdle then max began s.ckp.readyAt
      else if h = s.cutHurdle ∧ willCut s = true then max began s.ckp.endedAt else began
    let releasesAt (least : Nat) : Prop := ∃ r, x.trel = some r ∧ x.relAt = r ∧ r % 256 = 0 ∧ least ≤ r ∧ r < least + 256
    (s.xnode h = false → releasesAt (tl + 128) ∧ u = s.setHurdle h x)
    ∧ (s.xnode h = true → s.isRoot = true → releasesAt ((if s.children = [] then tl else s.time) + s.field .synHcfg h 0 8 16))
    ∧ (s.xnode h = true → s.isRoot = false → (s.hurdle h).sent = false → s.akm.frozen = true → x.trel = none ∧ x.sent = false
        ∧ u = s.setHurdle h x)
    ∧ (s.xnode h = true → s.isRoot = false → (s.hurdle h).sent = false → s.akm.frozen = false → x.trel = none ∧ x.sent = true
        ∧ ∃ r, sentSince s u = [r] ∧ r.ep = 659 ∧ r.pkt.opcode = opNODE_ARRIVE ∧ r.pkt.tally = h ∧ r.pkt.dstNode = s.parent
          ∧ r.pkt.credit = (s.hurdle h).round % 65536)
    ∧ x.tlocal = some tl ∧ u.mem = s.mem ∧ u.tallies = s.tallies ∧ u.tiles = s.tiles

/-- R233: the hub accepts an ARRIVE at an armed hurdle from a participant that has not arrived in the round, and the round
moves on as R234 has it; any other is refused SYNC_REFUSED and changes no hurdle. R237, R241: in the release tick the
round advances and the hurdle stays armed; each participating tile's pending bit and sector tags clear; a core or an
engine that waits on the hurdle goes on; the step hurdle advances SYN_STEP and both the step and the launch hurdle set
SYN_STEP_BASE to T_release. -/
def Obligations.HubAcceptsAndReleasesRounds : Prop :=
  (
    ∀ (s : State) (n g : Nat) (a : Arrival), Serves s n opARRIVE a → a.ep = 659 → a.pkt.tally < 65536 →
      (a.pkt.tally / 1024 = 0 ∨ (608 ≤ a.pkt.srcEp ∧ a.pkt.srcEp < 624)) → arrivingAgent a.pkt = some g →
      let h := a.pkt.tally % 1024
      let x := s.hurdle h
      let s1 := taken n s
      let may := s.armed h = true ∧ s.inMap h g = true ∧ g ∉ x.arrived
      (may → exec (.arrive n) s = .next (acknowledge a (progressHurdle h (s1.setHurdle h { x with arrived := x.arrived ++ [g] }))))
      ∧ (¬ may → exec (.arrive n) s = .next (respond a opERR errSYNC_REFUSED [] s1)))
  ∧ (
    ∀ (s : State) (h r : Nat), releaseDue h s = true → s.akm.frozen = false → (s.hurdle h).trel = some r → r < 2 ^ 64 →
      Table.risesFrom 0 s.regs = true → Table.risesFrom 0 s.tiles = true → Table.risesFrom 0 s.cores = true →
      Table.risesFrom 0 s.engines = true → Table.risesFrom 0 s.hurdles = true →
      ∃ u, exec (.hurdleRelease h) s = .next u ∧ (u.hurdle h).round = ((s.hurdle h).round + 1) % 2 ^ 32 ∧ u.armed h = true
        ∧ (h = s.stepHurdle → u.stepNo = (s.stepNo + 1) % 2 ^ 64)
        ∧ (h ≠ s.stepHurdle → u.stepNo = s.stepNo)
        ∧ (h = s.stepHurdle ∨ h = s.launchHurdle → u.getReg (regAddr .synStepBase) = BitVec.ofNat 64 r)
        ∧ (∀ t, t < 576 → s.inMap h t = true → Table.risesFrom 0 (s.tile t).pendingH = true →
            (s.tile t).early.elem h = false → Table.get false (u.tile t).pendingH h = false ∧ (u.tile t).tags = [])
        ∧ (∀ c, c < 64 → s.inMap h (576 + c) = true → h ≠ s.launchHurdle → h ≠ s.cutHurdle →
            (s.core c).wait = some (.hurdle h) → (u.core c).wait = none ∧ (u.core c).pc = (s.core c).pc + 4)
        ∧ (∀ e, e < 16 → s.inMap h (640 + e) = true → h ≠ s.launchHurdle → h ≠ s.cutHurdle →
            (s.engine e).wait = some (.hurdle h) → (u.engine e).wait = none ∧ (u.engine e).cmd = (s.engine e).cmd + 1
              ∧ (u.engine e).next = s.now + 16))

/-- R234 to R238: an in-round NODE_ARRIVE of a child counts once; an in-round NODE_RELEASE of the parent sets the release
tick, late where the timebase is past it less 128; both are acknowledged; all others are refused SYNC_REFUSED and change
no hurdle. A refused NODE_ARRIVE goes out again once its time has come. R242: the release tick a node rebuilds has the 48
bits received and is the nearest such value to its timebase. -/
def Obligations.NodeMessagesAndRebuiltTicks : Prop :=
  (
    (∀ (s : State) (n : Nat) (a : Arrival), a.ep = 659 → a.pkt.tally < 1024 → a.pkt.credit < 65536 →
      let h := a.pkt.tally
      let x := s.hurdle h
      let s1 := taken n s
      let ours := s.armed h = true ∧ s.xnode h = true ∧ a.pkt.credit = x.round % 65536
      let child := ours ∧ a.pkt.srcNode ∈ s.children ∧ a.pkt.srcNode ∉ x.children
      let parent := ours ∧ s.isRoot = false ∧ a.pkt.srcNode = s.parent ∧ x.sent = true ∧ x.trel = none
      let r := nearestTime s.time a.pkt.offset
      let refused (u : State) : Prop :=
        u.hurdles = s.hurdles ∧ u.flights = (respond a opERR errSYNC_REFUSED [] s1).flights ∧ u.tallies = s.tallies
      (Serves s n opNODE_ARRIVE a →
        (child → exec (.nodeArrive n) s = .next (acknowledge a (progressHurdle h
          (s1.setHurdle h { x with children := x.children ++ [a.pkt.srcNode] }))))
        ∧ (¬ child → ∃ u, exec (.nodeArrive n) s = .next u ∧ refused u))
      ∧ (Serves s n opNODE_RELEASE a →
        (parent → s.time + 128 ≤ r → exec (.nodeRelease n) s = .next (acknowledge a
          ((forwardRelease h r s1).setHurdle h { x with trel := some r, relAt := r })))
        ∧ (parent → r < s.time + 128 → ∃ u, exec (.nodeRelease n) s = .next u ∧ (u.hurdle h).trel = some r
            ∧ (u.hurdle h).late = true ∧ (u.hurdle h).relAt % 256 = 0 ∧ s.time + 128 ≤ (u.hurdle h).relAt
            ∧ (u.hurdle h).relAt < s.time + 128 + 256)
        ∧ (¬ parent → ∃ u, exec (.nodeRelease n) s = .next u ∧ refused u)))
    ∧ (∀ (s : State) (h t : Nat), h < 1024 → s.armed h = true → (s.hurdle h).trel = none → s.akm.frozen = false →
      (s.hurdle h).resend = some t → t ≤ s.now → ∃ u r, exec (.nodeArriveResend h) s = .next u ∧ sentSince s u = [r]
        ∧ r.ep = 659 ∧ r.pkt.opcode = opNODE_ARRIVE ∧ r.pkt.tally = h ∧ r.pkt.dstNode = s.parent
        ∧ u.hurdles = Table.set {} s.hurdles h { s.hurdle h with
            sent := true, resend := none, arriveSeq := some (Table.get 0 s.seqs 659) }
        ∧ u = { s with hurdles := u.hurdles, requests := u.requests, flights := u.flights, seqs := u.seqs }))
  ∧ (
    ∀ time low : Nat, low < 2 ^ 48 → 2 ^ 48 ≤ time → time < 2 ^ 64 - 2 ^ 48 →
      nearestTime time low % 2 ^ 48 = low ∧ nearestTime time low ≤ time + 2 ^ 47 ∧ time ≤ nearestTime time low + 2 ^ 47)

/-- R244, R245, R279: the bellwether answers TIME_REQ with its stamps, t2 as the port put it in; TIME_EXCHANGE asks the bellwether with t1; TIME_RSP gives
the offset and delay in eighths and locks after two offsets of at most a tick, unlocks above two ticks, and steers the
time; the first tsync edge sets the timebase to EPOCH, later ones steer a node that has not joined; an edge less than 1,125,000 ticks
after the last accepted one is counted and ignored, and one less than 100 ns after another is ignored (log entry 16); a missing edge
is recorded. -/
def Obligations.TimeMessagesMeasureAndSteer : Prop :=
  (∀ (s : State) (n : Nat) (a : Arrival), Serves s n opTIME_REQ a → a.ep = 659 → a.pkt.poison = [] →
    ∃ u f, exec (.timeReq n) s = .next u
    ∧ u.flights = s.flights ++ [f] ∧ f.pkt.opcode = opTIME_RSP ∧ f.pkt.dstNode = a.pkt.srcNode ∧ f.via = a.via
    ∧ f.pkt.seq = a.pkt.seq ∧ u = { taken n s with flights := u.flights }
    ∧ slice f.pkt.data 0 8 = slice a.pkt.data 0 8
    ∧ slice f.pkt.data 8 8 = (if a.via.isSome then slice a.pkt.data 8 8 else bytesOf 8 (8 * s.time))
    ∧ slice f.pkt.data 16 8 = bytesOf 8 (8 * s.time))
  ∧ (∀ s : State, joinedTree s = true → s.nodeValid = true → s.tstate.nextAt ≤ s.now → s.akm.frozen = false →
    s.tstate.t1 = none → s.tstate.missed < 4 → ∃ u r, exec .timeExchange s = .next u ∧ u.requests.getLast? = some r
    ∧ r.ep = 659 ∧ r.pkt.opcode = opTIME_REQ ∧ r.pkt.dstNode = s.bell ∧ slice r.pkt.data 0 8 = bytesOf 8 (8 * s.time)
    ∧ u.tstate = { s.tstate with t1 := some (8 * s.time), nextAt := s.now + exchangeInterval s } ∧ u.time = s.time)
  ∧ (∀ (s : State) (n : Nat) (a : Arrival), Serves s n opTIME_RSP a → (∃ r ∈ s.requests, r.purpose = .timeReq ∧ r.seq = a.pkt.seq) →
    s.tstate.t1.isSome = true → Table.risesFrom 0 s.regs = true → s.isRoot = false → a.pkt.poison = [] →
    let stamp := natOf (slice a.pkt.data 24 8)
    let t1 : Int := natOf (slice a.pkt.data 0 8)
    let t2 : Int := natOf (slice a.pkt.data 8 8)
    let t3 : Int := natOf (slice a.pkt.data 16 8)
    let t4 : Int := if stamp = 0 then 8 * s.time else stamp
    let o : Int := ((t1 - t2) + (t4 - t3)).tdiv 2
    ∃ u, exec (.timeRsp n) s = .next u
      ∧ u.field .synTimeStatus 0 0 16 24 = wrapNat 24 o
      ∧ u.field .synTimeStatus 0 0 40 24 = wrapNat 24 (((t4 - t1) - (t3 - t2)).tdiv 2)
      ∧ (o.natAbs ≤ 8 → 1 ≤ s.tstate.good → u.bit .synTimeStatus 0 0 = true)
      ∧ (16 < o.natAbs → u.bit .synTimeStatus 0 0 = false)
      ∧ (s.tstate.joining = false → u.time = s.time ∧ u.tstate.slew = -(o.tdiv 8))
      ∧ (s.tstate.joining = true → s.anyArmed = false → u.time = wrapNat 64 ((s.time : Int) - o.tdiv 8)))
  ∧ (∀ (s : State) (t : Nat), s.working = true → s.tstate.edgeAt = some t → s.now < t + 1125000 → Table.risesFrom 0 s.regs = true →
    ∃ u, exec .tsyncEdge s = .next u ∧ u.field .pwrStatus 0 0 48 16 = min (2 ^ 16 - 1) (s.field .pwrStatus 0 0 48 16 + 1)
      ∧ u = { s with regs := u.regs, tstate := { s.tstate with rose := some s.now } })
  ∧ (∀ (s : State) (t : Nat), s.working = true → (∀ a, s.tstate.edgeAt = some a → a + 1125000 ≤ s.now) → s.tstate.rose = some t →
    s.now < t + 125 → exec .tsyncEdge s = .next { s with tstate := { s.tstate with rose := some s.now } })
  ∧ (∀ s : State, s.working = true → (∀ t, s.tstate.edgeAt = some t → t + 1125000 ≤ s.now) →
    (∀ t, s.tstate.rose = some t → t + 125 ≤ s.now) → Table.risesFrom 0 s.regs = true →
    (s.bit .synTimeStatus 0 1 = false → ∃ u, exec .tsyncEdge s = .next u
      ∧ u.time = s.field .synTimeCfg 0 0 32 32 * 1250000 ∧ u.bit .synTimeStatus 0 1 = true ∧ u.tstate.edgeAt = some s.now)
    ∧ (s.bit .synTimeStatus 0 1 = true → joinedTree s = false → ∃ u, exec .tsyncEdge s = .next u ∧ u.time = s.time
      ∧ ((s.time : Int) + u.tstate.slew) % 1250000 = 0 ∧ 2 * u.tstate.slew.natAbs ≤ 1250000))
  ∧ (∀ s : State, s.working = true → s.tstate.edgeAt.getD 0 + 2500000 ≤ s.now → s.bit .synTimeStatus 0 2 = false →
    Table.risesFrom 0 s.regs = true → ∃ u, exec .tsyncLost s = .next u ∧ u.bit .synTimeStatus 0 2 = true ∧ u.time = s.time)

/-! ### Stacked memory's own work -/

/-- R247, R248: step phase is SYN_TIME less SYN_STEP_BASE; a window opens while EN is 1 and the step phase lies in it, and
closes when it lies outside; no other window changes. R205 to R222, R420: refresh, calibration and scrubbing leave every
byte as it is where no sector has a wrong symbol; they note when a stack was calibrated and which granule comes next; a port
full for 4,096 ticks sets its saturation bit. A stack never calibrated counts from tick 0, and a granule's next interval from the tick it
was read in (DESIGN CHOICE, log entry 51). -/
def Obligations.QuietWindowsAndMemoryUpkeep : Prop :=
  (
    ∀ (s : State) (k : Nat), k < 8 →
      let v := (s.getReg (regAddr .synQwin k)).toNat
      let phase := wrapNat 64 ((s.time : Int) - (s.getReg (regAddr .synStepBase)).toNat)
      let inside := bitOf v 0 = true ∧ 256 * bitsOf v 8 24 ≤ phase ∧ phase < 256 * (bitsOf v 8 24 + bitsOf v 32 16)
      (inside → bitOf s.qwins k = false → ∃ u, exec (.qwinOpen k) s = .next u
        ∧ (∀ j, bitOf u.qwins j = (bitOf s.qwins j || decide (j = k)))
        ∧ u = { s with qwins := u.qwins, akm := { s.akm with calDone := s.akm.calDone.filter (fun d => decide (d.1 ≠ k)) } })
      ∧ (¬ inside → bitOf s.qwins k = true → ∃ u, exec (.qwinClose k) s = .next u
        ∧ (∀ j, bitOf u.qwins j = (bitOf s.qwins j && !decide (j = k))) ∧ u = { s with qwins := u.qwins })
      ∧ (¬ inside → exec (.qwinOpen k) s = .next s) ∧ (inside → exec (.qwinClose k) s = .next s))
  ∧ (
    ∀ s : State, s.working = true → 4 ≤ s.bootPhase →
      (∀ pc bank, pc < 512 → bank < 64 → s.pcPenned pc = false → exec (.refresh pc bank) s = .next s)
      ∧ (∀ k x, calibrationDue s k = true → nextStack s k = some x → exec (.stackCalibration k) s = .next { s with
          calAt := Table.set 0 s.calAt x (Nat.max 1 s.time), akm := { s.akm with calDone := s.akm.calDone ++ [(k, x)] } })
      ∧ (∀ x, x < 8 → Table.get 0 s.calAt x + 1250000 ≤ s.time → calibrating s = false →
          exec (.forcedCalibration x) s = .next { s with calAt := Table.set 0 s.calAt x (Nat.max 1 s.time) })
      ∧ (∀ pc, pc < 512 → s.pcPenned pc = false → s.field .memScrub 0 0 0 16 ≠ 0 →
          Table.get 0 s.scrubAt pc + 256 * s.field .memScrub 0 0 0 16 ≤ s.now → stackCalibrates s (pc / 64) = false →
          sectorBusy s (576 + pc / 16) (scrubLpa s pc) 8 false = false →
          (∀ i, i < 8 → s.wrongAt (scrubLpa s pc + 32 * i) = 0) → ∃ u, exec (.patrolScrub pc [] []) s = .next u
          ∧ u.scrub = Table.set 0 s.scrub pc (if Table.get 0 s.scrub pc + 1 = 2 ^ 22 then 0 else Table.get 0 s.scrub pc + 1)
          ∧ u.scrubAt = Table.set 0 s.scrubAt pc s.now ∧ u.mem = s.mem ∧ u.poison = s.poison ∧ u.tiles = s.tiles)
      ∧ (∀ p t, p < 32 → Table.get none s.fullSince p = some t → t + 4096 ≤ s.now → Table.risesFrom 0 s.regs = true →
          ∃ u, exec (.portSaturation p) s = .next u ∧ u.bit .memSatStatus 0 p = true ∧ u.mem = s.mem ∧ u.tiles = s.tiles))

/-! ### Register space -/

namespace Sys2Proof.Machine

/-- The state after a register command that answers this code and value and does nothing else. -/
def State.answered (s : State) (code : Nat) (v : Word) : State := { s with answer := (code, v) }

/-- A register command that names its writer, with free operands. -/
def IsRegisterCommand (c : Instr) (src : Requester) (v : Word) (i a : Nat) (sup : Bool) : Prop :=
  c ∈ [Instr.tilSeqCommit i src v, .pfbPenReq src v, .memMapCommit src v, .memPenReq src v, .synTallyWrite i src v, .synHcommit src v,
   .synTreeCommit src v, .synDesigCommit src v, .synQwinCommit src v, .hfiPlaneCommit src v, .hfiWinCommit src v,
   .hfiTmo src v, .prcStartCommit src v, .prcPmaCommit src v, .prcAperCommit src v, .msiWrite src i sup v,
   .marStartCommit i src v, .ckpCutCommit src v, .restoreJob src v, .ckpLaunchCommit src v, .ckpLaunchSend src v,
   .hecEvtPost src v, .hecDbPop src, .brcWdogKick src v, .jobChange src v, .aksQuote src v, .peerLoad src v,
   .debugToken src v, .akmPenCmd src v, .pwrCap src v, .registerWrite src a v]

/-- After a GO, each field of a group has its staged value, or, where the commit was rejected, the value it had. -/
def GroupTaken (bad : Bool) (addrs : List Nat) (s u : State) : Prop :=
  ∀ a ∈ addrs, ∀ r j k, lookupReg a = some (r, j, k) → ∀ b, b < 64 → bitOf (u.getReg a).toNat b =
    if bad = false ∧ bitOf (stMask r j) b = true then bitOf (s.getShadow a).toNat b else bitOf (s.getReg a).toNat b

/-- R389 for a group whose safe point is the tick of the GO: without GO nothing happens; with it the group takes its staged
values, or keeps its values and REJECTED is set. -/
def CommitsAtOnce (c : Instr) (n : RegName) (i goBit rejBit : Nat) (addrs : List Nat) (bad : Bool) (v : Word) (s : State) :
    Prop :=
  (bitOf v.toNat goBit = false → exec c s = .next (s.answered 0 0))
  ∧ (bitOf v.toNat goBit = true → ∃ u, exec c s = .next u ∧ u.answer = (0, 0) ∧ u.shadow = s.shadow
      ∧ u.bit n i rejBit = bad ∧ GroupTaken bad addrs s u)

/-- R389 for a group with a later safe point: a write without GO, or with PENDING set, does nothing; while the group waits, GO captures
the staged values under PENDING; where no wait is due the group is taken or rejected at once. -/
def CommitsCaptured (c : Instr) (n : RegName) (goBit pendBit rejBit : Nat) (addrs : List Nat) (waits bad : Bool) (v : Word)
    (s : State) : Prop :=
  ((bitOf v.toNat goBit = false ∨ s.bit n 0 pendBit = true) → exec c s = .next (s.answered 0 0))
  ∧ (waits = true → bitOf v.toNat goBit = true → s.bit n 0 pendBit = false → ∃ u, exec c s = .next u ∧ u.answer = (0, 0)
      ∧ u.bit n 0 pendBit = true ∧ u.bit n 0 rejBit = false ∧ u.captured = s.captured ++ addrs.map (fun a => (a, s.getShadow a))
      ∧ ∀ a ∈ addrs, u.getReg a = s.getReg a)
  ∧ (waits = false → bitOf v.toNat goBit = true → s.bit n 0 pendBit = false → (∀ e ∈ s.captured, e.1 ∉ addrs) →
      ∃ u, exec c s = .next u ∧ u.answer = (0, 0) ∧ u.bit n 0 pendBit = false ∧ u.bit n 0 rejBit = bad
      ∧ u.captured = s.captured ∧ GroupTaken bad addrs s u)

/-- The registers whose write has an effect of its own (R9, R389). -/
def hasOwnEffect (n : RegName) : Bool :=
  [RegName.tilSeqCommit, .pfbPenReq, .memMapCommit, .memPenReq, .synTally, .synHcommit, .synTreeCommit, .synDesigCommit,
   .synQwinCommit, .synHstat, .hfiPlaneCommit, .hfiWinCommit, .hfiTmo, .prcStartCommit, .prcPmaCommit, .prcAperCommit,
   .marStartCommit, .ckpCutCommit, .ckpRestoreCtl, .ckpLaunchCommit, .ckpLaunchSend, .hecEvtPost, .brcWdog, .aksJob,
   .aksQuoteCtl, .aksPeerCtl, .aksDebugCtl, .akmPenCmd, .pwrCap].elem n

end Sys2Proof.Machine

/-- R14: a register command of a requester other than a core in M or S mode, the HEC or AKM is answered UNMAPPED and
changes nothing. The pen requests and the watchdog are AKM's, AKM_PEN_CMD the HEC's, AKS_JOB and PWR_CAP both theirs, and
a tally with a job running is not written: JOB_DENIED, and nothing changes, as the registers' tables in chapters 8, 9, 10, 16, 17, 18 and
19 have it and log entry 13 gathers it (DEDUCED). -/
def Obligations.RegisterSpaceRefusesOutsiders : Prop :=
  ∀ (s : State) (src : Requester) (v : Word) (i a : Nat) (sup : Bool),
    (mayAddress src = false → ∀ c, IsRegisterCommand c src v i a sup → exec c s = .next (s.answered errUNMAPPED 0))
    ∧ (mayAddress src = true → src ≠ .akm → ∀ c ∈ [Instr.pfbPenReq src v, .memPenReq src v, .brcWdogKick src v],
        exec c s = .next (s.answered errJOB_DENIED 0))
    ∧ (mayAddress src = true → (∀ p, src ≠ .hec p) → exec (.akmPenCmd src v) s = .next (s.answered errJOB_DENIED 0))
    ∧ (mayAddress src = true → (∀ p, src ≠ .hec p) → src ≠ .akm → ∀ c ∈ [Instr.jobChange src v, .pwrCap src v],
        exec c s = .next (s.answered errJOB_DENIED 0))
    ∧ (mayAddress src = true → i < 131072 → s.tallyOwnerOff i = true →
        exec (.synTallyWrite i src v) s = .next (s.answered errPENNED 0))
    ∧ (mayAddress src = true → i < 131072 → s.tallyOwnerOff i = false → s.jid ≠ 0 →
        exec (.synTallyWrite i src v) s = .next (s.answered errJOB_DENIED 0))

/-- R389, R69, R205, R232, R241, R243, R265, R282, R295, R331: the commits whose safe point is the tick of the GO. R389,
R248, R262, R283, R339: the commits that wait for a release of the step or cut hurdle while it is armed, or for the
write-back of the lines they concern; PMA_APPLY ends the last, rejected while an armed hurdle names a core. -/
def Obligations.CommitsFollowTheirSafePoints : Prop :=
  (
    ∀ (s : State) (src : Requester) (v : Word), mayAddress src = true → Table.risesFrom 0 s.regs = true →
      let h := bitsOf v.toNat 0 10
      let w := bitsOf v.toNat 0 8
      let p := bitsOf v.toNat 0 4
      (∀ t, s.tileOn t = true →
        CommitsAtOnce (.tilSeqCommit t src v) .tilSeqCommit t 0 2 [regAddr .tilSeqProg t] (seqBad t s) v s)
      ∧ CommitsAtOnce (.memMapCommit src v) .memMapCommit 0 0 2 mapAddrs (mapBad s) v s
      ∧ CommitsAtOnce (.synHcommit src v) .synHcommit 0 10 12 (hurdleAddrs h) (hurdleBad h s) v s
      ∧ CommitsAtOnce (.synTreeCommit src v) .synTreeCommit 0 0 2 treeAddrs (treeBad s) v s
      ∧ CommitsAtOnce (.synDesigCommit src v) .synDesigCommit 0 0 2 desigAddrs (desigBad s) v s
      ∧ CommitsAtOnce (.hfiWinCommit src v) .hfiWinCommit 0 8 10 (windowAddrs w) (windowBad w s) v s
      ∧ CommitsAtOnce (.prcStartCommit src v) .prcStartCommit 0 4 6 startAddrs (launchBegun s) v s
      ∧ CommitsAtOnce (.prcAperCommit src v) .prcAperCommit 0 4 6 [regAddr .prcAper p] false v s
      ∧ ∀ e, e < 16 → CommitsAtOnce (.marStartCommit e src v) .marStartCommit e 0 2 [regAddr .marStart e]
          (decide ((s.engine e).state ≠ .idle) || launchBegun s) v s)
  ∧ (
    ∀ (s : State) (src : Requester) (v : Word), mayAddress src = true → Table.risesFrom 0 s.regs = true →
      CommitsCaptured (.synQwinCommit src v) .synQwinCommit 0 1 2 qwinAddrs (s.armed s.stepHurdle) false v s
      ∧ CommitsCaptured (.hfiPlaneCommit src v) .hfiPlaneCommit 8 9 10 planeAddrs (s.armed s.stepHurdle)
          (decide (bitsOf (s.getShadow (regAddr .hfiPlane)).toNat 0 16 = 0)) v s
      ∧ CommitsCaptured (.ckpCutCommit src v) .ckpCutCommit 0 1 2 cutAddrs (s.armed s.cutHurdle) (cutBad s.getShadow s) v s
      ∧ CommitsCaptured (.prcPmaCommit src v) .prcPmaCommit 4 5 6 pmaAddrs true false v s
      ∧ (s.bit .prcPmaCommit 0 5 = true → ∃ u, exec .pmaApply s = .next u
          ∧ u.bit .prcPmaCommit 0 5 = false ∧ u.bit .prcPmaCommit 0 6 = (coreNamed s || s.bit .prcPmaCommit 0 6)
          ∧ (coreNamed s = true → u.lines = s.lines ∧ u.mem = s.mem ∧ ∀ a ∈ pmaAddrs, u.getReg a = s.getReg a)
          ∧ (coreNamed s = false →
              (∀ a ∈ pmaAddrs, ∀ r j k, lookupReg a = some (r, j, k) → ∀ b, b < 64 → bitOf (u.getReg a).toNat b =
                if bitOf (stMask r j) b = true then bitOf (capturedValue s a).toNat b else bitOf (s.getReg a).toNat b)
              ∧ ∀ e ∈ u.lines, pmaCode (capturedValue s) (64 * e.1 / 2 ^ 30) = s.pmaOf (64 * e.1 / 2 ^ 30))))

/-- R9, R389: a write of a register without an effect of its own takes its RW bits, clears the W1C bits written 1, stages
its ST bits, and changes nothing else; a W1C bit raised in the same tick stays set (the tables of the registers), and
BRC_COMMIT_REJECT then holds the rejection of this tick (R390); TIL_EXC_STATUS keeps the bits of exceptions raised in the same tick, and its record goes with
its last bit (R137, R138); of the others, the tally, the remote-load limit, the MSI, the posted event, the
doorbell read, the pen requests and the watchdog kick do what R224, R270, R296, R374, R195, R222 and R382 say; a unit is penned as the tick
ends (R417). -/
def Obligations.RegisterWritesFollowTheirAccess : Prop :=
  ∀ (s : State) (src : Requester) (v : Word), mayAddress src = true → Table.risesFrom 0 s.regs = true →
    (∀ a r i j, aiaFrame a = none → lookupReg a = some (r, i, j) → hasOwnEffect r.name = false →
      r.name ≠ .tilExcStatus → s.inPennedBlock a = false → Table.risesFrom 0 s.shadow = true →
      let raised := Table.get 0 s.raised a
      ∃ u, exec (.registerWrite src a v) s = .next u
        ∧ (r.name = .brcCommitReject → bitOf v.toNat 63 = true → bitOf raised 63 = true → s.bit .brcCommitReject 0 63 = true →
            u.getReg a = s.brc.rejection)
        ∧ (r.name ≠ .brcCommitReject ∨ bitOf v.toNat 63 = false ∨ bitOf raised 63 = false →
          ∀ b, b < 64 → bitOf (u.getReg a).toNat b = (if bitOf r.w1c b ∧ bitOf v.toNat b ∧ bitOf raised b = false then false
            else if bitOf r.rw b then bitOf v.toNat b else bitOf (s.getReg a).toNat b))
        ∧ (∀ b, b < 64 → bitOf (u.getShadow a).toNat b =
            if r.st ≠ 0 ∧ bitOf (stMask r i) b = true then bitOf v.toNat b else bitOf (s.getShadow a).toNat b)
        ∧ (∀ a', a' ≠ a → u.getReg a' = s.getReg a' ∧ u.getShadow a' = s.getShadow a')
        ∧ u = { s with regs := u.regs, shadow := u.shadow, answer := (0, 0) })
    ∧ (∀ t, s.tileOn t = true →
      let status (x : State) : Nat := (x.getReg (regAddr .tilExcStatus t)).toNat
      ∃ u, exec (.registerWrite src (regAddr .tilExcStatus t) v) s = .next u
        ∧ u = { s with regs := u.regs, tiles := u.tiles, answer := (0, 0) }
        ∧ ((s.tile t).excAt ≠ s.now + 1 →
            (∀ b, b < 64 → bitOf (status u) b = (bitOf (status s) b && !(bitOf 0x3FF0F b && bitOf v.toNat b)))
            ∧ (status u = 0 → u.getReg (regAddr .tilExcInfo t) = 0 ∧ u.getReg (regAddr .tilExcAddr t) = 0))
        ∧ ((s.tile t).excAt = s.now + 1 → ∀ x ∈ (s.tile t).excSeen, x.1 < 18 → bitOf (status u) x.1 = true))
    ∧ (∀ i, i < 131072 → s.tallyOwnerOff i = false → s.jid = 0 →
        exec (.synTallyWrite i src v) s = .next ((s.answered 0 0).setTally i ⟨v.toNat % 2 ^ 32, bitOf v.toNat 32⟩))
    ∧ (∃ u, exec (.hfiTmo src v) s = .next u ∧ u.field .hfiTmo 0 0 0 10 = max 10 (min 1000 (v.toNat % 1024))
        ∧ u = { s with regs := u.regs, answer := (0, 0) })
    ∧ (∀ c sup, c < 64 → Table.risesFrom 0 s.cores = true → ∃ u, exec (.msiWrite src c sup v) s = .next u
        ∧ (∀ d, d ≠ c → u.core d = s.core d)
        ∧ (∀ n, n < 256 → 0 < n →
            (bitOf (u.core c).imsicM.pend n = (bitOf (s.core c).imsicM.pend n || (!sup && decide (n = v.toNat % 2 ^ 32))))
            ∧ (bitOf (u.core c).imsicS.pend n = (bitOf (s.core c).imsicS.pend n || (sup && decide (n = v.toNat % 2 ^ 32)))))
        ∧ u = { s with cores := u.cores, answer := (0, 0) })
    ∧ (s.hec.ring.length < 4096 → ∃ e : Event, exec (.hecEvtPost src v) s = .next { s.answered 0 0 with
          hec := { s.hec with ring := s.hec.ring ++ [e], nextEvent := s.hec.nextEvent + 1 } }
        ∧ e.num = s.hec.nextEvent ∧ e.time = s.time ∧ e.code = 1 ∧ e.ep = requesterEp src ∧ e.data.take 8 = bytesOf 8 v.toNat)
    ∧ (4096 ≤ s.hec.ring.length → ∃ u, exec (.hecEvtPost src v) s = .next u ∧ u.hec = s.hec
        ∧ u.field .hecEvtStatus 0 0 32 32 = min (2 ^ 32 - 1) (s.field .hecEvtStatus 0 0 32 32 + 1))
    ∧ (∃ u, exec (.hecDbPop src) s = .next u ∧ u.answer = (0, s.hec.doorbells.headD 0)
        ∧ u.hec = { s.hec with doorbells := s.hec.doorbells.tail } ∧ u.mem = s.mem ∧ u.regs = s.regs)
    ∧ (src = .akm → s.penDue = [] → s.tileOn (bitsOf v.toNat 0 10) = true → Table.risesFrom 0 s.tiles = true →
        ∃ u, exec (.pfbPenReq src v) s = .next u ∧ u = { s.answered 0 0 with penDue := u.penDue }
        ∧ (applyPens u).tileOn (bitsOf v.toNat 0 10) = false ∧ ((applyPens u).tile (bitsOf v.toNat 0 10)).state = .idle
        ∧ (applyPens u).bit .akmPenTile (bitsOf v.toNat 0 10 / 64) (bitsOf v.toNat 0 10 % 64) = true
        ∧ ∀ t, t ≠ bitsOf v.toNat 0 10 → (applyPens u).tileOn t = s.tileOn t)
    ∧ (src = .akm → s.penDue = [] → ∃ u, exec (.memPenReq src v) s = .next u ∧ u = { s.answered 0 0 with penDue := u.penDue }
        ∧ (applyPens u).pcPenned (bitsOf v.toNat 0 9) = true
        ∧ ∀ n, n < 512 → n ≠ bitsOf v.toNat 0 9 → (applyPens u).pcPenned n = s.pcPenned n)
    ∧ (src = .akm → bitOf v.toNat 16 = true → exec (.brcWdogKick src v) s = .next { s.answered 0 0 with
        brc := { s.brc with wdogAt := s.now + 1250000 * s.field .brcWdog 0 0 0 16 } })

/-! ### The Holtim ports -/

/-- R256, R258, R262: ASSIGN names the node and its plane, or marks a port miswired or mismatched for good; a trained and
assigned port comes up, its frame numbers 0 and each link VC with 1,536 credits since its training (DEDUCED, log entry 44); a link that
goes down loses its assignment, and its requests that had not begun end with
NOT_JOINED (a prefetch with DECLINE). -/
def Obligations.HoltimLinksComeUpAndGoDown : Prop :=
  ∀ (s : State) (p : Nat), p < 16 → Table.risesFrom 0 s.regs = true → Table.risesFrom 0 s.ports = true →
    let x := s.port p
    (∀ node plane, node < 65536 → plane < 256 → ∃ u, exec (.assign p node plane) s = .next u
      ∧ u.field .hfiPortStatus p 0 4 4 = plane % 16
      ∧ (portUsable s p = false → u = { s with regs := u.regs } ∧ u.portUp p = s.portUp p)
      ∧ (portUsable s p = true → plane ≠ p →
          u.bit .hfiPortStatus p 2 = true ∧ u.portUp p = false ∧ u.nodeId = s.nodeId ∧ u.ports = s.ports)
      ∧ (portUsable s p = true → plane = p → s.nodeValid = true → s.nodeId ≠ node →
          u.bit .hfiPortStatus p 3 = true ∧ u.portUp p = false ∧ u.nodeId = s.nodeId ∧ u.ports = s.ports)
      ∧ (portUsable s p = true → plane = p → (s.nodeValid = true → s.nodeId = node) →
          u.nodeId = node ∧ u.nodeValid = true ∧ (u.port p).assigned = true ∧ u.portUp p = (s.portUp p || x.trained)))
    ∧ (x.trained = false → s.brc.tapDrive = false → 5 ≤ s.bootPhase → ∃ u, exec (.linkUp p) s = .next u
      ∧ (u.port p).trained = true ∧ (u.port p).expect = 0 ∧ (u.port p).sent = 0 ∧ (u.port p).tx = []
      ∧ (u.port p).credits = List.replicate 8 1536
      ∧ u.portUp p = (s.portUp p || (x.assigned && portUsable s p)) ∧ ∀ q, q ≠ p → u.port q = s.port q)
    ∧ (x.trained = true → ∃ u, exec (.linkDown p) s = .next u ∧ u.portUp p = false
      ∧ (u.port p).trained = false ∧ (u.port p).assigned = false ∧ (u.port p).downs = x.downs + 1 ∧ (u.port p).out = []
      ∧ (u.port p).reqs = x.reqs.filter (fun r => r.sentAt.isSome) ∧ (∀ q, q ≠ p → u.port q = s.port q)
      ∧ ∃ errs : List Flight, u.flights = s.flights ++ errs
          ∧ errs.length = (x.reqs.filter (fun r => r.sentAt.isNone)).length
          ∧ ∀ f ∈ errs, f.pkt.opcode = opDECLINE ∨ (f.pkt.opcode = opERR ∧ f.pkt.status = errNOT_JOINED))

/-- R251, R255, R264 to R268, R270, R276: a frame with a bad CRC or out of sequence is answered with NAK and has no other
effect, a good one advances the sequence; an arriving request that fails its checks does nothing inside the node; a
request unanswered for its limit ends with REQ_TMO; a link VC without credit for 4,096 ticks marks its plane saturated. -/
def Obligations.HoltimFramesRequestsAndTimeouts : Prop :=
  ∀ (s : State) (p : Nat), p < 16 → Table.risesFrom 0 s.regs = true → Table.risesFrom 0 s.ports = true →
    let x := s.port p
    (∀ frame, frame.length = 1280 → x.trained = true →
      (crc64 (frame.take 1272) ≠ natOf (slice frame 1272 8) ∨ natOf (slice frame 1161 2) % 4096 ≠ x.expect →
        exec (.holtimFrame p frame) s = .next (s.setPort p { x with nak := true }))
      ∧ (crc64 (frame.take 1272) = natOf (slice frame 1272 8) → natOf (slice frame 1161 2) % 4096 = x.expect →
        ∃ u, exec (.holtimFrame p frame) s = .next u ∧ (u.port p).expect = (x.expect + 1) % 4096 ∧ (u.port p).nak = false
          ∧ u.mem = s.mem ∧ u.tallies = s.tallies ∧ u.hurdles = s.hurdles ∧ u.requests = s.requests))
    ∧ (∀ pkt, (goodArrival s pkt = false ∨ (addressOp pkt.opcode = true ∧ windowCheck s pkt ≠ 0)) →
        let u := takeRequest p pkt s
        u.flights = s.flights ∧ u.mem = s.mem ∧ u.tallies = s.tallies ∧ u.hurdles = s.hurdles ∧ u.requests = s.requests)
    ∧ (∀ pkt, goodArrival s pkt = true → addressOp pkt.opcode = true → windowCheck s pkt = 0 →
        windowNoPrefetch s pkt = false → ∃ f : Flight, (takeRequest p pkt s) = { s with flights := s.flights ++ [f] }
          ∧ f.pkt = { pkt with dstNode := s.nodeId, offset := f.pkt.offset }
          ∧ f.pkt.offset = (s.field .hfiWinBase pkt.window 0 0 48 + pkt.offset) % 2 ^ 48)
    ∧ (∀ tag r, expired s p tag = some r → ∃ u f, exec (.requestTimeout p tag) s = .next u
        ∧ r ∈ x.reqs ∧ r.tag = tag ∧ r.limit ≠ 0
        ∧ (u.port p).reqs = x.reqs.filter (fun q => decide (q.tag ≠ tag)) ∧ (r.pkt.pf = false → u.bit .hfiErrStatus 0 0 = true)
        ∧ u.flights = s.flights ++ [f] ∧ f.pkt.seq = r.pkt.seq ∧ f.pkt.dstEp = r.pkt.srcEp
        ∧ (f.pkt.opcode = opDECLINE ∨ (f.pkt.opcode = opERR ∧ f.pkt.status = errREQ_TMO)))
    ∧ (∀ l c t, l < 2 → c < 4 → Table.get none x.stall (2 * c + l) = some t → t + 4096 ≤ s.now →
        ∃ u, exec (.holtimSaturation p l) s = .next u ∧ u.bit .hfiSatStatus 0 (2 * p + l) = true
          ∧ u.ports = s.ports ∧ u.mem = s.mem ∧ u.flights = s.flights)

/-! ### The processor cores -/

namespace Sys2Proof.Machine

/-- Core `c` is about to execute the word `w` of `n` bytes; `t` is the state that its fetch leaves. -/
def AtInstr (s t : State) (c w n : Nat) : Prop :=
  coreRuns s c = true ∧ ∃ f, fetchInstr c s = (f, .word w n) ∧ t = f.modCore c (fun x => { x with wfi := false })

/-- A trap taken from `x` leaves `y`: the saved pc, cause and value, the stacked privilege and enable, the vector. -/
def TrapTaken (x y : Core) (interrupt : Bool) (cause tval : Nat) : Prop :=
  let code := cause + (if interrupt then 2 ^ 63 else 0)
  let vectored (tvec : Nat) : Word :=
    BitVec.ofNat 64 (tvec / 4 * 4 + (if interrupt = true ∧ tvec % 2 = 1 then 4 * cause else 0))
  (x.priv = 3 ∨ bitOf (if interrupt then x.csr.mideleg else x.csr.medeleg) cause = false →
    y.priv = 3 ∧ y.pc = vectored x.csr.mtvec ∧ y.csr.mepc = x.pc.toNat ∧ y.csr.mcause = code ∧ y.csr.mtval = tval
    ∧ y.ms 11 2 = x.priv % 4 ∧ y.ms 7 1 = x.ms 3 1 ∧ y.ms 3 1 = 0)
  ∧ (x.priv ≠ 3 → bitOf (if interrupt then x.csr.mideleg else x.csr.medeleg) cause = true →
    y.priv = 1 ∧ y.pc = vectored x.csr.stvec ∧ y.csr.sepc = x.pc.toNat ∧ y.csr.scause = code ∧ y.csr.stval = tval
    ∧ y.ms 8 1 = x.priv % 2 ∧ y.ms 5 1 = x.ms 1 1 ∧ y.ms 1 1 = 0)
  ∧ y.x = x.x ∧ y.v = x.v ∧ y.p = x.p ∧ y.vl = x.vl ∧ y.lvstart = x.lvstart ∧ y.marks = x.marks ∧ y.pendingH = x.pendingH

/-- Core `c` is about to execute the 32-bit instruction `w` of `n` bytes in memory: itself, or what a compressed one stands for. -/
def RunsAs (s t : State) (c w n : Nat) : Prop :=
  (AtInstr s t c w 4 ∧ customWord w = false ∧ n = 4) ∨ ∃ h, AtInstr s t c h 2 ∧ expandC h = some w ∧ n = 2

/-- The scalar load that `w` is: integer or, with FS on, floating point. -/
def IsLoad (x : Core) (w : Nat) (d : LoadDest) : Prop :=
  (iOp w = 0x03 ∧ ∃ k, k < 4 ∧ ((iF3 w = k ∧ d = ⟨false, iRd w, 2 ^ k, true⟩)
    ∨ (k < 3 ∧ iF3 w = k + 4 ∧ d = ⟨false, iRd w, 2 ^ k, false⟩)))
  ∨ (iOp w = 0x07 ∧ x.fs ≠ 0 ∧ (iF3 w = 2 ∨ iF3 w = 3) ∧ d = ⟨true, iRd w, 2 ^ iF3 w, false⟩)

/-- What a loaded value leaves in its register: sign- or zero-extended, or NaN-boxed. -/
def loadedCore (d : LoadDest) (v : Nat) (x : Core) : Core :=
  if d.fp then (if d.width = 4 then x.setF32 d.reg v else x.setF d.reg v)
  else x.setX d.reg (if d.signed then BitVec.ofInt 64 (signedOf (8 * d.width) v) else BitVec.ofNat 64 (v % 2 ^ (8 * d.width)))

/-- No double-bit error lies in the cached line of an address. -/
def lineGood (u : State) (pa : Nat) : Prop := ∀ l, u.lineAt pa = some l → l.bad = false

/-- What the load `d` of core `c` from `va` does; `u` and `pa` are what its translation leaves and gives. -/
def LoadEffect (s u : State) (c va pa n : Nat) (d : LoadDest) : Prop :=
  let gets (v : Nat) : Prop := exec (.rv64Instruction c) s = .next (u.modCore c (fun y => (loadedCore d v y).retire n))
  (u.attrOf pa = .uncached → u.loadWaits pa = false → u.readCode pa = 0 → u.wrongAt (pa / 32 * 32) = 0 →
      gets (natOf (u.readMem pa d.width)))
  ∧ (u.attrOf pa = .uncached → u.loadWaits pa = false → u.readCode pa ≠ 0 →
      let m := ((u.afterRead pa 1).localError c (u.readCode pa)).core c
      ∃ v z, exec (.rv64Instruction c) s = .next v ∧ TrapTaken z (v.core c) false 24 va ∧ z.pc = m.pc + BitVec.ofNat 64 n
        ∧ z.x = (loadedCore d (errorValue d.width (u.readCode pa)) m).x ∧ z.v = (loadedCore d (errorValue d.width (u.readCode pa)) m).v
        ∧ z.csr.mlerr % 2 ^ 8 = u.readCode pa % 2 ^ 8 ∧ (v.core c).csr.mlerr = z.csr.mlerr)
  ∧ (∀ l, (u.attrOf pa).cached = true → u.lineAt pa = some l → u.stale pa = false → l.holders.elem c = true → l.data.length = 64 →
      gets (natOf (slice l.data (pa % 64) d.width)))
  ∧ ((u.attrOf pa).cached = true → u.lineAt pa = none → u.fillWaits pa = false → u.fillCode pa = 0 →
      u.wrongAt (pa / 64 * 64) = 0 → u.wrongAt (pa / 64 * 64 + 32) = 0 → Table.risesFrom 0 u.lines = true → ∃ v l,
        exec (.rv64Instruction c) s = .next v ∧ v = { u with lines := v.lines, cores := v.cores }
        ∧ v.core c = (loadedCore d (natOf (slice (u.readMem (pa / 64 * 64) 64) (pa % 64) d.width)) (u.core c)).retire n
        ∧ v.lineAt pa = some l ∧ l.data = u.readMem (pa / 64 * 64) 64 ∧ l.dirty = false ∧ l.holders = [c] ∧ l.bad = false)
  ∧ (∀ k, u.attrOf pa = .aperture k → ∃ v r, exec (.rv64Instruction c) s = .next v ∧ sentSince u v = [r]
        ∧ r.purpose = .coreLoad c va d ∧ r.pkt.opcode = opRD ∧ r.pkt.nsect = 1
        ∧ r.pkt.dstNode = globalNode (u.apertureFar k (pa / 32 * 32)) ∧ r.pkt.window = globalWindow (u.apertureFar k (pa / 32 * 32))
        ∧ r.pkt.offset = globalOffset (u.apertureFar k (pa / 32 * 32))
        ∧ v.core c = { (u.core c).retire n with wait := some .load } ∧ v.mem = u.mem)
  ∧ (u.attrOf pa = .io → aiaFrame pa = none → d.width = 8 → (fetchRegister (.core c false) pa u).answer.1 = 0 →
      exec (.rv64Instruction c) s = .next ((fetchRegister (.core c false) pa u).modCore c
        (fun y => (loadedCore d (fetchRegister (.core c false) pa u).answer.2.toNat y).retire n)))
  ∧ (u.attrOf pa = .io → aiaFrame pa = none → d.width ≠ 8 → ∃ v z, exec (.rv64Instruction c) s = .next v
      ∧ TrapTaken z (v.core c) false 24 va ∧ z.csr.mlerr % 2 ^ 8 = errUNMAPPED)

/-- What a store of core `c` of `b` to `va` does. -/
def StoreEffect (s u : State) (c pa n : Nat) (b : List Byte) : Prop :=
  let x := u.core c
  (u.attrOf pa = .uncached → u.storeWaits pa = false → u.portWaits (pa / 32 * 32) 1 true = false →
      (pa < 0x8000000000 → u.marked (pa / 0x10000) = false) → (∀ t off, placeOf pa ≠ .sram t off) →
      u.writeCode pa b.length = 0 → u.wrongAt (pa / 32 * 32) = 0 →
      exec (.rv64Instruction c) s = .next ((u.writeMem pa b).modCore c (fun y => y.retire n)))
  ∧ (u.attrOf pa = .uncached → u.storeWaits pa = false → u.portWaits (pa / 32 * 32) 1 true = false →
      (pa < 0x8000000000 → u.marked (pa / 0x10000) = false) →
      u.writeCode pa b.length ≠ 0 → u.wrongAt (pa / 32 * 32) = 0 → x.posted = none → ∃ v, exec (.rv64Instruction c) s = .next v
        ∧ (v.core c).posted = some pa ∧ (v.core c).pc = x.pc + BitVec.ofNat 64 n ∧ v.mem = u.mem)
  ∧ ((u.attrOf pa).cached = true → lineGood u pa → u.fillWaits pa = false → (u.lineAt pa = none → u.fillCode pa = 0
        ∧ u.wrongAt (pa / 64 * 64) = 0 ∧ u.wrongAt (pa / 64 * 64 + 32) = 0) → u.stale pa = false → Table.risesFrom 0 u.lines = true →
      ∃ v l, exec (.rv64Instruction c) s = .next v ∧ v = { u with lines := v.lines, cores := v.cores }
        ∧ v.core c = x.retire n ∧ v.lineAt pa = some l ∧ l.writer = c ∧ l.holders = [c] ∧ l.dirty = true ∧ l.bad = false
        ∧ l.data = spliced (match u.lineAt pa with
          | some old => old.data
          | none => u.readMem (pa / 64 * 64) 64) (pa % 64) b)
  ∧ (∀ k, u.attrOf pa = .aperture k → ∃ v r, exec (.rv64Instruction c) s = .next v ∧ sentSince u v = [r]
        ∧ r.purpose = .coreWrite c pa ∧ r.pkt.opcode = opWR ∧ r.pkt.data = b ∧ r.pkt.dstNode = globalNode (u.apertureFar k pa)
        ∧ r.pkt.window = globalWindow (u.apertureFar k pa) ∧ r.pkt.offset = globalOffset (u.apertureFar k pa)
        ∧ v.core c = x.retire n ∧ v.mem = u.mem)
  ∧ (u.attrOf pa = .io → aiaFrame pa = none → b.length = 8 →
      let f := writeRegister (.core c false) pa (BitVec.ofNat 64 (natOf b)) u
      (f.answer.1 = 0 → exec (.rv64Instruction c) s = .next (f.modCore c (fun y => y.retire n)))
      ∧ (f.answer.1 ≠ 0 → (f.core c).posted = none → ∃ v, exec (.rv64Instruction c) s = .next v ∧ (v.core c).posted = some pa))
  ∧ (u.attrOf pa = .io → aiaFrame pa = none → b.length ≠ 8 → x.posted = none → ∃ v, exec (.rv64Instruction c) s = .next v
      ∧ (v.core c).posted = some pa ∧ v.mem = u.mem)

end Sys2Proof.Machine

/-- R280 to R284, R287, R292 to R294: what instructions of the base, M, Zb, Zicsr, F and D extensions leave in the core (the integer and
floating-point results are RISC-V's, log entry 12), a compressed one as the 32-bit one that it stands for; x0 reads zero and takes no
write; a fetch changes nothing but the core's instruction lines and a free value's
name where no sector of memory has a wrong symbol and no cached line a double-bit error; an AMO word, and with FS Off one of F or D, is an
illegal instruction. A scalar load or store that is misaligned or cannot be translated takes its exception; one that a page-table entry
or a port makes wait is tried again (log entry 53); else a load takes its value from uncached memory, from the line in the caches or the one
it brings in, from register space by 8 bytes, or asks for it through an aperture and takes it with the answer, and a store writes there; an
ERR to a load gives the error value with LOAD_ERROR, one to a store stands as the core's posted error. In M mode no walk comes first. -/
def Obligations.RiscvInstructionsRetire : Prop :=
  (∀ (x : Core) (v : Word), x.getX 0 = 0 ∧ x.setX 0 v = x)
  ∧ (∀ (s t : State) (c w : Nat), AtInstr s t c w 4 → customWord w = false → Table.risesFrom 0 s.cores = true → s.wrong = [] →
      (∀ k l, Table.get none s.lines k = some l → l.bad = false) →
      t = { s with cores := t.cores, freeCtr := t.freeCtr } ∧ (∀ d, d ≠ c → t.core d = s.core d)
      ∧ t.core c = { s.core c with icache := (t.core c).icache, wfi := false })
  ∧ (∀ (s t : State) (c w n : Nat), RunsAs s t c w n →
    let x := t.core c
    let a := x.getX (iRs1 w)
    let b := x.getX (iRs2 w)
    let done (v : Word) : Prop := exec (.rv64Instruction c) s = .next (t.setCore c ((x.setX (iRd w) v).retire n))
    let goes (pc : Word) : Prop := exec (.rv64Instruction c) s = .next (t.setCore c { x.retire n with pc := pc })
    let links (pc : Word) : Prop := exec (.rv64Instruction c) s = .next (t.setCore c
      { (x.setX (iRd w) (x.pc + BitVec.ofNat 64 n)).retire n with pc := pc })
    let illegal : Prop := ∃ y v, exec (.rv64Instruction c) s = .next (t.setCore c y) ∧ TrapTaken x y false 2 v
    let next : Word := x.pc + BitVec.ofNat 64 n
    let r (op f7 f3 : Nat) : Prop := iOp w = op ∧ iF7 w = f7 ∧ iF3 w = f3
    let i (f3 : Nat) : Prop := iOp w = 0x13 ∧ iF3 w = f3
    let br (f3 : Nat) : Prop := iOp w = 0x63 ∧ iF3 w = f3
    let sh := bitsOf w 20 6
    (r 0x33 0 0 → done (a + b)) ∧ (r 0x33 0x20 0 → done (a - b))
    ∧ (r 0x33 0 7 → done (a &&& b)) ∧ (r 0x33 0 6 → done (a ||| b)) ∧ (r 0x33 0 4 → done (a ^^^ b))
    ∧ (r 0x33 0 2 → done (if a.toInt < b.toInt then 1 else 0)) ∧ (r 0x33 0 3 → done (if a.toNat < b.toNat then 1 else 0))
    ∧ (r 0x33 0 1 → done (a <<< (b.toNat % 64))) ∧ (r 0x33 0 5 → done (a >>> (b.toNat % 64)))
    ∧ (r 0x33 0x20 5 → done (a.sshiftRight (b.toNat % 64)))
    ∧ (r 0x33 1 0 → done (BitVec.ofInt 64 (a.toInt * b.toInt)))
    ∧ (r 0x33 1 1 → done (BitVec.ofInt 64 (a.toInt * b.toInt / 2 ^ 64)))
    ∧ (r 0x33 1 4 → b = 0 → done (BitVec.allOnes 64)) ∧ (r 0x33 1 4 → b ≠ 0 → done (BitVec.ofInt 64 (a.toInt.tdiv b.toInt)))
    ∧ (r 0x33 1 6 → b = 0 → done a) ∧ (r 0x33 1 6 → b ≠ 0 → done (BitVec.ofInt 64 (a.toInt.tmod b.toInt)))
    ∧ (r 0x33 1 7 → b = 0 → done a) ∧ (r 0x33 1 7 → b ≠ 0 → done (BitVec.ofNat 64 (a.toNat % b.toNat)))
    ∧ (r 0x33 0x20 7 → done (a &&& ~~~b)) ∧ (r 0x33 0x10 4 → done (4 * a + b))
    ∧ (r 0x3B 0 0 → done (BitVec.signExtend 64 ((a + b).setWidth 32)))
    ∧ (r 0x3B 0x20 0 → done (BitVec.signExtend 64 ((a - b).setWidth 32)))
    ∧ (iOp w = 0x1B → iF3 w = 0 → done (BitVec.signExtend 64 ((a + immI w).setWidth 32)))
    ∧ (i 0 → done (a + immI w)) ∧ (i 4 → done (a ^^^ immI w)) ∧ (i 6 → done (a ||| immI w)) ∧ (i 7 → done (a &&& immI w))
    ∧ (i 2 → done (if a.toInt < (immI w).toInt then 1 else 0)) ∧ (i 3 → done (if a.toNat < (immI w).toNat then 1 else 0))
    ∧ (i 1 → bitsOf w 26 6 = 0 → done (a <<< sh)) ∧ (i 5 → bitsOf w 26 6 = 0 → done (a >>> sh))
    ∧ (i 5 → bitsOf w 26 6 = 0x10 → done (a.sshiftRight sh))
    ∧ (iOp w = 0x37 → done (immU w)) ∧ (iOp w = 0x17 → done (x.pc + immU w))
    ∧ (iOp w = 0x6F → links (x.pc + immJ w)) ∧ (iOp w = 0x67 → iF3 w = 0 → links ((a + immI w) &&& ~~~1))
    ∧ (br 0 → goes (if a = b then x.pc + immB w else next)) ∧ (br 1 → goes (if a = b then next else x.pc + immB w))
    ∧ (br 4 → goes (if a.toInt < b.toInt then x.pc + immB w else next))
    ∧ (br 5 → goes (if a.toInt < b.toInt then next else x.pc + immB w))
    ∧ (br 6 → goes (if a.toNat < b.toNat then x.pc + immB w else next))
    ∧ (br 7 → goes (if a.toNat < b.toNat then next else x.pc + immB w))
    ∧ (iOp w = 0x0F → iF3 w = 1 → exec (.rv64Instruction c) s = .next (t.setCore c ({ x with icache := [] }.retire n)))
    ∧ (iOp w = 0x2F → illegal)
    ∧ (iOp w = 0x73 → iF3 w % 4 ≠ 0 → bitsOf w 20 12 = 0x340 →
        let k := if iF3 w < 4 then a.toNat else iRs1 w
        let old := x.csr.mscratch
        let v := if iF3 w % 4 = 1 then k else if iF3 w % 4 = 2 then old ||| k else old ^^^ (old &&& k)
        (x.priv < 3 → illegal)
        ∧ (x.priv = 3 → exec (.rv64Instruction c) s = .next (t.setCore c
            (({ x with csr := { x.csr with mscratch := v } }.setX (iRd w) (BitVec.ofNat 64 old)).retire n))))
    ∧ (iOp w ∈ [0x07, 0x27, 0x43, 0x47, 0x4B, 0x4F, 0x53] → x.fs = 0 → illegal)
    ∧ (∀ m dbl, x.fs ≠ 0 → x.rm (iF3 w) = some m → bitsOf w 25 2 = (if dbl = true then 1 else 0) →
        let f := if dbl = true then fmtFp64 else fmtFp32
        let g (k : Nat) : Nat := if dbl = true then x.getF k else x.getF32 k
        let p := g (iRs1 w)
        let q := g (iRs2 w)
        let fp (v : Nat × Nat) : Prop := exec (.rv64Instruction c) s = .next (t.setCore c
          (((if dbl = true then x.setF (iRd w) v.1 else x.setF32 (iRd w) v.1).accrue v.2).retire n))
        let o (k : Nat) : Prop := iOp w = 0x53 ∧ bitsOf w 27 5 = k
        (o 0 → fp (coreAdd f m p q)) ∧ (o 1 → fp (coreSub f m p q)) ∧ (o 2 → fp (coreMul f m p q)) ∧ (o 3 → fp (coreDiv f m p q))
        ∧ (o 0x0B → iRs2 w = 0 → fp (coreSqrt f m p)) ∧ (o 5 → iF3 w < 2 → fp (coreMinMax f (decide (iF3 w = 1)) p q))
        ∧ (o 0x1A → iRs2 w = 2 → fp (coreOfInt f m a.toInt))
        ∧ (o 0x18 → iRs2 w = 2 → exec (.rv64Instruction c) s = .next (t.setCore c
            (((x.setX (iRd w) (BitVec.ofNat 64 (coreToInt f m 64 true p).1)).accrue (coreToInt f m 64 true p).2).retire n)))
        ∧ (o 0x14 → iF3 w = 2 → exec (.rv64Instruction c) s = .next (t.setCore c
            (((x.setX (iRd w) (if (coreCmp f 0 p q).1 = true then 1 else 0)).accrue (coreCmp f 0 p q).2).retire n)))
        ∧ (iOp w = 0x43 → fp (coreFma f m false false p q (g (bitsOf w 27 5)))))
    ∧ (∀ d, IsLoad x w d →
        let va := (a + immI w).toNat
        (va % d.width ≠ 0 → ∃ y, exec (.rv64Instruction c) s = .next (t.setCore c y) ∧ TrapTaken x y false 4 va)
        ∧ (va % d.width = 0 →
          (reach c va .load t = none → exec (.rv64Instruction c) s = .next t)
          ∧ (∀ u k, reach c va .load t = some (u, .error k) → ∃ y,
              exec (.rv64Instruction c) s = .next (u.setCore c y) ∧ TrapTaken (u.core c) y false k va)
          ∧ ∀ u pa, reach c va .load t = some (u, .ok pa) → lineGood u pa → Table.risesFrom 0 u.cores = true →
            (u.loadWaits pa = true → exec (.rv64Instruction c) s = .next u) ∧ LoadEffect s u c va pa n d))
    ∧ (iF3 w < 4 → (iOp w = 0x23 ∨ (iOp w = 0x27 ∧ x.fs ≠ 0 ∧ 2 ≤ iF3 w)) →
        let va := (a + immS w).toNat
        let bytes := 2 ^ iF3 w
        let v := if iOp w = 0x23 then b.toNat else x.getF (iRs2 w)
        (va % bytes ≠ 0 → ∃ y, exec (.rv64Instruction c) s = .next (t.setCore c y) ∧ TrapTaken x y false 6 va)
        ∧ (va % bytes = 0 →
          (reach c va .store t = none → exec (.rv64Instruction c) s = .next t)
          ∧ (∀ u k, reach c va .store t = some (u, .error k) → ∃ y,
              exec (.rv64Instruction c) s = .next (u.setCore c y) ∧ TrapTaken (u.core c) y false k va)
          ∧ ∀ u pa, reach c va .store t = some (u, .ok pa) → Table.risesFrom 0 u.cores = true →
            (u.storeWaits pa = true → exec (.rv64Instruction c) s = .next u)
            ∧ StoreEffect s u c pa n (bytesOf bytes v))))
  ∧ (∀ (t : State) (c va : Nat) (k : AccessKind), (if k = .fetch then (t.core c).priv else (t.core c).dataPriv) = 3 →
      reach c va k t = some (t, if (t.core c).pmpAllows 3 k va = false ∨ (t.attrOf va).faults 3 k = true
        then .error k.accessFault else .ok va))
  ∧ (∀ (s : State) (n : Nat) (q : Arrival) (r : Request) (c va : Nat) (d : LoadDest), r.purpose = .coreLoad c va d → c < 64 →
      s.corePenned c = false → r.pkt.opcode = opRD → r.pkt.pf = false → r.pkt.nsect = 1 → (s.core c).wait = some .load →
      Table.risesFrom 0 s.cores = true →
      (Matches s n opRDATA q r → q.pkt.nsect = 1 → exec (.rdata n) s = .next ((answered s n r).modCore c (fun x =>
        loadedCore d (natOf (slice q.pkt.data (va % 32) d.width)) { x with wait := none })))
      ∧ (Matches s n opERR q r → q.pkt.status ≠ 0 → ∃ u z, exec (.err n) s = .next u ∧ TrapTaken z (u.core c) false 24 va
        ∧ z.csr.mlerr % 2 ^ 8 = q.pkt.status % 2 ^ 8 ∧ z.x = (loadedCore d (errorValue d.width q.pkt.status) (s.core c)).x))
  ∧ ∀ h w : Nat, h < 2 ^ 16 → expandC h = some w →
      let rd := bitsOf h 7 5
      let imm : Word := BitVec.ofInt 64 (signedOf 6 (bitsOf h 2 5 + bitsOf h 12 1 * 32))
      let q (k f : Nat) : Prop := h % 4 = k ∧ bitsOf h 13 3 = f
      (q 1 0 → iOp w = 0x13 ∧ iF3 w = 0 ∧ iRd w = rd ∧ iRs1 w = rd ∧ immI w = imm)
      ∧ (q 1 2 → iOp w = 0x13 ∧ iF3 w = 0 ∧ iRd w = rd ∧ iRs1 w = 0 ∧ immI w = imm)
      ∧ (q 2 4 → bitOf h 12 = false → bitsOf h 2 5 ≠ 0 →
          iOp w = 0x33 ∧ iF3 w = 0 ∧ iF7 w = 0 ∧ iRd w = rd ∧ iRs1 w = 0 ∧ iRs2 w = bitsOf h 2 5)
      ∧ (q 2 4 → bitOf h 12 = true → bitsOf h 2 5 ≠ 0 →
          iOp w = 0x33 ∧ iF3 w = 0 ∧ iF7 w = 0 ∧ iRd w = rd ∧ iRs1 w = rd ∧ iRs2 w = bitsOf h 2 5)
      ∧ (q 2 3 → rd ≠ 0 ∧ iOp w = 0x03 ∧ iF3 w = 3 ∧ iRd w = rd ∧ iRs1 w = 2
          ∧ immI w = BitVec.ofNat 64 (bitsOf h 5 2 * 8 + bitsOf h 12 1 * 32 + bitsOf h 2 3 * 64))
      ∧ (q 0 7 → iOp w = 0x23 ∧ iF3 w = 3 ∧ iRs1 w = 8 + bitsOf h 7 3 ∧ iRs2 w = 8 + bitsOf h 2 3
          ∧ immS w = BitVec.ofNat 64 (bitsOf h 10 3 * 8 + bitsOf h 5 2 * 64))

/-- R280, R291, R294, R297: an environment call, an interrupt and a posted error are taken with the state saved; MRET
takes it back (the CSRs' layout is RISC-V's, log entry 12; the end of WFI and a posted error ending a wait: log entry 19); an interrupt abandons a wait with its mark and pending bit as they were, comes after a wait that is over in this
tick has completed, and is not taken in a wait for a load, a credit or an arrival; a core in WFI goes on when the timer interrupt it enables is pending. -/
def Obligations.TrapsSaveAndRestoreTheCore : Prop :=
  (∀ (s t : State) (c : Nat), AtInstr s t c 0x73 4 →
    ∃ y, exec (.rv64Instruction c) s = .next (t.setCore c y) ∧ TrapTaken (t.core c) y false (8 + (t.core c).priv) 0)
  ∧ (∀ (s t : State) (c : Nat), AtInstr s t c 0x30200073 4 → (t.core c).priv = 3 →
    let x := t.core c
    ∃ y, exec (.rv64Instruction c) s = .next (t.setCore c y) ∧ y.priv = x.ms 11 2 ∧ y.pc = BitVec.ofNat 64 x.csr.mepc
      ∧ y.ms 3 1 = x.ms 7 1 ∧ y.ms 7 1 = 1 ∧ y.ms 11 2 = 0 ∧ (x.ms 11 2 ≠ 3 → y.ms 17 1 = 0) ∧ y.x = x.x)
  ∧ ∀ (s : State) (c : Nat), c < 64 → (s.core c).held = false → (s.core c).paused = false → s.corePenned c = false →
    s.akm.frozen = false →
    let x := s.core c
    (∀ k, s.takable c = some k → x.posted = none → (x.wait = none ∨ (∃ i d, x.wait = some (.tally i d)) ∨ ∃ h, x.wait = some (.hurdle h)) →
      tallyWaitReady (576 + c) s = false →
      (∀ h, x.wait = some (.hurdle h) → releaseDue h s = true → s.inMap h (576 + c) = false) →
      ∃ y, exec (.interrupt c) s = .next (s.setCore c y) ∧ TrapTaken x y true k 0 ∧ y.wait = none)
    ∧ (∀ k, s.takable c = some k → x.posted = none → tallyWaitReady (576 + c) s = true → Table.risesFrom 0 s.cores = true →
      ∃ u, exec (.interrupt c) s = .next u ∧ TrapTaken ((tallyWaitFinish (576 + c) s).core c) (u.core c) true k 0
        ∧ ((u.core c).priv = 3 → (u.core c).csr.mepc = (x.pc + 4).toNat) ∧ (u.core c).wait = none)
    ∧ (s.takable c = none ∨ x.wait = some .load → exec (.interrupt c) s = .next s)
    ∧ (∀ v, x.posted = some v → x.wait = none → ∃ y, exec (.postedError c) s = .next (s.setCore c y)
        ∧ TrapTaken x y false 25 v ∧ y.posted = none)
    ∧ (x.posted = none → exec (.postedError c) s = .next s)
    ∧ ((s.getReg (regAddr .prcMtimecmp c)).toNat ≤ s.time → bitOf x.csr.mie 7 = true → x.wfi = true →
        exec (.mtip c) s = .next (s.setCore c { x with wfi := false }))

/-- R117, R226, R285, R289, R290: the core's synchronisation instructions. TCRED and HARR wait until the core's earlier
posted requests, the write-backs of its shared lines among them, are answered; a credit of 0 sends nothing; a wait of distance 0 completes
at once. R32, R119, R207, R288, R292, R294: PAMO with an undefined OP is illegal; misaligned it traps before translation (log entry 19; a
trap's layout is log entry 12's); while a page-table entry or its port makes it wait it is tried again; on this node's uncached memory it
replaces its word and completes, or leaves a posted error with the physical address (log entry 19); through an aperture it sends one
atomic. A speculative read stores nothing and leaves no error: it brings a line in, or sends a read with the prefetch bit, or does
nothing. R410: bit 63 of its operand tells of a double-bit error in the line, or the sector of an on-die memory, that it names (log
entry 54): a clean line is fetched again; a dirty one stays, bad, until something meets it, as this read does where the core may read ahead: it
goes back as two poisoned sectors, and the core that wrote it is to be penned. -/
def Obligations.CoreSyncAtomicsAndSpeculation : Prop :=
  (
    ∀ (s t : State) (c w : Nat), AtInstr s t c w 4 → iOp w = 0x5B → iF3 w = 4 → iRd w = 0 →
      let x := t.core c
      let a := (x.getX (iRs1 w)).toNat
      let amount := (x.getX (iRs2 w)).toNat % 2 ^ 16
      let node := if bitOf a 63 then some (bitsOf a 32 16) else none
      let h := a % 1024
      (iF7 w = 0 → amount = 0 → exec (.tcred c) s = .next (t.setCore c (x.retire 4)))
      ∧ (iF7 w = 0 → amount ≠ 0 → postedBy t c = true →
          exec (.tcred c) s = .next (t.setCore c { x with wait := some (.credit node (bitsOf a 0 17) amount) }))
      ∧ (iF7 w = 0 → amount ≠ 0 → postedBy t c = false → ∃ r, (∃ u, exec (.tcred c) s = .next u ∧ sentSince t u = [r]
            ∧ u.core c = x.retire 4 ∧ u.mem = t.mem)
          ∧ r.purpose = .coreCredit c ∧ r.pkt.opcode = opCREDIT ∧ r.pkt.tally = bitsOf a 0 17 ∧ r.pkt.credit = amount
          ∧ r.pkt.terr = false)
      ∧ (iF7 w = 1 → amount = 0 → exec (.tcredC c) s = .next ((t.cleanShared c).modCore c (fun y => y.retire 4)))
      ∧ (iF7 w = 1 → amount ≠ 0 → ∃ v, exec (.tcredC c) s = .next v
          ∧ (postedBy (t.cleanShared c) c = false →
              (sentSince (t.cleanShared c) v).map (fun r => r.pkt.credit) = [amount]))
      ∧ (iF7 w = 2 → a ≤ 191 → (x.getX (iRs2 w)).toNat % 2 ^ 31 ≠ 0 → exec (.coreTwait c) s = .next (t.setCore c
          { x with wait := some (.tally a ((x.getX (iRs2 w)).toNat % 2 ^ 31)) }))
      ∧ (iF7 w = 2 → a ≤ 191 → (x.getX (iRs2 w)).toNat % 2 ^ 31 = 0 → Table.risesFrom 0 t.cores = true →
          ∃ u, exec (.coreTwait c) s = .next u ∧ (u.core c).wait = none ∧ (u.core c).pc = x.pc + 4)
      ∧ (iF7 w = 2 → 191 < a → ∃ y v, exec (.coreTwait c) s = .next (t.setCore c y) ∧ TrapTaken x y false 2 v)
      ∧ (iF7 w = 3 → Table.get false x.pendingH h = true → exec (.coreHarr c) s = .next ((t.raiseBit .prcSyncStatus 0 c).setCore c (x.retire 4)))
      ∧ ((iF7 w = 3 ∨ iF7 w = 5) → Table.get false x.pendingH h = false → ∃ u,
          exec (if iF7 w = 3 then .coreHarr c else .coreHarrw c) s = .next u
          ∧ (u.core c).wait = some (.arrive h (decide (iF7 w = 5)) (!postedBy (t.cleanShared c) c))
          ∧ (sentSince (t.cleanShared c) u).map (fun r => (r.pkt.opcode, r.pkt.tally)) =
              if postedBy (t.cleanShared c) c then [] else [(opARRIVE, h + 1024 * c)])
      ∧ ((iF7 w = 4 ∨ iF7 w = 5) → Table.get false x.pendingH h = true →
          exec (if iF7 w = 4 then .coreHwait c else .coreHarrw c) s = .next (t.setCore c { x with wait := some (.hurdle h) }))
      ∧ (iF7 w = 4 → Table.get false x.pendingH h = false → exec (.coreHwait c) s = .next (t.setCore c (x.retire 4)))
      ∧ (iF7 w = 7 → Table.risesFrom 0 t.lines = true → ∃ u, exec (.clean c) s = .next u
          ∧ (cleaning (t.cleanShared c) c = false → (u.core c).wait = none ∧ (u.core c).pc = x.pc + 4)
          ∧ (cleaning (t.cleanShared c) c = true → (u.core c).wait = some .clean ∧ (u.core c).pc = x.pc)
          ∧ (∀ e ∈ u.lines, ∀ l, e.2 = some l → l.shared = true → l.dirty = true → c ∉ l.holders)
          ∧ u.tallies = t.tallies ∧ u.hurdles = t.hurdles))
  ∧ (
    (∀ (s t : State) (c w pa : Nat), AtInstr s t c w 4 → iOp w = 0x5B → iF3 w = 4 → iF7 w = 6 →
      let x := t.core c
      let va := (x.getX (iRs1 w)).toNat
      let bytes := if bitOf (iRd w) 4 then 8 else 4
      let v := natOf (bytesOf bytes (x.getX (iRs2 w)).toNat)
      let legal := iRd w % 8 ≤ 5 ∧ (bitOf (iRd w) 3 = true → 4 ≤ iRd w % 8)
      (¬ legal → ∃ y v, exec (.pamo c) s = .next (t.setCore c y) ∧ TrapTaken x y false 2 v)
      ∧ (legal → va % bytes ≠ 0 → ∃ y, exec (.pamo c) s = .next (t.setCore c y) ∧ TrapTaken x y false 6 va)
      ∧ (legal → va % bytes = 0 → reach c va .store t = none → exec (.pamo c) s = .next t)
      ∧ (legal → va % bytes = 0 → ∀ u k, reach c va .store t = some (u, .error k) → ∃ y,
          exec (.pamo c) s = .next (u.setCore c y) ∧ TrapTaken (u.core c) y false k va)
      ∧ (legal → va % bytes = 0 → ∀ m, reach c va .store t = some (m, .ok pa) → Table.risesFrom 0 m.cores = true →
          let old := natOf (m.readMem pa bytes)
          let free := m.portWaits (pa / 32 * 32) 1 true = false ∧ atomicWaits m pa = false
          (atomicWaits m pa = true → exec (.pamo c) s = .next m)
          ∧ (∀ k, m.attrOf pa = .aperture k → ∃ u r, exec (.pamo c) s = .next u ∧ sentSince m u = [r] ∧ r.pkt.opcode = opATOM
              ∧ r.pkt.status = iRd w ∧ u.mem = m.mem ∧ u.core c = (m.core c).retire 4)
          ∧ (m.attrOf pa = .uncached → m.readCode pa = 0 → m.routeCode opATOM pa = 0 → (∀ n off, placeOf pa ≠ .sram n off) →
              m.snap = [] → free → m.wrongAt pa = 0 →
              exec (.pamo c) s = .next ((m.writeMem pa (bytesOf bytes
                (atomicWord (iRd w % 8) (bitOf (iRd w) 3) (8 * bytes) old v))).modCore c (fun y => y.retire 4)))
          ∧ (m.attrOf pa = .uncached → (∃ n off, placeOf pa = .sram n off) → (m.core c).posted = none → free →
              ∃ u, exec (.pamo c) s = .next u ∧ (u.core c).posted = some pa ∧ u.mem = m.mem)))
    ∧ (∀ (s : State) (c : Nat) (a : Word) (l : Line), c < 64 → (s.core c).held = false → (s.core c).paused = false →
      s.corePenned c = false → s.akm.frozen = false → a.toNat < 2 ^ 39 → (s.attrOf a.toNat).cached = true → s.lineAt a.toNat = some l →
      Table.risesFrom 0 s.lines = true → Table.risesFrom 0 s.poison = true → l.holders.elem c = true → l.writer = c →
      ∃ u, exec (.speculativeRead c (a ||| BitVec.ofNat 64 (2 ^ 63))) s = .next u
        ∧ (l.dirty = true → s.unitOn 1 c = true → s.penIsDue 1 c = false → u.penDue = s.penDue ++ [(1, c, some 3)])
        ∧ (l.dirty = true → (∀ i, i < 2 → s.sectorDenied (a.toNat / 64 * 64 + 32 * i) = 0
              ∧ s.portWaits (a.toNat / 64 * 64 + 32 * i) 1 true = false) → s.marked (a.toNat / 65536) = false →
            u.lineAt a.toNat = none ∧ ∀ i, i < 2 → u.poisoned (a.toNat / 64 * 64 + 32 * i) = true)
        ∧ (l.dirty = false → u.penDue = s.penDue ∧ u.mem = s.mem ∧ u.poison = s.poison)
        ∧ (l.dirty = false → l.holders = [c] → s.fillCode a.toNat = 0 → s.portWaits (a.toNat / 64 * 64) 2 false = false → ∃ y,
            u.lineAt a.toNat = some y ∧ y.data = s.readMem (a.toNat / 64 * 64) 64 ∧ y.dirty = false))
    ∧ (∀ (s : State) (c : Nat) (a : Word), c < 64 → a.toNat < 2 ^ 63 →
      let far := exec (.speculativeRead c (a ||| BitVec.ofNat 64 (2 ^ 63))) s
      let sec := a.toNat / 32 * 32
      (∀ l, readsAhead s c = false → (s.attrOf a.toNat).cached = true → s.lineAt a.toNat = some l → l.dirty = true →
        l.holders.elem c = true → l.writer = c →
        far = .next { s with lines := Table.set none s.lines (a.toNat / 64) (some { l with bad := true, holders := [c] }) })
      ∧ ((s.attrOf a.toNat).cached = false → ((∃ n off, placeOf a.toNat = .sram n off)
          ∨ (∃ n off, placeOf a.toNat = .engineMem n off) ∨ placeOf a.toNat = .commons) → lineGood s a.toNat →
        s.memWf = true → Table.risesFrom 0 s.wrong = true → s.poisoned sec = false → (∀ k, s.attrOf a.toNat ≠ .aperture k) →
        ∃ u, far = .next u ∧ u.wrongAt sec = 2 ∧ u = { s with mem := u.mem, wrong := u.wrong, freeCtr := u.freeCtr }
          ∧ ∀ b, b < sec ∨ sec + 32 ≤ b → u.readMem b 1 = s.readMem b 1))
    ∧ ∀ (s : State) (c : Nat) (a : Word), c < 64 → (s.core c).held = false → (s.core c).paused = false →
      s.corePenned c = false → s.akm.frozen = false → a.toNat < 2 ^ 63 → lineGood s a.toNat →
      ∃ u, exec (.speculativeRead c a) s = .next u
        ∧ u = { s with lines := u.lines, freeCtr := u.freeCtr, requests := u.requests, flights := u.flights, seqs := u.seqs }
        ∧ (∀ r ∈ sentSince s u, r.pkt.opcode = opRD ∧ r.pkt.pf = true ∧ r.purpose = .coreRead c a.toNat)
        ∧ (s.attrOf a.toNat = .io → u = s) ∧ (s.attrOf a.toNat = .uncached → u = s)
        ∧ ((s.attrOf a.toNat).cached = true → s.lineAt a.toNat = none → s.fillCode a.toNat = 0 →
            s.fillWaits a.toNat = false → ∃ l,
            u.lineAt a.toNat = some l ∧ l.dirty = false ∧ l.data = s.readMem (a.toNat / 64 * 64) 64 ∧ c ∈ l.holders))

/-! ### LVX -/

namespace Sys2Proof.Machine

/-- The commands of LVX arithmetic by OP, with what each computes of one element: from the format, rounding and SEW, the
predicate bit, vs1, operand 2 and vd, the result's bits and fflags (R303 to R306). -/
def LvxArithCommand (i : Instr) (c op : Nat) : Prop :=
  (op, i) ∈ [(0x00, Instr.lvxAdd c), (0x01, .lvxSub c), (0x02, .lvxMul c), (0x03, .lvxMulh c), (0x04, .lvxMin c),
    (0x05, .lvxMax c), (0x06, .lvxMinu c), (0x07, .lvxMaxu c), (0x08, .lvxAnd c), (0x09, .lvxOr c), (0x0A, .lvxXor c),
    (0x0B, .lvxSll c), (0x0C, .lvxSrl c), (0x0D, .lvxSra c), (0x0E, .lvxCmpeq c), (0x0F, .lvxCmplt c), (0x10, .lvxCmpltu c),
    (0x11, .lvxMerge c), (0x12, .lvxMove c), (0x13, .lvxFcvt c), (0x14, .lvxFadd c), (0x15, .lvxFsub c), (0x16, .lvxFmul c),
    (0x17, .lvxFdiv c), (0x18, .lvxFmacc c), (0x19, .lvxFnmsac c), (0x1A, .lvxFmin c), (0x1B, .lvxFmax c),
    (0x1C, .lvxFsqrt c), (0x1D, .lvxFcmpeq c), (0x1E, .lvxFcmplt c), (0x1F, .lvxFcmple c)]

/-- The element operation of each OP. -/
def lvxKind (op : Nat) : LvKind :=
  if op ≤ 0x0D then intKind op else if op ≤ 0x10 then intCmpKind op
  else [mergeKind, moveKind, fcvtKind, fpKind coreAdd, fpKind coreSub, fpKind coreMul, fpKind coreDiv, fmaKind false,
    fmaKind true, fpMinMaxKind false, fpMinMaxKind true, fsqrtKind, fpCmpKind 0, fpCmpKind 1, fpCmpKind 2].getD (op - 0x11) {
      val := fun _ _ _ _ _ => (0, 0) }

/-- The commands of the reductions by operation code. -/
def LvxReduceCommand (i : Instr) (c op : Nat) : Prop :=
  (op, i) ∈ [(0, Instr.lvxRsum c), (1, .lvxRmin c), (2, .lvxRmax c), (3, .lvxRminu c), (4, .lvxRmaxu c), (8, .frsumOrd c),
    (9, .frsumTree c), (10, .frmin c), (11, .frmax c)]

/-- The commands of LVX memory access by MOP, with the element before which an interrupt would stop them. -/
def LvxMemCommand (i : Instr) (c stop mop : Nat) : Prop :=
  (mop, i) ∈ [(0, Instr.lvxLoadUnit c stop), (1, .lvxLoadStrided c stop), (2, .lvxLoadFirstFault c stop),
    (3, .lvxLoadIndexed c stop), (4, .lvxStoreUnit c stop), (5, .lvxStoreStrided c stop), (6, .lvxStoreIndexed c stop)]

end Sys2Proof.Machine

/-- R300, R301, R303 to R306: an arithmetic instruction gives every active element from lvstart (long form) or of bits
[127:0] (short form) the result of its operation on the elements of its sources as they were, leaves every other element
and register, gathers the elements' fflags, and ends with lvstart 0 and FS Dirty (a long form with vl and lvstart 0 writes nothing and
leaves FS); with FS Off, a misaligned group or a reserved field it is illegal and
changes no vector state. Taking the FCVT source from vs2 is the model's reading (log entry 30). R303: what the integer
operations of LVX compute of elements of `w` bits. -/
def Obligations.LvxArithmeticAndIntegerResults : Prop :=
  (
    ∀ (s t : State) (c w op : Nat) (i : Instr), LvxArithCommand i c op → AtInstr s t c w 4 → isArith op w = true →
      let x := t.core c
      let k := lvxKind op
      let sb := x.sewBits
      let elems := arithElems x k w
      let env : LvEnv := { f := coreFmt (decide (x.sew = 3)), rm := (x.rm 7).getD .rne, w := sb, sel := iRs1 w }
      let result (e : Nat) : Nat × Nat := k.val env (bitOf (x.getP (iF3 w)) e) (if k.useVs1 then x.getE sb (iRs1 w) e else 0)
        (operand2 x k w e) (if k.cmp then 0 else x.getE sb (iRd w) e)
      (arithIllegal x k w = true → ∃ y v, exec i s = .next (t.setCore c y) ∧ TrapTaken x y false 2 v)
      ∧ (arithIllegal x k w = false → x.sew < 4 → Table.risesFrom 0 x.v = true → Table.risesFrom 0 x.p = true → ∃ y,
          exec i s = .next (t.setCore c y)
          ∧ (k.cmp = false → (∀ e ∈ elems, y.getE sb (iRd w) e = (result e).1 % 2 ^ sb)
              ∧ (∀ e, e < 8192 / sb → e ∉ elems → y.getE sb (iRd w) e = x.getE sb (iRd w) e) ∧ y.p = x.p
              ∧ (∀ r, r < iRd w → y.getV r % 2 ^ 1024 = x.getV r % 2 ^ 1024)
              ∧ (x.vl ≤ 1024 * 2 ^ x.group / sb → ∀ r,
                  r < iRd w ∨ iRd w + (if bitOf w 25 = true then 2 ^ x.group else 1) ≤ r → y.getV r = x.getV r))
          ∧ (k.cmp = true → (∀ e ∈ elems, e < 1024 → bitOf (y.getP (iRd w)) e = decide ((result e).1 ≠ 0))
              ∧ (∀ e, e < 1024 → e ∉ elems → bitOf (y.getP (iRd w)) e = bitOf (x.getP (iRd w)) e) ∧ y.v = x.v
              ∧ (∀ q, q ≠ iRd w → y.getP q = x.getP q))
          ∧ y.fs = (if bitOf w 25 = true ∧ x.vl = 0 ∧ x.lvstart = 0 then x.fs else 3)
          ∧ y.csr.fcsr = x.csr.fcsr ||| elems.foldl (fun n e => n ||| (result e).2) 0
          ∧ y.pc = x.pc + 4 ∧ y.lvstart = 0 ∧ y.x = x.x ∧ y.vl = x.vl ∧ y.marks = x.marks))
  ∧ (
    ∀ w a b : Nat, 0 < w → a < 2 ^ w → b < 2 ^ w →
      let x := signedOf w a
      let y := signedOf w b
      (∀ op, op ≤ 0x10 → lvInt op w a b < 2 ^ w)
      ∧ lvInt 0 w a b = (a + b) % 2 ^ w ∧ (lvInt 1 w a b + b) % 2 ^ w = a ∧ lvInt 2 w a b = a * b % 2 ^ w
      ∧ (signedOf w (lvInt 3 w a b) * 2 ^ w ≤ x * y ∧ x * y < (signedOf w (lvInt 3 w a b) + 1) * 2 ^ w)
      ∧ signedOf w (lvInt 4 w a b) = min x y ∧ signedOf w (lvInt 5 w a b) = max x y
      ∧ lvInt 6 w a b = min a b ∧ lvInt 7 w a b = max a b
      ∧ (∀ k, k < w → bitOf (lvInt 8 w a b) k = (bitOf a k && bitOf b k) ∧ bitOf (lvInt 9 w a b) k = (bitOf a k || bitOf b k)
          ∧ bitOf (lvInt 10 w a b) k = (bitOf a k ^^ bitOf b k))
      ∧ (∀ k, k < w → bitOf (lvInt 0xB w a b) k = (decide (b % w ≤ k) && bitOf a (k - b % w))
          ∧ bitOf (lvInt 0xC w a b) k = (decide (k + b % w < w) && bitOf a (k + b % w))
          ∧ bitOf (lvInt 0xD w a b) k = bitOf a (min (w - 1) (k + b % w)))
      ∧ (lvInt 0xE w a b = if a = b then 1 else 0) ∧ (lvInt 0xF w a b = if x < y then 1 else 0)
      ∧ (lvInt 0x10 w a b = if a < b then 1 else 0))

/-- R292, R303 to R308: LVX loads and stores of this node's uncached memory whose elements all translate: every active
element from lvstart is loaded or stored at its address (unit, strided or indexed), others keep their bytes, where no access waits at its
port, no sector has a wrong symbol and the walks leave nothing behind; lvstart ends
0 (stores are stated for M mode, where no store can change a translation under way, and of an element whose bytes no other active
element's overlap). While a page-table entry or an element must wait at its port the instruction is tried again (log entry 53). An element that faults first leaves
lvstart at it, the vector state as it was; a first-fault load whose element above 0 may not be read ahead shortens vl
instead. -/
def Obligations.LvxMemoryAccessesItsElements : Prop :=
  ∀ (s t : State) (c w stop mop : Nat) (i : Instr), LvxMemCommand i c stop mop → AtInstr s t c w 4 → isVMem mop w = true →
    let x := t.core c
    let bytes := x.sewBits / 8
    let addr := vAddress x mop w
    let elems := vElems x w
    let kind : AccessKind := if mop < 4 then .load else .store
    let plain (e pa : Nat) : Prop := addr e % bytes = 0 ∧ translate t c (addr e) kind = .ok pa ∧ t.attrOf pa = .uncached
      ∧ (∀ n off, placeOf pa ≠ .sram n off) ∧ (if mop < 4 then t.readCode pa = 0 else t.writeCode pa bytes = 0)
      ∧ t.wrongAt pa = 0 ∧ lineGood t pa ∧ t.portWaits (pa / 32 * 32) 1 (decide (4 ≤ mop)) = false
    let reached : Prop := vReach t c kind addr elems = some t ∧ vWaits t c kind addr elems = false
    (vMemIllegal x mop w = true → ∃ y v, exec i s = .next (t.setCore c y) ∧ TrapTaken x y false 2 v)
    ∧ (vMemIllegal x mop w = false → (vReach t c kind addr elems = none ∨ (vReach t c kind addr elems = some t
        ∧ vWaits t c kind addr elems = true)) → exec i s = .next t)
    ∧ (vMemIllegal x mop w = false → mop < 4 → mop ≠ 2 → t.takable c = none → vLoading t c = false → x.loadErr = none →
        x.sew < 4 → Table.risesFrom 0 x.v = true → Table.risesFrom 0 t.cores = true → (∀ e ∈ elems, ∃ pa, plain e pa) →
        reached →
        ∃ y, exec i s = .next (t.setCore c y) ∧ y.lvstart = 0 ∧ y.pc = x.pc + 4 ∧ y.vl = x.vl ∧ y.x = x.x ∧ y.p = x.p
          ∧ (∀ e ∈ elems, ∀ pa, plain e pa → bytesOf bytes (y.getE x.sewBits (iRd w) e) = t.readMem pa bytes)
          ∧ (∀ e, e < 8192 / x.sewBits → e ∉ elems → y.getE x.sewBits (iRd w) e = x.getE x.sewBits (iRd w) e)
          ∧ (x.vl ≤ 1024 * 2 ^ x.group / x.sewBits → ∀ r,
              r < iRd w ∨ iRd w + (if vLong w = true then 2 ^ x.group else 1) ≤ r → y.getV r = x.getV r)
          ∧ y.fs = (if vLong w = true ∧ x.vl = 0 ∧ x.lvstart = 0 then x.fs else 3))
    ∧ (vMemIllegal x mop w = false → mop = 2 → t.takable c = none → vLoading t c = false → x.loadErr = none → x.vl ≠ 0 →
        vLong w = true → x.lvstart = 0 → reached → Table.risesFrom 0 t.cores = true → ∀ e, e ≠ 0 → elems.head? = some e →
        ffEnds t c bytes (addr e) = true →
        ∃ y, exec i s = .next (t.setCore c y) ∧ y.vl = e ∧ y.lvstart = 0 ∧ y.v = x.v ∧ y.pc = x.pc + 4)
    ∧ (vMemIllegal x mop w = false → 4 ≤ mop → t.takable c = none → vLoading t c = false → t.snap = [] → x.loadErr = none →
        x.priv = 3 → x.ms 17 1 = 0 → t.memWf = true → reached →
        (∀ e ∈ elems, ∃ pa, plain e pa) → ∃ u, exec i s = .next u
          ∧ (u.core c).lvstart = 0 ∧ (u.core c).pc = x.pc + 4 ∧ (u.core c).v = x.v ∧ (u.core c).x = x.x
          ∧ (∀ a, (∀ e ∈ elems, ∀ pa, plain e pa → a < pa ∨ pa + bytes ≤ a) → u.readMem a 1 = t.readMem a 1)
          ∧ (∀ e ∈ elems, ∀ pa, plain e pa →
              (∀ d ∈ elems, ∀ pb, d ≠ e → plain d pb → pb + bytes ≤ pa ∨ pa + bytes ≤ pb) → u.readMem pa bytes = bytesOf bytes (x.getE x.sewBits (iRd w) e)))
    ∧ (vMemIllegal x mop w = false → mop ≠ 2 → t.takable c = none → vLoading t c = false → vLong w = true →
        Table.risesFrom 0 t.cores = true → reached → ∀ e cause, elems.head? = some e → vFault t c bytes (addr e) kind = some cause →
        ∃ y z, exec i s = .next (t.setCore c z) ∧ TrapTaken y z false cause (addr e) ∧ y.lvstart = e ∧ y.pc = x.pc
          ∧ y.v = x.v ∧ y.vl = x.vl ∧ y.x = x.x)

/-- R299, R302, R309: the reductions return, in rd, s taken with every active element, wherever lvstart stands (log entry 30), in
the order of their rule, FRSUM.TREE by the tree of R27; with no active element s comes back. LVCFG sets vl to the smaller of x[rs1] and the largest the type allows; the predicate
instructions work bit by bit, PPOPC and PFIRST below vl. -/
def Obligations.LvxReductionsPredicatesAndConfiguration : Prop :=
  (∀ (s t : State) (c w op : Nat) (i : Instr), LvxReduceCommand i c op → AtInstr s t c w 4 → isReduction op w = true →
    let x := t.core c
    let long := decide (iF3 w = 2)
    let l := (x.actives 0 (x.formCount long) (bitsOf w 29 3)).map (fun e => x.getE x.sewBits (iRs2 w) e)
    x.fs ≠ 0 → x.groupBad long [iRs2 w] = false → Table.risesFrom 0 x.x = true →
    (op < 8 → ∃ y v, exec i s = .next (t.setCore c y) ∧ y.getX (iRd w) = (if iRd w = 0 then 0 else v)
        ∧ (l = [] → v = x.getX (iRs1 w))
        ∧ (op = 0 → v = x.getX (iRs1 w) + (l.map (fun e => BitVec.ofInt 64 (signedOf x.sewBits e))).foldl (· + ·) 0)
        ∧ (op = 1 → (v = x.getX (iRs1 w) ∨ ∃ e ∈ l, v = BitVec.ofInt 64 (signedOf x.sewBits e))
            ∧ v.toInt ≤ (x.getX (iRs1 w)).toInt ∧ ∀ e ∈ l, v.toInt ≤ (BitVec.ofInt 64 (signedOf x.sewBits e)).toInt)
        ∧ (op = 2 → (v = x.getX (iRs1 w) ∨ ∃ e ∈ l, v = BitVec.ofInt 64 (signedOf x.sewBits e))
            ∧ (x.getX (iRs1 w)).toInt ≤ v.toInt ∧ ∀ e ∈ l, (BitVec.ofInt 64 (signedOf x.sewBits e)).toInt ≤ v.toInt)
        ∧ ((op = 3 ∨ op = 4) → v = x.getX (iRs1 w) ∨ ∃ e ∈ l, v = BitVec.ofNat 64 e)
        ∧ (op = 3 → v.toNat ≤ (x.getX (iRs1 w)).toNat ∧ ∀ e ∈ l, v.toNat ≤ (BitVec.ofNat 64 e).toNat)
        ∧ (op = 4 → (x.getX (iRs1 w)).toNat ≤ v.toNat ∧ ∀ e ∈ l, (BitVec.ofNat 64 e).toNat ≤ v.toNat)
        ∧ y.v = x.v ∧ y.p = x.p ∧ y.lvstart = 0 ∧ y.pc = x.pc + 4)
    ∧ (8 ≤ op → 2 ≤ x.sew → (op < 10 → (x.rm 7).isSome = true) → Table.risesFrom 0 x.v = true → ∃ y, exec i s = .next (t.setCore c y)
        ∧ (l = [] → x.sew = 3 → y.getF (iRd w) = x.getF (iRs1 w) % 2 ^ 64)
        ∧ (let f := if x.sew = 3 then fmtFp64 else fmtFp32
            let m := (x.rm 7).getD .rne
            let s0 := if x.sew = 3 then x.getF (iRs1 w) else x.getF32 (iRs1 w)
            let folded (g : Nat → Nat → Nat × Nat) : Nat × Nat :=
              l.foldl (fun a v => ((g a.1 v).1, a.2 ||| (g a.1 v).2)) (s0, 0)
            let tree := coreTree f l.length l
            let r := if op = 8 then folded (coreAdd f m)
              else if op = 9 then (if l = [] then (s0, 0) else ((coreAdd f m s0 tree.1).1, tree.2 ||| (coreAdd f m s0 tree.1).2))
              else folded (coreMinMax f (decide (op = 11)))
            y.getV (iRd w) = (if x.sew = 3 then r.1 % 2 ^ 64 else r.1 % 2 ^ 32 + 0xFFFFFFFF * 2 ^ 32)
            ∧ y.csr.fcsr = x.csr.fcsr ||| r.2 ∧ y.fs = 3)
        ∧ (∀ r, r ≠ iRd w → y.getV r = x.getV r) ∧ y.p = x.p ∧ y.x = x.x ∧ y.lvstart = 0 ∧ y.pc = x.pc + 4))
  ∧ (∀ (f : Fmt) (l : List Nat), 2 ≤ l.length → ∃ k, 2 ^ k < l.length ∧ l.length ≤ 2 * 2 ^ k ∧
      let a := coreTree f (2 ^ k) (l.take (2 ^ k))
      let b := coreTree f (l.length - 2 ^ k) (l.drop (2 ^ k))
      coreTree f l.length l = ((coreAdd f .rne a.1 b.1).1, a.2 ||| b.2 ||| (coreAdd f .rne a.1 b.1).2))
  ∧ (∀ (s t : State) (c w : Nat), AtInstr s t c w 4 → (t.core c).fs ≠ 0 →
    let x := t.core c
    let p1 := x.getP (iRs1 w % 8)
    let p2 := x.getP (iRs2 w % 8)
    let bits (i : Instr) (f : Nat → Bool) : Prop := ∃ y, exec i s = .next (t.setCore c y)
      ∧ (∀ k, k < 1024 → bitOf (y.getP (iRd w % 8)) k = f k) ∧ y.v = x.v ∧ y.x = x.x ∧ y.lvstart = x.lvstart ∧ y.pc = x.pc + 4
    (iRd w % 8 ≠ 0 → Table.risesFrom 0 x.p = true →
      (isPredicate 0 w = true → bits (.pand c) (fun k => bitOf p1 k && bitOf p2 k))
      ∧ (isPredicate 1 w = true → bits (.por c) (fun k => bitOf p1 k || bitOf p2 k))
      ∧ (isPredicate 2 w = true → bits (.pxor c) (fun k => bitOf p1 k ^^ bitOf p2 k))
      ∧ (isPredicate 3 w = true → bits (.pandn c) (fun k => bitOf p1 k && !bitOf p2 k))
      ∧ (isPredicate 4 w = true → bits (.pnot c) (fun k => !bitOf p1 k))
      ∧ (isPredicate 8 w = true → bits (.vtop c) (fun k => bitOf (x.getV (iRs1 w)) k)))
    ∧ (isPredicate 0 w = true → iRd w % 8 = 0 → ∃ y v, exec (.pand c) s = .next (t.setCore c y) ∧ TrapTaken x y false 2 v)
    ∧ (isPredicate 5 w = true → exec (.ppopc c) s = .next (t.setCore c ((x.setX (iRd w)
        (BitVec.ofNat 64 ((List.range x.vl).filter (fun e => bitOf p1 e)).length)).retire 4)))
    ∧ (isPredicate 6 w = true → (∀ e, e < x.vl → bitOf p1 e = false) →
        exec (.pfirst c) s = .next (t.setCore c ((x.setX (iRd w) (BitVec.allOnes 64)).retire 4)))
    ∧ (isPredicate 6 w = true → ∀ e, e < x.vl → bitOf p1 e = true → (∀ d, d < e → bitOf p1 d = false) →
        exec (.pfirst c) s = .next (t.setCore c ((x.setX (iRd w) (BitVec.ofNat 64 e)).retire 4)))
    ∧ (isPredicate 7 w = true → Table.risesFrom 0 x.v = true → ∃ y, exec (.ptov c) s = .next (t.setCore c y)
        ∧ y.getV (iRd w) = p1 % 2 ^ 1024 ∧ y.x = x.x ∧ y.p = x.p ∧ y.pc = x.pc + 4)
    ∧ (isLvcfg w = true → bitsOf w 28 4 = 0 → bitsOf w 20 4 = 0 → Table.risesFrom 0 x.x = true → ∃ y, exec (.lvcfg c) s = .next (t.setCore c y)
        ∧ y.sew = bitsOf w 24 2 ∧ y.group = bitsOf w 26 2
        ∧ y.vl = min (x.getX (iRs1 w)).toNat (1024 * 2 ^ y.group / (8 * 2 ^ y.sew))
        ∧ y.getX (iRd w) = (if iRd w = 0 then 0 else BitVec.ofNat 64 y.vl) ∧ y.lvstart = x.lvstart ∧ y.v = x.v ∧ y.p = x.p
        ∧ y.pc = x.pc + 4)
    ∧ (isLvcfg w = true → bitsOf w 28 4 ≠ 0 → ∃ y v, exec (.lvcfg c) s = .next (t.setCore c y) ∧ TrapTaken x y false 2 v))

/-! ### The Marionette engines -/

namespace Sys2Proof.Machine

/-- No double-bit error lies in the memories of engine `e`. -/
def EngineGood (s : State) (e : Nat) : Prop := ∀ a, engineBase e ≤ a → a < engineBase e + 0x1000000 → s.wrongAt a < 2

/-- Engine `e` may begin the command word `w` of opcode `op`, whose words all lie below word 512. -/
def AtCommand (s : State) (e op w : Nat) : Prop :=
  engineReady s e = true ∧ EngineGood s e ∧ (s.engine e).cmd + commandWords op ≤ 512 ∧ structWord s e (8 * (s.engine e).cmd) = w
    ∧ bitsOf w 56 8 = op

/-- The commands an engine takes from its list, by opcode. -/
def EngineCommand (i : Instr) (e op : Nat) : Prop :=
  (op, i) ∈ [(0, Instr.marNop e), (1, .solve e), (2, .marTwait e), (3, .marHarr e), (4, .marHwait e), (5, .marHarrw e),
    (6, .marCredit e), (7, .copy e), (8, .jump e), (9, .stop e)]

/-- The engine past a command of `words` words, the next beginning `gap` ticks on. -/
def Engine.past (g : Engine) (now words gap : Nat) : Engine := { g with cmd := g.cmd + words, next := now + gap }

/-- No hurdle that the engine takes part in is released in this tick. -/
def EngineUnreleased (s : State) (e : Nat) : Prop := ∀ h, releaseDue h s = true → s.inMap h (640 + e) = false

/-- A far or own run of sectors of a COPY lies in the engine's own memories. -/
def ownRun (e a n : Nat) (glb : Bool) : Prop :=
  glb = false ∧ engineBase e ≤ a ∧ a + 32 * max 1 n ≤ engineBase e + 0x600000

end Sys2Proof.Machine

/-- R326 to R330: what each command but SOLVE does when its turn comes; an undefined opcode, a word past 511 or a set
unused bit stops the engine with CMD_ILLEGAL; HARR and STOP wait for the engine's fence; in the tick of its hurdle's release an
arrival finds the pending bit clear (R117). A COPY within the engine's own memories is done at once, and its credit sent at once (log
entry 24). HARRW with its pending bit set waits as HWAIT does. -/
def Obligations.MarionetteCommandsFollowTheirWords : Prop :=
  ∀ (s : State) (e : Nat), Table.risesFrom 0 s.regs = true → s.memWf = true →
    let g := s.engine e
    let tally1 (w : Nat) : Nat := structWord s e (8 * (g.cmd + w))
    (∀ i op w, EngineCommand i e op → engineReady s e = true → structWord s e (8 * g.cmd) = w →
      (512 ≤ g.cmd ∨ 9 < bitsOf w 56 8 ∨ (AtCommand s e op w ∧ op < 6 ∧ bitsOf w 39 17 ≠ 0)) →
      ∃ u, exec i s = .next u ∧ (u.engine e).state = .stopped ∧ u.bit .marStatus e 11 = true ∧ u.mem = s.mem
        ∧ u.requests = s.requests)
    ∧ (∀ w, AtCommand s e 0 w → bitsOf w 0 56 = 0 → exec (.marNop e) s = .next (s.setEngine e (g.past s.now 1 1)))
    ∧ (∀ w, AtCommand s e 2 w → bitsOf w 39 17 = 0 → bitsOf w 0 31 ≠ 0 →
        exec (.marTwait e) s = .next (s.setEngine e { g with wait := some (.tally (bitsOf w 31 8) (bitsOf w 0 31)) }))
    ∧ (∀ w, AtCommand s e 2 w → bitsOf w 39 17 = 0 → bitsOf w 0 31 = 0 → ∃ u, exec (.marTwait e) s = .next u
        ∧ (u.engine e).wait = none ∧ (u.engine e).cmd = g.cmd + 1 ∧ (u.engine e).next = s.now + 16)
    ∧ (∀ w, AtCommand s e 3 w ∨ AtCommand s e 5 w → bitsOf w 10 46 = 0 → engineFence s e = false →
        exec (if bitsOf w 56 8 = 3 then .marHarr e else .marHarrw e) s = .next s)
    ∧ (∀ w, AtCommand s e 3 w ∨ AtCommand s e 5 w → bitsOf w 10 46 = 0 → engineFence s e = true →
        Table.risesFrom 0 g.pendingH = true →
        (Table.get false g.pendingH (bitsOf w 0 10) = false ∧ EngineUnreleased s e)
          ∨ (releaseDue (bitsOf w 0 10) s = true ∧ s.inMap (bitsOf w 0 10) (640 + e) = true
              ∧ g.early.elem (bitsOf w 0 10) = false) → ∃ u,
        exec (if bitsOf w 56 8 = 3 then .marHarr e else .marHarrw e) s = .next u
          ∧ (u.engine e).wait = some (.arrive (bitsOf w 0 10) (decide (bitsOf w 56 8 = 5)))
          ∧ (sentSince s u).map (fun r => (r.ep, r.pkt.opcode, r.pkt.tally)) = [(624 + e, opARRIVE, bitsOf w 0 10)])
    ∧ (∀ w, AtCommand s e 3 w → bitsOf w 10 46 = 0 → engineFence s e = true →
        Table.get false g.pendingH (bitsOf w 0 10) = true → EngineUnreleased s e → ∃ u, exec (.marHarr e) s = .next u
          ∧ u.engine e = g.past s.now 1 1 ∧ u.bit .marStatus e 10 = true ∧ u.requests = s.requests)
    ∧ (∀ w, AtCommand s e 5 w → bitsOf w 10 46 = 0 → engineFence s e = true →
        Table.get false g.pendingH (bitsOf w 0 10) = true → EngineUnreleased s e → ∃ u, exec (.marHarrw e) s = .next u
          ∧ (u.engine e).wait = some (.hurdle (bitsOf w 0 10)) ∧ u.bit .marStatus e 10 = true ∧ u.requests = s.requests ∧ u.mem = s.mem)
    ∧ (∀ w, AtCommand s e 4 w → bitsOf w 10 46 = 0 → EngineUnreleased s e → exec (.marHwait e) s = .next (s.setEngine e
        (if Table.get false g.pendingH (bitsOf w 0 10) then { g with wait := some (.hurdle (bitsOf w 0 10)) }
         else g.past s.now 1 16)))
    ∧ (∀ w, AtCommand s e 6 w → bitsOf w 0 56 = 0 → legalTally (tally1 1) = true → ∃ u, exec (.marCredit e) s = .next u
        ∧ u.engine e = g.past s.now 2 1
        ∧ (sentSince s u).map (fun r => (r.pkt.opcode, r.pkt.tally, r.pkt.credit, r.pkt.terr)) =
            if carriesCredit (tally1 1) then [(opCREDIT, bitsOf (tally1 1) 29 17, bitsOf (tally1 1) 0 16, false)] else [])
    ∧ (∀ w, AtCommand s e 7 w → bitsOf w 18 38 = 0 → legalTally (tally1 3) = true →
        let n := bitsOf w 0 16
        let src := tally1 1
        let dst := tally1 2
        let credit (u : State) : Prop := (sentSince s u).map (fun r => (r.pkt.opcode, r.pkt.credit)) =
          if carriesCredit (tally1 3) then [(opCREDIT, bitsOf (tally1 3) 0 16)] else []
        (src % 32 ≠ 0 ∨ dst % 32 ≠ 0 ∨ (¬ ownRun e src n (bitOf w 16) ∧ ¬ ownRun e dst n (bitOf w 17)) →
          ∃ u, exec (.copy e) s = .next u ∧ (u.engine e).state = .stopped ∧ u.bit .marStatus e 11 = true)
        ∧ (src % 32 = 0 → dst % 32 = 0 → n = 0 → (ownRun e src n (bitOf w 16) ∨ ownRun e dst n (bitOf w 17)) → ∃ u,
          exec (.copy e) s = .next u ∧ (u.engine e).cmd = g.cmd + 4 ∧ u.mem = s.mem ∧ credit u)
        ∧ (src % 32 = 0 → dst % 32 = 0 → ownRun e src n (bitOf w 16) → ownRun e dst n (bitOf w 17) → ∃ u,
          exec (.copy e) s = .next u ∧ (u.engine e).cmd = g.cmd + 4 ∧ u.readMem dst (32 * n) = s.readMem src (32 * n)
            ∧ (∀ a, a < dst ∨ dst + 32 * n ≤ a → u.readMem a 1 = s.readMem a 1) ∧ credit u)
        ∧ (src % 32 = 0 → dst % 32 = 0 → n ≠ 0 → ownRun e src n (bitOf w 16) → ¬ ownRun e dst n (bitOf w 17) → ∃ u,
          exec (.copy e) s = .next u ∧ u.mem = s.mem
            ∧ (sentSince s u).flatMap (fun r => r.pkt.data) = s.readMem src (32 * n)
            ∧ (sentSince s u).map (fun r => (r.pkt.offset, r.pkt.nsect)) =
                (pieces dst n).map (fun p => (farOffset ⟨dst, bitOf w 17⟩ p.1, p.2))
            ∧ ∀ r ∈ sentSince s u, r.pkt.opcode = opWR ∧ r.ep = 624 + e
              ∧ r.pkt.dstNode = (if bitOf w 17 = true then globalNode dst else s.nodeId)
              ∧ (bitOf w 17 = true → r.pkt.window = globalWindow dst))
        ∧ (src % 32 = 0 → dst % 32 = 0 → n ≠ 0 → ¬ ownRun e src n (bitOf w 16) → ownRun e dst n (bitOf w 17) → ∃ u,
          exec (.copy e) s = .next u ∧ u.mem = s.mem ∧ ((sentSince s u).map (fun r => r.pkt.nsect)).sum = n
            ∧ (sentSince s u).map (fun r => (r.pkt.offset, r.pkt.nsect)) =
                (pieces src n).map (fun p => (farOffset ⟨src, bitOf w 16⟩ p.1, p.2))
            ∧ ∀ r ∈ sentSince s u, r.pkt.opcode = opRD ∧ r.ep = 624 + e
              ∧ r.pkt.dstNode = (if bitOf w 16 = true then globalNode src else s.nodeId)
              ∧ (bitOf w 16 = true → r.pkt.window = globalWindow src)))
    ∧ (∀ w, AtCommand s e 8 w → bitsOf w 9 47 = 0 → exec (.jump e) s = .next (s.setEngine e { g with cmd := bitsOf w 0 9 }))
    ∧ (∀ w, AtCommand s e 9 w → bitsOf w 0 56 = 0 → engineFence s e = false → exec (.stop e) s = .next s)
    ∧ (∀ w, AtCommand s e 9 w → bitsOf w 0 56 = 0 → engineFence s e = true → Table.risesFrom 0 s.engines = true → ∃ u,
        exec (.stop e) s = .next u ∧ (u.engine e).state = .idle ∧ u.bit .marStatus e 12 = true ∧ u.mem = s.mem
        ∧ u.requests = s.requests)

/-- R316, R318, R322 to R325, R332: a SOLVE of a valid descriptor takes 256 + 24 J + 6 R P + 48 T I + 2 D ticks and
changes, while it runs, only the engine's structure memory (by its delta list); one of an invalid descriptor sets SYS_BAD,
writes nothing and ends, after 256 ticks, with the credit's error bit. FINISH writes the status word, counts the solve and
sends the output, whose credit waits for it. LATE is recorded once, when the step phase has reached the deadline, with the phase
of the solve in that tick, or BEFORE where the deadline had passed as it started. A RESULT word with TMODE = 3 stops the engine
with CMD_ILLEGAL (log entry 24). -/
def Obligations.SolvesTakeTheirTicksAndFinish : Prop :=
  ∀ (s : State) (e : Nat), Table.risesFrom 0 s.regs = true → s.memWf = true →
    let g := s.engine e
    (∀ w, AtCommand s e 1 w → bitsOf w 6 50 = 0 →
      let d := descriptor s e (bitsOf w 0 6)
      let entries := if deltaListBad s e d then 0 else deltaCount s e d
      (descBad d = false → bitsOf (dResult d) 62 2 ≠ 3 → ∃ u r, exec (.solve e) s = .next u
        ∧ (u.engine e).solve = some r ∧ r.start = s.now ∧ r.bad = false ∧ r.deadline = dDeadline d
        ∧ (dDeadline d = 0 ∨ s.phase < dDeadline d → r.late = none)
        ∧ (dDeadline d ≠ 0 → dDeadline d < s.phase → r.late = some (0, 0, 0))
        ∧ r.len = 256 + 24 * dJoints d + 6 * dRows d * dPgs d + 48 * dTargets d * dIk d + 2 * entries
        ∧ (u.engine e).cmd = g.cmd ∧ u.requests = s.requests ∧ u.tallies = s.tallies
        ∧ (deltaListBad s e d = true → u.mem = s.mem)
        ∧ (∀ a, a < engineBase e ∨ engineBase e + 0x200000 ≤ a → u.readMem a 1 = s.readMem a 1))
      ∧ (bitsOf (dResult d) 62 2 = 3 → ∃ u, exec (.solve e) s = .next u ∧ (u.engine e).state = .stopped
        ∧ u.bit .marStatus e 11 = true ∧ u.mem = s.mem ∧ u.requests = s.requests)
      ∧ (descBad d = true → bitsOf (dResult d) 62 2 ≠ 3 → ∃ u r, exec (.solve e) s = .next u ∧ (u.engine e).solve = some r ∧ r.bad = true
        ∧ r.len = 256 ∧ u.bit .marStatus e 6 = true ∧ u.mem = s.mem ∧ u.requests = s.requests))
    ∧ (∀ r, g.solve = some r → s.now + 1 < r.start + r.len → exec (.solveFinish e) s = .next s)
    ∧ (∀ r, solveEnding s e = some r → r.bad = true → ∃ u, exec (.solveFinish e) s = .next u
        ∧ (u.engine e).solve = none ∧ (u.engine e).cmd = g.cmd + 1 ∧ (u.engine e).next = s.now + 1 ∧ u.mem = s.mem
        ∧ (sentSince s u).map (fun q => (q.pkt.opcode, q.pkt.terr)) =
            if carriesCredit r.tally then [(opCREDIT, true)] else [])
    ∧ (∀ r, solveEnding s e = some r → r.bad = false → r.flags < 32 → r.flags % 2 = 0 → ∃ (u : State) (word : Nat),
        exec (.solveFinish e) s = .next u
        ∧ (u.engine e).solve = none ∧ (u.engine e).cmd = g.cmd + 1 ∧ (u.engine e).next = s.now + 1
        ∧ u.getReg (regAddr .marSolves e) = s.getReg (regAddr .marSolves e) + 1
        ∧ u.readMem r.statusAt 8 = bytesOf 8 word ∧ word % 32 = r.flags + (if bitOf word 0 then 1 else 0)
        ∧ bitOf word 0 = (r.late.isSome || (lateRecord s r).isSome)
        ∧ (r.output = none → (sentSince s u).map (fun q => (q.pkt.opcode, q.pkt.terr)) =
            if carriesCredit r.tally then [(opCREDIT, false)] else [])
        ∧ (∀ a glb b, r.output = some (a, glb, b) → b.length % 32 = 0 → b.length ≤ 65536 →
            (sentSince s u).flatMap (fun q => q.pkt.data) = b ∧ (∀ q ∈ sentSince s u, q.pkt.opcode = opWR ∧ q.ep = 624 + e)
            ∧ ∃ rw, (u.engine e).results = g.results ++ [rw] ∧ rw.tally = r.tally ∧ rw.left = (sentSince s u).length))
    ∧ (∀ r, engineOn s e = true → g.solve = some r →
        (r.late.isSome = true ∨ r.deadline = 0 ∨ s.phase < r.deadline → exec (.marLate e) s = .next (s.setEngine e g))
        ∧ (r.late = none → r.bad = false → r.deadline ≠ 0 → r.deadline ≤ s.phase → ∃ l,
            exec (.marLate e) s = .next (s.setEngine e { g with solve := some { r with late := some l } })
            ∧ l = if s.now = r.start ∧ r.deadline < s.phase then (0, 0, 0)
                else (phaseAt r.phases (s.now - r.start), progressAt r (s.now - r.start))))

/-! ### Checkpoints, launch images and restores -/

/-- R206, R221, R353 to R355: an SNWR stores its sectors whatever the snapshot bitmap says, and one that covers a whole
piece of the launch area through the launch window marks that piece, and no other; a LAUNCH commit clears the held map; a
SEND of chunks not held is kept for later, one of a held chunk sends its 64 KiB to the child, as CKP reads them, or, where its reads
must wait (R214, R218), once they need not; an image without progress for its limit stalls, with STALL set, while a chunk is missing. -/
def Obligations.SnapshotWritesFillTheLaunchImage : Prop :=
  (∀ (s : State) (n : Nat) (a : Arrival), Serves s n opSNWR a → a.pkt.narrow = false → a.pkt.poison = [] →
    reserveDenied s a.pkt = false → heldBy s a.ep a.pkt.offset a.pkt.nsect = true → a.pkt.offset < 0x8000000000 →
    NoDirtyLine s a.pkt.offset a.pkt.nsect → (∀ i, i < a.pkt.nsect → s.pcPenned (s.pcOf (a.pkt.offset + 32 * i)).1 = false) →
    let p := a.pkt
    let off := p.offset - launchArea s
    let k := off / 0x10000
    let m := Table.get 0 s.ckp.pieces k ||| 2 ^ (off % 0x10000 / 1024)
    let launchWrite := a.via.isSome = true ∧ p.window = launchWindow s ∧ p.nsect = 32 ∧ p.offset % 1024 = 0
      ∧ s.ckp.launching = true ∧ launchArea s ≤ p.offset ∧ off % 1024 = 0 ∧ k < launchChunks s ∧ s.chunkHeld k = false
    (¬ launchWrite → ∃ v, exec (.snwr n) s = .next (acknowledge a v) ∧ v.mem = Memory.write 0 s.mem p.offset p.data
        ∧ v = { taken n s with mem := v.mem, poison := v.poison, wrong := v.wrong })
    ∧ (launchWrite → m ≠ 2 ^ 64 - 1 → ∃ v, exec (.snwr n) s = .next (acknowledge a v)
        ∧ v.mem = Memory.write 0 s.mem p.offset p.data
        ∧ v = { taken n s with mem := v.mem, poison := v.poison, wrong := v.wrong, ckp := { s.ckp with pieces := Table.set 0 s.ckp.pieces k m } }))
  ∧ ∀ (s : State) (src : Requester) (v : Word), mayAddress src = true → Table.risesFrom 0 s.regs = true →
    CommitsAtOnce (.ckpLaunchCommit src v) .ckpLaunchCommit 0 0 2 launchAddrs
        (decide (65536 < bitsOf (s.getShadow (regAddr .ckpLaunchCfg)).toNat 0 17)) v s
    ∧ (bitOf v.toNat 0 = true → bitsOf (s.getShadow (regAddr .ckpLaunchCfg)).toNat 0 17 ≤ 65536 → ∃ u,
        exec (.ckpLaunchCommit src v) s = .next u ∧ u.ckp.pieces = [] ∧ u.ckp.sends = []
        ∧ u.ckp.launching = decide (launchChunks u ≠ 0))
    ∧ (let child := bitsOf v.toNat 0 3
       let first := bitsOf v.toNat 3 17
       let count := bitsOf v.toNat 20 17
       (count = 0 → s.ckp.relays = [] → exec (.ckpLaunchSend src v) s = .next (s.answered 0 0))
       ∧ (count ≠ 0 → s.ckp.relays = [] → (∀ i, i < count → s.chunkHeld (first + i) = false) → exec (.ckpLaunchSend src v) s = .next
           { s.answered 0 0 with ckp := { s.ckp with sends := s.ckp.sends ++ [⟨child, first, count⟩] } })
       ∧ (count = 1 → s.ckp.relays = [] → s.chunkHeld first = true → launchChild s child ≠ 0 →
           let at_ := launchArea s + 0x10000 * first
           (snapWaits s at_ 2048 = false → ∃ u, exec (.ckpLaunchSend src v) s = .next u
             ∧ (sentSince s u).flatMap (fun r => r.pkt.data) = (readPieces at_ 64 s).1
             ∧ (∀ r ∈ sentSince s u, r.pkt.opcode = opSNWR ∧ r.ep = 658 ∧ r.purpose = .ckpRelay child first)
             ∧ u.mem = (readPieces at_ 64 s).2.mem ∧ u.ckp.relays = [])
           ∧ (snapWaits s at_ 2048 = true → exec (.ckpLaunchSend src v) s = .next { s.answered 0 0 with
               ckp := { s.ckp with relays := [(child, first)], sends := s.ckp.sends ++ [⟨child, first, 1⟩] } })))
    ∧ (s.akm.frozen = false → s.ckp.launching = true → imageWhole s = false → s.ckp.progressAt + chunkTmo s ≤ s.now → ∃ u,
        exec .launchStall s = .next u ∧ u.bit .ckpLaunchStatus 0 2 = true ∧ u.ckp.progressAt = s.now ∧ u.mem = s.mem)
    ∧ (s.ckp.launching = false ∨ imageWhole s = true ∨ s.now < s.ckp.progressAt + chunkTmo s → exec .launchStall s = .next s)

/-- R336 to R345: once the started host messages have completed and the cores' lines are back, the eager copy marks the pages of
the scope and begins the fleece of its step, with the job, epoch, scope and destinations of the committed policy, and lets the
agents go on unless HOLD; all this, and every read and copy of CKP, waits while its stack calibrates or a request goes before it (R214, R218); a
requested page is copied to the reserve as CKP reads it, and its bit clears and its held writes go
on; with the reserve full it keeps its bit and goes to the destinations next; a copy request comes before shearing, which first
zeroes the old seal, then sends pages in ascending order with their CRC. -/
def Obligations.CutsKeepAndShearTheirPages : Prop :=
  ∀ s : State, s.akm.frozen = false → s.memWf = true →
    (∀ c, s.ckp.quiesce = some c → s.hec.execs = [] → anyCleaning s = false → snapBusy s = false → s.wrong = [] →
      (∀ d ∈ policyDests s, slotUnits (s.scopePages.length + (statePages s).length) ≤ d.size) → ∃ u f,
        exec .eagerCopyComplete s = .next u ∧ u.ckp.fleece = some f ∧ f.step = c ∧ f.jid = s.jid
        ∧ f.epoch = s.field .ckpEpoch 0 0 0 32 ∧ f.scopePages = s.scopePages ∧ f.statePages = (statePages s).length
        ∧ f.dests = policyDests s ∧ f.nextPage = 0 ∧ u.ckp.quiesce = none ∧ u.hec.held = false
        ∧ u.snap = s.scopePages.map (fun p => (p, true))
        ∧ (s.bit .ckpCutCfg 0 22 = true → u.tiles = s.tiles ∧ u.cores = s.cores ∧ u.engines = s.engines)
        ∧ (s.bit .ckpCutCfg 0 22 = false → (∀ t, (u.tile t).held = false) ∧ (∀ k, (u.core k).paused = false)
            ∧ ∀ k, (u.engine k).paused = false)
        ∧ (∀ a, a < s.reservePage 0 → u.readMem a 1 = s.readMem a 1))
    ∧ (s.ckp.quiesce = none ∨ s.hec.execs ≠ [] ∨ anyCleaning s = true ∨ snapBusy s = true → exec .eagerCopyComplete s = .next s)
    ∧ (∀ page f, s.ckp.copyRequests.elem page = true → s.ckp.fleece = some f → s.marked page = true →
        Table.risesFrom 0 s.snap = true → Table.risesFrom 0 f.copied = true →
        (f.reserveUsed < s.reservePages → copyWaits s f page = true → exec (.pageCopyOut page) s = .next s)
        ∧ (f.reserveUsed < s.reservePages → copyWaits s f page = false → (∀ i, i < 2048 → s.wrongAt (page * 0x10000 + 32 * i) = 0) →
          (∀ i, i < 2048 → s.pcPenned (s.pcOf (s.reservePage f.reserveUsed + 32 * i)).1 = false) →
          ∃ u f', exec (.pageCopyOut page) s = .next u ∧ u.ckp.fleece = some f' ∧ u.ckp.copyRequests.elem page = false
          ∧ u.marked page = false ∧ (∀ q, q ≠ page → u.marked q = s.marked q)
          ∧ u.readMem (s.reservePage f.reserveUsed) 0x10000 = (readPieces (page * 0x10000) 64 s).1
          ∧ Table.get none f'.copied page = some f.reserveUsed ∧ f'.reserveUsed = f.reserveUsed + 1
          ∧ ((∀ h ∈ s.heldWrites, h.arr.pkt.offset / 0x10000 = page) → s.heldWrites.length + s.delivered.length ≤ 255 →
              u.heldWrites = [] ∧ u.delivered = s.heldWrites.map (fun h => h.arr) ++ s.delivered))
        ∧ (s.reservePages ≤ f.reserveUsed → ∃ u f', exec (.pageCopyOut page) s = .next u ∧ u.ckp.fleece = some f'
          ∧ f' = { f with urgent := f'.urgent } ∧ page ∈ f'.urgent ∧ u.snap = s.snap ∧ u.mem = s.mem
          ∧ u.heldWrites = s.heldWrites))
    ∧ (∀ page, (∀ i, i < 2048 → s.wrongAt (page * 0x10000 + 32 * i) = 0 ∧ s.poisoned (page * 0x10000 + 32 * i) = false
          ∧ s.pcPenned (s.pcOf (page * 0x10000 + 32 * i)).1 = false) →
        readPieces (page * 0x10000) 64 s = (s.readMem (page * 0x10000) 0x10000, s))
    ∧ (s.ckp.fleece = none → exec .shearPage s = .next s)
    ∧ (∀ f page rest, s.ckp.fleece = some f → s.ckp.copyRequests = page :: rest → exec .shearPage s = exec (.pageCopyOut page) s)
    ∧ (s.ckp.copyRequests = [] →
      (∀ f d, s.ckp.fleece = some f → f.live = [d] → d.stage = 0 → d.kind = 1 → ∃ u, exec .shearPage s = .next u
        ∧ (sentSince s u).flatMap (fun r => r.pkt.data) = zeros 1024
        ∧ (∀ r ∈ sentSince s u, r.pkt.opcode = opSNWR ∧ r.ep = 658) ∧ u.mem = s.mem)
      ∧ (∀ f d, s.ckp.fleece = some f → f.live = [d] → d.stage = 1 → f.destAwaits d.d = true → exec .shearPage s = .next s)
      ∧ (∀ f d, s.ckp.fleece = some f → f.live = [d] → d.stage = 2 → d.kind = 1 → directWaiting f = none →
        f.nextPage < f.pageCount → Table.get none f.crcs f.nextPage = none → Table.risesFrom 0 f.crcs = true →
        (s.now < s.ckp.shearAt ∨ fleeceWaits s f f.nextPage = true → exec .shearPage s = .next s)
        ∧ (s.ckp.shearAt ≤ s.now → fleeceWaits s f f.nextPage = false → s.wrong = [] → let b := (fleecePage s f f.nextPage).1
          b.length % 32 = 0 → ∃ u f', exec .shearPage s = .next u
            ∧ u.ckp.fleece = some f' ∧ f'.nextPage = f.nextPage + 1 ∧ Table.get none f'.crcs f.nextPage = some (crc64 b)
            ∧ (sentSince s u).flatMap (fun r => r.pkt.data) = b
            ∧ (∀ r ∈ sentSince s u, r.pkt.opcode = opSNWR) ∧ u.mem = s.mem)))

/-- R346 to R350: a RESTORE is rejected while a hurdle is armed or the JIDs differ; else every tile, core and engine
stops, any fleece is abandoned and the list is held; it waits while requests of the job are outstanding; a failure ends it
with STATE 3 and its code and entry; a success clears every tag and sets SYN_STEP to the list's STEP. A GO while one runs
does nothing (log entry 27). `m` is the node after the read of the list, `b` the list as CKP reads it (R208, R210, R211). What a cut's page of a tile, core or engine holds is read back as it was (its layout: log
entry 46). -/
def Obligations.RestoresStopCheckAndFinish : Prop :=
  ∀ (s : State) (src : Requester) (v : Word), mayAddress src = true → Table.risesFrom 0 s.regs = true →
    Table.risesFrom 0 s.tiles = true → Table.risesFrom 0 s.cores = true → Table.risesFrom 0 s.engines = true →
    let a := s.field .ckpRestore 0 0 0 48
    let list := readOwn a (32 + 32 * Nat.min 4096 (listCount (readOwn a 32 s).1)) s
    let b := list.1
    let m := list.2
    let ctl (u : State) : Nat := (u.getReg (regAddr .ckpRestoreCtl)).toNat
    (bitOf v.toNat 0 = false ∨ s.ckp.restore.isSome = true → exec (.restoreJob src v) s = .next (s.answered 0 0))
    ∧ (bitOf v.toNat 0 = true → s.ckp.restore = none → (m.anyArmed = true ∨ listJid b ≠ m.jid) →
        Table.risesFrom 0 m.regs = true → ∃ u,
        exec (.restoreJob src v) s = .next u ∧ bitOf (ctl u) 1 = true ∧ u = { m.answered 0 0 with regs := u.regs })
    ∧ (bitOf v.toNat 0 = true → s.ckp.restore = none → m.anyArmed = false → listJid b = m.jid → Table.risesFrom 0 m.regs = true →
        Table.risesFrom 0 m.tiles = true → Table.risesFrom 0 m.cores = true → Table.risesFrom 0 m.engines = true → ∃ u r,
        exec (.restoreJob src v) s = .next u ∧ ctl u = 4 ∧ u.ckp.restore = some r ∧ r.bytes = b ∧ r.fail = none
        ∧ u.ckp.fleece = none ∧ (∀ t, (u.tile t).state = if (m.tile t).state = .halted then .halted else .idle)
        ∧ (∀ c, (u.core c).held = true) ∧ (∀ e, (u.engine e).state ≠ .running) ∧ u.mem = m.mem)
    ∧ (∀ p n, (∀ i, i < (n + 31) / 32 → s.wrongAt (p + 32 * i) = 0 ∧ s.poisoned (p + 32 * i) = false
          ∧ s.pcPenned (s.pcOf (p + 32 * i)).1 = false) → p + n ≤ 0x7F00000000 → p % 1024 = 0 → readOwn p n s = (s.readMem p n, s))
    ∧ (s.ckp.restore = none → exec .restoreComplete s = .next s)
    ∧ (∀ r, s.ckp.restore = some r → s.akm.frozen = false →
        (∀ code entry, r.fail = some (code, entry) → code < 16 → ∃ u, exec .restoreComplete s = .next u
          ∧ u.ckp.restore = none ∧ ctl u = 12 + code * 2 ^ 4 + entry % 2 ^ 12 * 2 ^ 8 ∧ u.mem = s.mem
          ∧ (8 ≤ code → u.ckp.blocked = true))
        ∧ (r.fail = none → r.finished = true → ∃ u, exec .restoreComplete s = .next u ∧ u.ckp.restore = none
          ∧ ctl u = 8 ∧ u.getReg (regAddr .synStep) = BitVec.ofNat 64 (listStep r.bytes) ∧ (∀ t, (u.tile t).tags = [])
          ∧ u.ckp.restored = true)
        ∧ (r.fail = none → r.finished = false → (r.reading.isSome = true ∨ jobOutstanding s = true) →
          exec .restoreComplete s = .next s)
        ∧ (r.fail = none → r.finished = false → r.reading = none → jobOutstanding s = false → s.awaits isRestoreRead = false →
          ∀ e, structureFault s a r.bytes = some e → ∃ u r', exec .restoreComplete s = .next u ∧ u.ckp.restore = some r'
            ∧ r'.fail = some (1, e) ∧ u.mem = s.mem ∧ u.requests = s.requests))
    ∧ (∀ (x : Tile) l w, (Codec.tilePage.put (x.kept, l, w)).length ≤ pageSize →
        Codec.tilePage.read Config.tileOfPage (onePage (Codec.tilePage.put (x.kept, l, w))) = (x.kept, l, w))
    ∧ (∀ (x : Core) l, (Codec.corePage.put (x.kept, l)).length ≤ pageSize →
        Codec.corePage.read Config.coreOfPage (onePage (Codec.corePage.put (x.kept, l))) = (x.kept, l))
    ∧ (∀ (x : Engine) l, (Codec.enginePage.put (x.kept, l)).length ≤ pageSize →
        Codec.enginePage.read Config.engineOfPage (onePage (Codec.enginePage.put (x.kept, l))) = (x.kept, l))

/-! ### The host: Crook and Ethernet -/

namespace Sys2Proof.Machine

/-- The DATA datagram in which a session sends a payload next. -/
def Session.says (x : Session) (s : State) (payload : List Byte) : EthOut :=
  .datagram x.link (s.linkSettings x.link) (x.datagram 0x10 x.seq payload)

/-- An ACK datagram of a session, carrying a SEQ. -/
def Session.acks (x : Session) (s : State) (seq : Nat) : EthOut :=
  .datagram x.link (s.linkSettings x.link) (x.datagram 0x11 seq [])

/-- The DATA datagram that carries a message's RESULT. -/
def Session.result (x : Session) (s : State) (m : Message) (status code : Nat) : EthOut :=
  x.says s (hostMessage 0x81 m.tag 0 (status + 256 * code) [])

/-- A message of the table heads a queue of an open session, and the session can send two payloads at once. -/
def MessageAt (s : State) (slot q : Nat) (x : Session) (m : Message) (rest : List Message) : Prop :=
  s.session slot = some x ∧ Table.get [] x.queues q = m :: rest ∧ slot < 16
    ∧ Table.risesFrom 0 s.hec.sessions = true ∧ Table.risesFrom 0 x.queues = true ∧ Table.risesFrom 0 s.hec.execs = true
    ∧ x.unacked.length + 2 ≤ 256 ∧ x.seq + 2 < 2 ^ 32

/-- The message has left its queue. -/
def MessageTaken (u : State) (slot q : Nat) (rest : List Message) : Prop :=
  ∃ y, u.session slot = some y ∧ Table.get [] y.queues q = rest

/-- The message executes: it has left its queue, and nothing has been answered. -/
def MessageRuns (s u : State) (slot q left : Nat) (x : Session) (m : Message) (rest : List Message) : Prop :=
  MessageTaken u slot q rest ∧ u.hec.out = s.hec.out ∧ u.mem = s.mem
    ∧ u.exec? s.hec.nextExec = some { num := x.num, slot := slot, msg := m, left := left }

/-- The commands of the messages, by their operations. -/
def MessageCommand (c : Instr) (op slot q : Nat) : Prop :=
  (c, op) ∈ [(Instr.readMsg slot q, 0x01), (.writeMsg slot q, 0x02), (.regrd slot q, 0x03), (.regwr slot q, 0x04),
    (.crookCredit slot q, 0x05), (.doorbell slot q, 0x06), (.launchMsg slot q, 0x07), (.dumpRead slot q, 0x08),
    (.flashRead slot q, 0x09), (.flashErase slot q, 0x0A), (.flashProgram slot q, 0x0B), (.crookResetMsg slot q, 0x0C),
    (.shearAck slot q, 0x0D), (.eventSink slot q, 0x0E)]

/-- The commands of the datagrams, by their types. -/
def DatagramCommand (c : Instr) (type k : Nat) (dg : List Byte) : Prop :=
  (c, type) ∈ [(Instr.init k dg, 0x01), (.finishMsg k dg, 0x03), (.close k dg, 0x04), (.dataMsg k dg, 0x10), (.crookAck k dg, 0x11)]

end Sys2Proof.Machine

/-- R364, R395, R400 to R403: a whole INIT of an allowed host takes the next session number and asks for its REPLY's
signature; a FINISH that verifies opens the session in the lowest free slot with keys derived from the transcript; a CLOSE
with a valid tag, of one fragment or of several, ends it; what fails a check is counted or discarded; a handshake ends 1 s after its start,
a session IDLE_TMO after its last datagram. A datagram that comes by its own command while others wait in its link's buffer goes
behind them (R359, log entry 50). -/
def Obligations.HandshakesOpenAndCloseSessions : Prop :=
  ∀ (s : State) (k : Nat) (dg : List Byte), Table.risesFrom 0 s.hec.sessions = true → Table.risesFrom 0 s.regs = true →
    (crookOn s k = false → ∀ c type, DatagramCommand c type k dg → exec c s = .next s)
    ∧ (crookOn s k = true → Table.get [] s.hec.rx k ≠ [] → ∀ c type, DatagramCommand c type k dg →
        exec c s = .next (bufferDatagram k dg s))
    ∧ (parseHead s 0 dg = none → Table.get [] s.hec.rx k = [] → ∀ c ∈ [Instr.init k dg, .finishMsg k dg, .close k dg], exec c s = .next s)
    ∧ (∀ head i count hid b, crookOn s k = true → Table.get [] s.hec.rx k = [] → parseHead s 0 dg = some head → fragmentOf dg = some (i, count, hid, b) →
      (head.num ≠ 0 → exec (.init k dg) s = .next s)
      ∧ (head.num = 0 → (16 ≤ s.hec.sessions.length ∨ 0xFFFFFFFF ≤ s.hec.lastNum) → exec (.init k dg) s = .next (authFail s))
      ∧ (head.num = 0 → s.hec.sessions.length < 16 → s.hec.lastNum < 0xFFFFFFFF → s.aks.identity = none →
          exec (.init k dg) s = .next s)
      ∧ (head.num = 0 → s.hec.sessions.length < 16 → s.hec.lastNum < 0xFFFFFFFF → s.aks.identity.isSome = true →
          handshakeOf s k hid = none →
          (1 < count → ∃ u h, exec (.init k dg) s = .next u ∧ handshakeOf u k hid = some h ∧ h.initFrags = [(i, b)]
            ∧ h.startAt = s.now ∧ h.num = 0 ∧ u.hec.lastNum = s.hec.lastNum ∧ u.aks = s.aks)
          ∧ (count = 1 → initKey s b = none → exec (.init k dg) s = .next (authFail s))
          ∧ (∀ key, count = 1 → initKey s b = some key → ∃ u h, exec (.init k dg) s = .next u
            ∧ u.hec.lastNum = s.hec.lastNum + 1 ∧ handshakeOf u k hid = some h ∧ h.num = s.hec.lastNum + 1 ∧ h.init = b
            ∧ h.hostKey = key ∧ h.reply = none ∧ h.startAt = s.now
            ∧ (s.now, linkEp k, SignFor.reply k hid, sha512 (b ++ h.draft)) ∈ u.aks.signing
            ∧ u.hec.sessions = s.hec.sessions ∧ u.mem = s.mem ∧ u.regs = s.regs))
      ∧ (handshakeOf s k hid = none → exec (.finishMsg k dg) s = .next s)
      ∧ (∀ h r, handshakeOf s k hid = some h → h.reply = some r → head.num = h.num → count = 1 → h.finFrags = [] →
          ((finishSecret s h r b = none ∨ freeSlot s = none) →
            exec (.finishMsg k dg) s = .next (authFail (setHandshake h s)))
          ∧ (∀ sh slot, finishSecret s h r b = some sh → freeSlot s = some slot → ∃ u x, exec (.finishMsg k dg) s = .next u
            ∧ u.session slot = some x ∧ x.num = h.num ∧ x.link = k ∧ x.secret = sh ++ h.sn
            ∧ x.hostKey ++ x.nodeKey
                = (hmac512 (sh ++ h.sn) (ascii "crook" ++ sha512 (h.init ++ r ++ b))).take 64
            ∧ x.ackn = 0 ∧ x.seq = 0 ∧ x.early = [] ∧ x.unacked = [] ∧ x.queues = [] ∧ x.heardAt = s.now
            ∧ handshakeOf u k hid = none ∧ (∀ j, j ≠ slot → u.session j = s.session j) ∧ u.regs = s.regs ∧ u.mem = s.mem))
      ∧ (slotOf s k head.num = none → exec (.close k dg) s = .next s)
      ∧ (∀ slot x, slotOf s k head.num = some slot → s.session slot = some x → i = 0 → count = 1 →
          exec (.close k dg) s
            = .next (if b = bytesOf 4 x.num ++ x.closeTag 0 then endSession slot s else authFail s))
      ∧ (∀ slot x, slotOf s k head.num = some slot → s.session slot = some x → count = 2 →
          (x.closing.1 ≠ hid ∨ x.closing.2 = [] → ∃ u, exec (.close k dg) s = .next u
            ∧ u.session slot = some { x with closing := (hid, [(i, b)]) } ∧ u = { s with hec := u.hec })
          ∧ (∀ first, i = 1 → x.closing = (hid, [(0, first)]) → first ++ b = bytesOf 4 x.num ++ x.closeTag 0 →
            exec (.close k dg) s = .next (endSession slot s))))
    ∧ (∀ slot x, s.session slot = some x →
        exec (.sessionIdleTimeout slot) s = .next (if x.heardAt + s.idleTmo ≤ s.now then endSession slot s else s)
        ∧ (s.hec.shears = [] → (endSession slot s).session slot = none
          ∧ (∀ j, j ≠ slot → (endSession slot s).session j = s.session j)
          ∧ (endSession slot s).sink = (if s.sink = some slot then none else s.sink) ∧ (endSession slot s).mem = s.mem))
    ∧ (∀ slot, s.session slot = none → exec (.sessionIdleTimeout slot) s = .next s)
    ∧ (∀ n h, s.hec.handshakes[n]? = some h → exec (.handshakeTimeout n) s
        = .next (if h.startAt + ticksPerSecond ≤ s.now then dropHandshake h.link h.hid s else s))
    ∧ (∀ n, s.hec.handshakes[n]? = none → exec (.handshakeTimeout n) s = .next s)

/-- R356 to R358, R365: an Ethernet link of a mode comes up from P5 on; one that goes down ends its sessions and
handshakes; of the frames, those for another station or outside the link's VLAN are discarded, an ARP request for an address of
the link is answered. R359: a UDP datagram to the Crook port enters its link's receive buffer of 16 MiB, or is discarded and
counted in RX_DROP where that is full; the oldest datagram of a buffer is taken as the command of its type is (log entry 50, which also
reads that a frame with another tag, with none where the image names a VLAN, or with one where it names none, is discarded). -/
def Obligations.EthernetLinksAndFrames : Prop :=
  ∀ (s : State) (k : Nat), k < 4 → Table.risesFrom 0 s.regs = true → Table.risesFrom 0 s.hec.sessions = true →
    (s.field .hecLinkStatus k 0 1 2 ≠ 0 → s.bit .hecLinkStatus k 0 = false → s.brc.tapDrive = false → 5 ≤ s.bootPhase →
      ∃ u, exec (.ethLinkUp k) s = .next u ∧ u.bit .hecLinkStatus k 0 = true
        ∧ (∀ j, j < 4 → j ≠ k → u.bit .hecLinkStatus j 0 = s.bit .hecLinkStatus j 0)
        ∧ u.hec.sessions = s.hec.sessions ∧ u.mem = s.mem)
    ∧ ((s.field .hecLinkStatus k 0 1 2 = 0 ∨ s.bit .hecLinkStatus k 0 = true ∨ s.brc.tapDrive = true ∨ s.bootPhase < 5) →
      exec (.ethLinkUp k) s = .next s)
    ∧ (s.bit .hecLinkStatus k 0 = false → exec (.ethLinkDown k) s = .next s
        ∧ ∀ f, exec (.ethernetFrame k f) s = .next s)
    ∧ (s.bit .hecLinkStatus k 0 = true →
      (∃ u, exec (.ethLinkDown k) s = .next u ∧ u = ethDown k s
        ∧ (s.hec.shears = [] → u.bit .hecLinkStatus k 0 = false ∧ u.bit .hecErrStatus 0 1 = true ∧ u.mem = s.mem
            ∧ u.hec.handshakes = s.hec.handshakes.filter (fun h => decide (h.link ≠ k))
            ∧ (∀ i x, i < 16 → s.session i = some x → u.session i = if x.link = k then none else some x)))
      ∧ (∀ f : List Byte, f.take 6 ≠ macBytes s k → (f.getD 0 0).toNat % 2 = 0 → exec (.ethernetFrame k f) s = .next s)
      ∧ (∀ f : List Byte, linkTag s k = [] → slice f 12 2 = [0x81, 0] → exec (.ethernetFrame k f) s = .next s)
      ∧ (∀ f : List Byte, linkTag s k ≠ [] → slice f 12 2 ≠ [0x81, 0] → exec (.ethernetFrame k f) s = .next s)
      ∧ (∀ sha spa tha tpa pad : List Byte, sha.length = 6 → spa.length = 4 → tha.length = 6 → tpa.length = 4 →
          (linkAddrs s k).elem tpa = true → pad.length ≤ 18 →
          exec (.ethernetFrame k (List.replicate 6 0xFF ++ sha ++ linkTag s k ++ [8, 6] ++ [0, 1, 8, 0, 6, 4, 0, 1] ++ sha ++ spa ++ tha ++ tpa ++ pad)) s
            = .next (s.transmit (.frame k (padTo 60 (sha ++ macBytes s k ++ linkTag s k ++ [8, 6] ++ [0, 1, 8, 0, 6, 4, 0, 2]
                ++ macBytes s k ++ tpa ++ sha ++ spa)))))
      ∧ (∀ sha src addr udp dg pad : List Byte, sha.length = 6 → src.length = 4 → addr.length = 4 →
          (linkAddrs s k).elem addr = true → udp.length = 2 → 46 + dg.length + pad.length ≤ 9216 →
          let frame := macBytes s k ++ sha ++ linkTag s k ++ [8, 0]
            ++ ipv4 src addr 17 (udp ++ bytesBE 2 (s.field .hecCfg 0 0 0 16) ++ bytesBE 2 (8 + dg.length) ++ [0, 0] ++ dg) ++ pad
          (crookOn s k = false → exec (.ethernetFrame k frame) s = .next s)
          ∧ (crookOn s k = true → rxBytes s k + dg.length ≤ 0x1000000 → Table.risesFrom 0 s.hec.rx = true →
            ∃ u, exec (.ethernetFrame k frame) s = .next u ∧ Table.get [] u.hec.rx k = Table.get [] s.hec.rx k ++ [dg]
              ∧ (∀ j, j ≠ k → Table.get [] u.hec.rx j = Table.get [] s.hec.rx j)
              ∧ u.hec.sessions = s.hec.sessions ∧ u.regs = s.regs ∧ u.mem = s.mem)
          ∧ (crookOn s k = true → 0x1000000 < rxBytes s k + dg.length →
            ∃ u, exec (.ethernetFrame k frame) s = .next u ∧ u.hec = s.hec ∧ u.mem = s.mem
              ∧ u.field .hecErrStatus 0 0 16 32 = Nat.min (s.field .hecErrStatus 0 0 16 32 + 1) (2 ^ 32 - 1))))
    ∧ (Table.get [] s.hec.rx k = [] → takeBuffered k s = s)
    ∧ (∀ (dg : List Byte) (rest : List (List Byte)), Table.get [] s.hec.rx k = dg :: rest →
        let t : State := { s with hec := { s.hec with rx := Table.set [] s.hec.rx k rest } }
        (crookOn s k = false → takeBuffered k s = t)
        ∧ (∀ c type, DatagramCommand c type k dg → (dg.getD 1 0).toNat = type → rest = [] → Table.risesFrom 0 s.hec.rx = true →
            exec c t = .next (takeBuffered k s))
        ∧ (crookOn s k = true → ((dg.getD 1 0).toNat = 0x01 → takeBuffered k s = takeInit k dg t)
            ∧ ((dg.getD 1 0).toNat = 0x03 → takeBuffered k s = takeFinish k dg t)
            ∧ ((dg.getD 1 0).toNat = 0x04 → takeBuffered k s = takeClose k dg t)
            ∧ ((dg.getD 1 0).toNat = 0x10 → takeBuffered k s = takeData k dg t)
            ∧ ((dg.getD 1 0).toNat = 0x11 → takeBuffered k s = takeAck k dg t)))

/-- R361 to R363, R369, R372, R446: DATA is authenticated, kept while its SEQ lies in the window, delivered once in SEQ
order and acknowledged; a message goes to its queue, or is answered at once with FATAL, BAD_MSG or STEP_PAST; an ACK frees
what it covers; a datagram not acknowledged is sent again after RTO, and its session ends after 16 sendings. What an ACK
datagram itself carries as SEQ is the model's choice (log entry 26); that FATAL and BAD_MSG are answered at delivery, the message never
queued, is the model's reading (log entry 43). -/
def Obligations.SessionsDeliverEachMessageOnce : Prop :=
  ∀ (s : State) (k slot : Nat) (dg : List Byte) (head : CrookHead) (x : Session), crookOn s k = true →
    Table.risesFrom 0 s.hec.sessions = true → Table.risesFrom 0 x.queues = true → s.session slot = some x →
    Table.get [] s.hec.rx k = [] →
    (parseHead s 16 dg = none → exec (.dataMsg k dg) s = .next s ∧ exec (.crookAck k dg) s = .next s)
    ∧ (parseHead s 16 dg = some head → slotOf s k head.num = none →
        exec (.dataMsg k dg) s = .next s ∧ exec (.crookAck k dg) s = .next s)
    ∧ (parseHead s 16 dg = some head → slotOf s k head.num = some slot →
      let opened := gcmOpen x.hostKey (crookNonce 0 head.seq) (dg.take 32) (dg.drop 32)
      (opened = none → exec (.dataMsg k dg) s = .next (authFail s)
        ∧ (head.len = 0 → exec (.crookAck k dg) s = .next (authFail s)))
      ∧ (head.len ≠ 0 → exec (.crookAck k dg) s = .next s)
      ∧ (∀ p, opened = some p → s.sink = none → x.outbox = [] → x.unacked = [] → (∀ e ∈ x.early, e.1 ≠ x.ackn) →
          x.ackn + 1 < 2 ^ 32 → x.seq + 1 < 2 ^ 32 →
        let y : Session := { x with heardAt := s.now }
        (x.ackn + 255 < head.seq → ∃ u, exec (.dataMsg k dg) s = .next u ∧ u.session slot = some y
          ∧ u.hec.out = s.hec.out)
        ∧ (head.seq < x.ackn ∨ (∃ e ∈ x.early, e.1 = head.seq) → head.seq ≤ x.ackn + 255 →
          ∃ u, exec (.dataMsg k dg) s = .next u ∧ u.session slot = some y
            ∧ u.hec.out = s.hec.out ++ [y.acks s x.seq])
        ∧ (x.ackn < head.seq → head.seq ≤ x.ackn + 255 → (∀ e ∈ x.early, e.1 ≠ head.seq) →
          let z : Session := { y with early := x.early ++ [(head.seq, p)] }
          ∃ u, exec (.dataMsg k dg) s = .next u ∧ u.session slot = some z
            ∧ u.hec.out = s.hec.out ++ [z.acks s x.seq])
        ∧ (head.seq = x.ackn → x.early = [] →
          let m := parseMessage p
          let z : Session := { y with ackn := x.ackn + 1 }
          let fatal : Prop := s.fatalHold = true ∧ m.op ∉ [0x03, 0x08, 0x0C, 0x0E]
          let bad : Prop := goodHeader s p = false ∨ goodMessage m = false
          let past : Prop := m.step ≠ 0 ∧ m.step ≤ s.stepNo
          (¬ fatal → ¬ bad → ¬ past → ∃ u w, exec (.dataMsg k dg) s = .next u ∧ u.session slot = some w
            ∧ w = { z with queues := w.queues } ∧ Table.get [] w.queues m.queue = Table.get [] x.queues m.queue ++ [m]
            ∧ (∀ j, j ≠ m.queue → Table.get [] w.queues j = Table.get [] x.queues j)
            ∧ u.hec.out = s.hec.out ++ [z.acks s x.seq])
          ∧ (∀ status, ((fatal ∧ status = 5) ∨ (¬ fatal ∧ bad ∧ status = 3) ∨ (¬ fatal ∧ ¬ bad ∧ past ∧ status = 4)) →
            ∃ u w, exec (.dataMsg k dg) s = .next u ∧ u.session slot = some w ∧ w.queues = x.queues ∧ w.seq = x.seq + 1
              ∧ u.hec.out = s.hec.out ++ [z.result s m status 0, z.acks s (x.seq + 1)])))
      ∧ (∀ p, opened = some p → head.len = 0 → s.sink = none → x.outbox = [] → s.field .hecEvtStatus 0 0 32 32 = 0 →
          let covered (v : Unacked) : Bool := decide (v.seq < head.ackn)
            || (decide (head.ackn < v.seq) && decide (v.seq ≤ head.ackn + 32) && bitOf head.sack (v.seq - head.ackn - 1))
          let nums := eventsOf ((x.unacked.filter covered).map (·.rider))
          ∃ u, exec (.crookAck k dg) s = .next u ∧ u.hec.out = s.hec.out
            ∧ u.session slot = some { x with heardAt := s.now, unacked := x.unacked.filter (fun v => !covered v) }
            ∧ u.hec.ring = s.hec.ring.filter (fun e => !nums.elem e.num)))
    ∧ (∀ seq, (∀ v ∈ x.unacked, v.seq ≠ seq) → exec (.retransmit slot seq) s = .next s)
    ∧ (∀ seq v, x.unacked.find? (fun w => decide (w.seq = seq)) = some v →
        (s.now < v.sentAt + s.rto → exec (.retransmit slot seq) s = .next s)
        ∧ (v.sentAt + s.rto ≤ s.now → 16 ≤ v.times →
            exec (.retransmit slot seq) s = .next (endSession slot (s.raiseBit .hecErrStatus 0 0)))
        ∧ (v.sentAt + s.rto ≤ s.now → v.times < 16 → ∃ u, exec (.retransmit slot seq) s = .next u
            ∧ u.hec.out = s.hec.out ++ [.datagram x.link (s.linkSettings x.link) v.datagram] ∧ u.regs = s.regs ∧ u.mem = s.mem
            ∧ u.session slot = some { x with unacked := x.unacked.map (fun w =>
                if w.seq = seq then { w with sentAt := s.now, times := w.times + 1 } else w) }))

/-- R366 to R369, R372: a message command does nothing where its queue's head is another operation or may not begin, as a gated message may
not before the step-hurdle release that sets SYN_STEP to its STEP; in
FATAL_HOLD every operation but four is answered FATAL, whatever it waits for. READ, WRITE, LAUNCH and DUMP_READ (with JID 0) send one request for
each 1 KiB piece and wait; a credit goes out as one request; REGRD and REGWR take one register after another. -/
def Obligations.MessagesReachMemoryAndRegisters : Prop :=
  ∀ (s : State) (slot q : Nat) (x : Session) (m : Message) (rest : List Message) (c : Instr),
    (∀ op, MessageCommand c op slot q → s.session slot = some x → Table.get [] x.queues q = m :: rest →
      (m.op ≠ op ∨ (mayBegin s x m = false ∧ (s.fatalHold = false ∨ m.op ∈ [0x03, 0x08, 0x0C, 0x0E]))) → exec c s = .next s)
    ∧ (∀ op, MessageCommand c op slot q → (s.session slot = none ∨ (s.session slot = some x ∧ Table.get [] x.queues q = [])) →
        exec c s = .next s)
    ∧ (m.step ≠ 0 → m.opened = false → mayBegin s x m = false)
    ∧ (MessageAt s slot q x m rest → Table.risesFrom 0 s.akm.dumpRead = true →
      (MessageCommand c m.op slot q → s.fatalHold = true → m.op ∉ [0x03, 0x08, 0x0C, 0x0E] →
        ∃ u, exec c s = .next u ∧ MessageTaken u slot q rest ∧ u.hec.out = s.hec.out ++ [x.result s m 5 0] ∧ u.mem = s.mem)
      ∧ (MessageCommand c m.op slot q → mayBegin s x m = true → s.fatalHold = false ∨ m.op ∈ [0x03, 0x08, 0x0C, 0x0E] →
        let asks (base n : Nat) : List (Nat × Nat) := (pieces base n).map (fun p => ((base + p.1) % 2 ^ 48, p.2))
        let asksData (base : Nat) : List (Nat × Nat × List Byte) := (pieces base (m.data.length / 32)).map
          (fun p => ((base + p.1) % 2 ^ 48, p.2, slice m.data p.1 (32 * p.2)))
        (m.op = 0x01 → 0 < m.arg → ∃ u, exec c s = .next u ∧ MessageRuns s u slot q (pieces m.addr m.arg).length x m rest
          ∧ (sentSince s u).map (fun r => (r.pkt.offset, r.pkt.nsect)) = asks m.addr m.arg
          ∧ ∀ r ∈ sentSince s u, r.pkt.opcode = opRD ∧ r.ep = linkEp x.link ∧ r.pkt.jid = s.jid)
        ∧ (m.op = 0x08 → 0 < m.arg → ∃ u, exec c s = .next u
          ∧ MessageRuns s u slot q (pieces (dumpBase + m.addr) m.arg).length x m rest
          ∧ (sentSince s u).map (fun r => (r.pkt.offset, r.pkt.nsect)) = asks (0x7F00000000 + m.addr) m.arg
          ∧ (∀ r ∈ sentSince s u, r.pkt.opcode = opRD ∧ r.ep = linkEp x.link ∧ r.pkt.jid = 0)
          ∧ ∀ i, i < m.arg → Table.get false u.akm.dumpRead (m.addr / 32 + i) = true)
        ∧ (m.op = 0x02 → 32 ≤ m.data.length → ∃ u, exec c s = .next u
          ∧ MessageRuns s u slot q (pieces m.addr (m.data.length / 32)).length x m rest
          ∧ (sentSince s u).map (fun r => (r.pkt.offset, r.pkt.nsect, r.pkt.data)) = asksData m.addr
          ∧ ∀ r ∈ sentSince s u, r.pkt.opcode = opWR ∧ r.ep = linkEp x.link ∧ r.pkt.jid = s.jid)
        ∧ (m.op = 0x07 → (launchChunks s * 65536 ≤ m.addr ∨ launchChunks s * 65536 < m.addr + m.data.length) → ∃ u, exec c s = .next u
          ∧ MessageTaken u slot q rest ∧ u.hec.out = s.hec.out ++ [x.result s m 3 0] ∧ u.mem = s.mem)
        ∧ (m.op = 0x07 → m.addr < launchChunks s * 65536 → m.addr + m.data.length ≤ launchChunks s * 65536 → 32 ≤ m.data.length →
          ∃ u, exec c s = .next u
          ∧ MessageRuns s u slot q (pieces (launchArea s + m.addr) (m.data.length / 32)).length x m rest
          ∧ (sentSince s u).map (fun r => (r.pkt.offset, r.pkt.nsect, r.pkt.data)) = asksData (launchArea s + m.addr)
          ∧ ∀ r ∈ sentSince s u, r.pkt.opcode = opWR ∧ r.ep = linkEp x.link)
        ∧ (m.op = 0x05 ∨ (m.op = 0x02 ∧ m.data = []) →
          (carriesCredit m.arg = false → ∃ u, exec c s = .next u ∧ MessageTaken u slot q rest
            ∧ u.hec.out = s.hec.out ++ [x.result s m 0 0] ∧ u.requests = s.requests ∧ u.mem = s.mem)
          ∧ (carriesCredit m.arg = true → ∃ u r, exec c s = .next u ∧ MessageTaken u slot q rest ∧ u.hec.out = s.hec.out
            ∧ u.mem = s.mem ∧ sentSince s u = [r] ∧ r.ep = linkEp x.link ∧ r.purpose = .hecCredit s.hec.nextExec
            ∧ r.pkt.opcode = opCREDIT ∧ r.pkt.tally = bitsOf m.arg 29 17 ∧ r.pkt.credit = bitsOf m.arg 0 16
            ∧ r.pkt.terr = false))
        ∧ (m.op = 0x03 → m.arg ≠ 0 → m.arg * regUnit m.addr ≤ s.maxData →
          let r := readRegs (hecOf x) m.addr (regUnit m.addr) m.arg (dequeue slot q s)
          ∃ u, exec c s = .next u ∧ MessageTaken u slot q rest ∧ u.hec.doorbells = r.1.hec.doorbells
            ∧ u.hec.out = s.hec.out ++ [x.says s (hostMessage 0x82 m.tag m.addr 0 r.2.1),
              ({ x with seq := x.seq + 1 } : Session).result s m (if r.2.2.isSome then 1 else 0) ((r.2.2.map (·.2)).getD 0)])
        ∧ (m.op = 0x04 →
          let r := writeRegs (hecOf x) m.addr (regUnit m.addr) ((chunksOf (regUnit m.addr) m.arg m.data).map natOf)
            (dequeue slot q s)
          exec c s = .next (sendResultMsg slot m.tag (if r.2.isSome then 1 else 0) ((r.2.map (·.2)).getD 0) r.1))))
    ∧ (∀ src base unit n, readRegs src base unit 0 s = (s, [], none)
        ∧ (let a := readRegs src base unit n s
           let g := fetchRegister src (base + unit * n) a.1
           let code := g.answer.1
           readRegs src base unit (n + 1) s = if code = 0 then (g, a.2.1 ++ bytesOf unit g.answer.2.toNat, a.2.2)
             else (g, a.2.1 ++ bytesOf unit (0x7FF4000000000E00 + code), lowerFail a.2.2 n code)))
    ∧ (∀ src base unit vs v, writeRegs src base unit [] s = (s, none)
        ∧ (let a := writeRegs src base unit vs s
           let g := writeRegister src (base + unit * vs.length) (BitVec.ofNat 64 v) a.1
           writeRegs src base unit (vs ++ [v]) s = (g, if g.answer.1 = 0 then a.2 else lowerFail a.2 vs.length g.answer.1)))

/-- R370, R371, R373 to R375: a DOORBELL waits while the FIFO holds 64; a RESET is answered and resets the node no earlier
than 100 µs after its RESULT went out, by itself at 1 ms; a second RESET waits (the model's choice, log entry 50);
EVENT_SINK makes its session the sink and sends the waiting events, those that waited in the old sink's session among them; a SHEAR_ACK has no reply; flash
messages wait for a running operation and are DENIED outside the slot not booted; a page program clears bits, an erase
sets 64 KiB to 0xFF (as NOR flash does, log entry 6), and the next operation that an I3C write has asked for begins (log entry 38). -/
def Obligations.MessagesReachHostQueuesAndFlash : Prop :=
  ∀ (s : State) (slot q : Nat) (x : Session) (m : Message) (rest : List Message) (c : Instr),
    (MessageAt s slot q x m rest → mayBegin s x m = true → MessageCommand c m.op slot q →
        s.fatalHold = false ∨ m.op ∈ [0x0C, 0x0E] → Table.risesFrom 0 s.regs = true →
      (m.op = 0x06 → 64 ≤ s.hec.doorbells.length → exec c s = .next s)
      ∧ (m.op = 0x06 → s.hec.doorbells.length < 64 → ∃ u, exec c s = .next u ∧ MessageTaken u slot q rest
        ∧ u.hec.doorbells = s.hec.doorbells ++ [BitVec.ofNat 64 m.arg] ∧ u.hec.out = s.hec.out ++ [x.result s m 0 0]
        ∧ u.mem = s.mem)
      ∧ (m.op = 0x0C → (s.hec.resetAsked = true ∨ s.hec.resetAt.isSome = true) → exec c s = .next s)
      ∧ (m.op = 0x0C → s.hec.resetAsked = false → s.hec.resetAt = none → ∃ u, exec c s = .next u
        ∧ MessageTaken u slot q rest ∧ u.hec.out = s.hec.out ++ [x.result s m 0 0]
        ∧ u.hec.resetAt = some (s.now + 125000) ∧ u.regs = s.regs ∧ u.mem = s.mem)
      ∧ (m.op = 0x0D → s.hec.shears = [] → ∃ u, exec c s = .next u ∧ MessageTaken u slot q rest ∧ u.hec.out = s.hec.out
        ∧ u.hec.shears = [] ∧ u.ckp = s.ckp ∧ u.mem = s.mem)
      ∧ (m.op = 0x0D → ∀ off n page, s.hec.shears = [(m.arg % 2, off, n, page)] → m.addr ≤ off →
          off + n ≤ m.addr + 65536 * bitsOf m.arg 32 32 → exec c s = .next (shearAcked page (m.arg % 2)
            { dequeue slot q s with hec := { (dequeue slot q s).hec with shears := [] } }))
      ∧ (m.op = 0x0E → s.hec.shears = [] ∨ s.sink = some slot →
          let back : List Nat := match s.sink.bind (fun o => if o = slot then none else s.session o) with
            | some (y : Session) => eventsOf (y.outbox.map (·.2))
            | none => []
          let due := s.hec.ring.filter (fun e => !e.sent || back.elem e.num)
          x.unacked.length + due.length < 256 → x.seq + due.length + 1 < 2 ^ 32 →
          ∃ u l, exec c s = .next u ∧ MessageTaken u slot q rest ∧ u.sink = some slot ∧ (∀ e ∈ u.hec.ring, e.sent = true)
            ∧ u.hec.out = s.hec.out ++ [x.result s m 0 0] ++ l ∧ l.length = due.length)
      ∧ (m.op ∈ [0x09, 0x0A, 0x0B] → s.brc.flashOp.isSome = true → exec c s = .next s)
      ∧ (m.op = 0x09 → s.brc.flashOp = none → 0 < m.arg → m.arg ≤ s.maxData → ∃ u, exec c s = .next u
        ∧ MessageTaken u slot q rest ∧ u.flash = s.flash ∧ u.hec.out = s.hec.out
          ++ [x.says s (hostMessage 0x82 m.tag m.addr 0 (s.readFlash m.addr m.arg)),
              ({ x with seq := x.seq + 1 } : Session).result s m 0 0])
      ∧ (m.op ∈ [0x0A, 0x0B] → s.brc.flashOp = none → (m.op = 0x0B → m.data ≠ []) →
          let n := if m.op = 0x0A then 0x10000 else m.data.length
          (inOtherSlot s m.addr n = false → ∃ u, exec c s = .next u ∧ MessageTaken u slot q rest ∧ u.flash = s.flash
            ∧ u.brc = s.brc ∧ u.hec.out = s.hec.out ++ [x.result s m 2 0])
          ∧ (inOtherSlot s m.addr n = true → ∃ u, exec c s = .next u
            ∧ MessageRuns s u slot q 1 x m rest ∧ u.flash = s.flash ∧ u.brc.flashFor = some s.hec.nextExec
            ∧ u.brc.flashOp = some (if m.op = 0x0A then .erase m.addr else .program m.addr m.data)))
      ∧ (m.op = 0x0B → s.brc.flashOp = none → m.data = [] → ∃ u, exec c s = .next u ∧ MessageTaken u slot q rest
        ∧ u.flash = s.flash ∧ u.brc = s.brc ∧ u.hec.out = s.hec.out ++ [x.result s m 0 0]))
    ∧ (s.hec.resetAt = none → exec .crookReset s = .next s)
    ∧ (∀ t, s.hec.resetAt = some t → exec .crookReset s = .next (if t ≤ s.now then recognise causeCROOK 0 s else s)
        ∧ crookResetLate s = if t + 1125000 ≤ s.now then recognise causeCROOK 0 s else s)
    ∧ (s.brc.off = false → s.memWf = true →
      (s.brc.flashOp = none → exec .flashOpDone s = .next s)
      ∧ (∀ a, s.brc.flashOp = some (.erase a) → s.brc.eraseSuspended = true → exec .flashOpDone s = .next s)
      ∧ (∀ a, s.brc.flashOp = some (.erase a) → s.brc.eraseSuspended = false → ∃ u, exec .flashOpDone s = .next u
        ∧ u.brc.flashOp = s.brc.flashWait.head? ∧ u.brc.flashWait = s.brc.flashWait.tail ∧ (∀ b, u.readFlash b 1 = if a ≤ b ∧ b < a + 0x10000 then [0xFF] else s.readFlash b 1))
      ∧ (∀ a d, s.brc.flashOp = some (.program a d) → ∃ u, exec .flashOpDone s = .next u
        ∧ (∀ i, i < 256 → i < d.length → u.readFlash (a + i) 1 = [(s.readFlash (a + i) 1).getD 0 0 &&& d.getD i 0])
        ∧ (∀ b, (b < a ∨ a + Nat.min 256 d.length ≤ b) → u.readFlash b 1 = s.readFlash b 1)
        ∧ u.brc.flashOp = (if s.brc.hold ≠ none then none
            else if 256 < d.length then some (.program (a + 256) (d.drop 256)) else s.brc.flashWait.head?)
        ∧ (s.brc.hold = none → d.length ≤ 256 → s.brc.flashFor = none →
            u.brc.i3cAnswer = if s.brc.flashI3c = true then [0] else s.brc.i3cAnswer)))

/-! ### Reset, boot and the I3C target -/

namespace Sys2Proof.Machine

/-- The node has been reset by a source that was recognised outside a reset hold: the cause, the phase (7 in FATAL_HOLD)
and the detail stand in BRC_RESET_CAUSE, the dump area, the boot flash and the time of operation stay, and everything else of the block
begins anew, in the reset hold, which low power and a hot junction keep. -/
def ResetBy (cause detail : Nat) (s u : State) : Prop :=
  u.regs = [(regAddr .brcResetCause, causeWord cause (if s.fatalHold then 7 else s.bootPhase) detail)]
    ∧ u.mem = s.mem.filter (fun c => decide (0x7F00000000 ≤ c.1) && decide (c.1 < 0x8000000000)) ∧ u.flash = s.flash
    ∧ u.brc.hold = some ((if u.brc.pwrOk then [] else [causePOWER]) ++ (if u.brc.hot = [] then [] else [causeTHERMAL])) ∧ u.now = 0
    ∧ u.pending = s.pending
    ∧ u.tiles = [] ∧ u.cores = [] ∧ u.engines = [] ∧ u.tallies = [] ∧ u.hurdles = [] ∧ u.ports = [] ∧ u.flights = []
    ∧ u.requests = [] ∧ u.snap = [] ∧ u.poison = [] ∧ u.wrong = [] ∧ u.time = 0 ∧ u.ckp = {} ∧ u.hec = {} ∧ u.aks = {} ∧ u.brc.da = none
    ∧ u.akm = { dayAt := s.akm.dayAt, logHour := s.akm.logHour } ∧ u.brc.operated = s.operated

/-- An event that AKM records in the ring while it is not full (R373, R411). -/
def EventRecorded (s u : State) (code ep : Nat) (data : List Byte) : Prop :=
  ∃ e, u.hec.ring = s.hec.ring ++ [e] ∧ e.code = code ∧ e.ep = ep ∧ e.data = (padTo 44 data).take 44
    ∧ e.num = s.hec.nextEvent ∧ e.time = s.time ∧ e.sent = false

/-- The ring has room, and no event of this code, source endpoint and unit was raised in the last 1 ms (log entry 48). -/
def MayRecord (s : State) (code ep unit : Nat) : Prop :=
  s.hec.ring.length < 4096 ∧ ∀ e ∈ s.akm.lastEvent, e.1 = (code, ep + 1024 * unit) → e.2 + 1250000 ≤ s.now

/-- The ticks that are left of a time after its first 10 µs, in ns (R383, R432). -/
def restOf (ns : Nat) : Nat := (5 * (ns - 10000) + 3) / 4

end Sys2Proof.Machine

/-- R382 to R385, R388, R408, R411, R432, R433: the sources of a reset and their causes; a pulse of rst_n below 1 µs and a
condition of power-good false for 10 µs or less have no effect, a longer one holds the reset for its rest; a junction at 115 °C holds it
until it reads less; a THERMAL alert has no effect in BOOT_FAIL (R380); among sources of one tick the lower code is recorded; the hold
ends 100 µs after its last source, and P0 begins with every register at its value after reset (R8); an OFF node recognises nothing. That
a pulse from 1 µs to 10 µs may do either is the spec's choice left open. What a loss of vstby clears and keeps, when a power-good
condition is true again, and that a pulse is taken at its 10 µs are log entry 28. -/
def Obligations.ResetSourcesResetTheNode : Prop :=
  ∀ s : State, Table.risesFrom 0 s.regs = true →
    (s.brc.off = false → s.brc.hold = none →
      (∀ ns, (ns < 1000 → exec (.rstN ns) s = .next s)
        ∧ (1000 ≤ ns → (∃ u, exec (.rstN ns) s = .next u ∧ ResetBy 0x02 0 s u)
            ∨ (ns < 10000 ∧ exec (.rstN ns) s = .next s.fresh))
        ∧ (10000 ≤ ns → ∃ u, exec (.rstN ns) s = .next u
            ∧ u.brc.pinUntil = max s.brc.pinUntil (s.now + restOf ns) - s.now))
      ∧ (∀ cond ns, (ns ≤ 10000 → exec (.powerGoodFail cond ns) s = .next s)
        ∧ (10000 < ns → (cond = .pwrOk → s.brc.pwrOk = true) → ∃ u, exec (.powerGoodFail cond ns) s = .next u ∧ ResetBy 0x03 0 s u
            ∧ u.brc.tapInstr = 0xFF ∧ u.brc.tapDrive = false ∧ u.brc.tapFloat = false
            ∧ (cond = .pwrOk → u.brc.pwrOk = false ∧ u.brc.pgUntil = s.brc.pgUntil - s.now)
            ∧ (cond ≠ .pwrOk → u.brc.pwrOk = s.brc.pwrOk ∧ u.brc.pgUntil = max s.brc.pgUntil (s.now + restOf ns) - s.now))
        ∧ (cond = .pwrOk → s.brc.pwrOk = false → exec (.powerGoodFail cond ns) s = .next s))
      ∧ (s.field .brcWdog 0 0 0 16 ≠ 0 → s.brc.wdogAt ≤ s.now → ∃ u, exec .watchdogExpiry s = .next u ∧ ResetBy 0x06 0 s u)
      ∧ ((s.field .brcWdog 0 0 0 16 = 0 ∨ s.now < s.brc.wdogAt) → exec .watchdogExpiry s = .next s)
      ∧ (∀ sensor celsius, (sensor < 30 → 115 ≤ celsius → ∃ u, exec (.thermalTrip sensor celsius) s = .next u
            ∧ ResetBy 0x07 0 s u ∧ sensor ∈ u.brc.hot)
          ∧ (sensor < 31 → (if sensor = 30 then 85 else 105) ≤ celsius → s.bootState ≠ 2 → MayRecord s 0x001F 660 sensor →
              ∃ u, exec (.thermalAlert sensor celsius) s = .next u
                ∧ EventRecorded s u 0x001F 660 (bytesOf 1 sensor ++ bytesOf 1 (wrapNat 8 celsius)) ∧ u.mem = s.mem)
          ∧ ((31 ≤ sensor ∨ celsius < (if sensor = 30 then 85 else 105) ∨ s.bootState = 2) →
              exec (.thermalAlert sensor celsius) s = .next s))
      ∧ (∀ detail, (1 ≤ detail → detail ≤ 3 → ∃ u, exec (.glitchDetect detail) s = .next u ∧ ResetBy 0x08 detail s u)
          ∧ ((detail = 0 ∨ 3 < detail) → exec (.glitchDetect detail) s = .next s))
      ∧ (s.brc.rstact ≠ some 0 → ∃ u, exec .i3cTargetReset s = .next u ∧ ResetBy 0x05 0 s u)
      ∧ (s.brc.rstact = some 0 → exec .i3cTargetReset s = .next s)
      ∧ (∀ t, s.hec.resetAt = some t → t ≤ s.now → ∃ u, exec .crookReset s = .next u ∧ ResetBy 0x04 0 s u))
    ∧ (∀ sensor celsius, (30 ≤ sensor → exec (.thermalTrip sensor celsius) s = .next s)
        ∧ (celsius < 115 → sensor ∉ s.brc.hot → exec (.thermalTrip sensor celsius) s = .next s)
        ∧ (s.brc.off = false → sensor < 30 → celsius < 115 → sensor ∈ s.brc.hot →
            let left := s.brc.hot.filter (fun k => decide (k ≠ sensor))
            (left ≠ [] → exec (.thermalTrip sensor celsius) s = .next { s with brc := { s.brc with hot := left } })
            ∧ (left = [] → exec (.thermalTrip sensor celsius) s = .next { s with brc := { s.brc with
                hot := [], holdFrom := s.now, hold := s.brc.hold.map (fun l => l.filter (fun c => decide (c ≠ 0x07))) } })))
    ∧ (s.brc.off = false → s.brc.hold.isSome = true → s.now = 0 → ∃ u, exec (.rstN 10000) s = .next u
        ∧ (bitsOf (s.getReg (regAddr .brcResetCause)).toNat 0 8 ≤ 2 →
            u.regs = [(regAddr .brcResetCause, s.getReg (regAddr .brcResetCause))])
        ∧ (2 < bitsOf (s.getReg (regAddr .brcResetCause)).toNat 0 8 → s.fatalHold = false → u.regs
            = [(regAddr .brcResetCause, causeWord 2 (bitsOf (s.getReg (regAddr .brcResetCause)).toNat 8 3) 0)]))
    ∧ (s.brc.off = true → (∀ ns, ns < 1000 ∨ 10000 ≤ ns → exec (.rstN ns) s = .next s)
        ∧ ∀ detail, exec (.glitchDetect detail) s = .next s)
    ∧ (s.brc.pwrOk = true → exec .pwrOkRise s = .next s)
    ∧ (s.brc.pwrOk = false → exec .pwrOkRise s = .next { s with brc := { s.brc with
        pwrOk := true, holdFrom := s.now, hold := s.brc.hold.map (fun l => l.filter (fun c => decide (c ≠ 0x03))) } })
    ∧ (s.brc.vstby = true → exec .vstbyRising s = .next s)
    ∧ (s.brc.vstby = false → ∃ u, exec .vstbyRising s = .next u ∧ u.brc.off = false ∧ u.brc.vstby = true
        ∧ u.regs = [(regAddr .brcResetCause, 1)] ∧ u.brc.tapInstr = 0xFF ∧ u.now = 0 ∧ u.flash = s.flash
        ∧ u.brc.hold = some ((if s.brc.pwrOk then [] else [0x03]) ++ (if s.brc.hot = [] then [] else [0x07])))
    ∧ (s.brc.vstby = false → exec .vstbyFalling s = .next s)
    ∧ (s.brc.vstby = true → ∃ u, exec .vstbyFalling s = .next u ∧ u.brc.off = true ∧ u.brc.vstby = false ∧ u.mem = []
        ∧ u.regs = [] ∧ u.brc.hot = [] ∧ u.akm = { dayAt := s.akm.dayAt, logHour := s.akm.logHour } ∧ u.aks = {} ∧ u.brc.da = none
        ∧ (s.brc.flashOp = none → u.flash = s.flash))
    ∧ (∀ hot, let from_ := max s.brc.holdFrom (max s.brc.pinUntil s.brc.pgUntil)
        (s.brc.off = false → s.brc.hold = some [] → programming s = false → from_ + 125000 ≤ s.now →
          ∃ u, exec (.resetHoldEnd hot) s = .next u ∧ u.brc.hold = none ∧ u.now = 0 ∧ u.time = 0 ∧ u.brc.phaseStart = 0
            ∧ u.brc.eraseSuspended = false ∧ u.bit .brcBootStatus 0 7 = hot ∧ u.bootPhase = 0 ∧ u.bootState = 0
            ∧ u.getReg (regAddr .brcResetCause) = s.getReg (regAddr .brcResetCause)
            ∧ (∀ a, a ≠ regAddr .brcResetCause → a ≠ regAddr .brcBootStatus → u.getReg a = regReset a)
            ∧ u.mem = s.mem.filter (fun c => decide (0x7F00000000 ≤ c.1) && decide (c.1 < 0x8000000000)) ∧ u.flash = s.flash)
        ∧ ((s.brc.off = true ∨ s.brc.hold ≠ some [] ∨ programming s = true ∨ s.now < from_ + 125000) →
          exec (.resetHoldEnd hot) s = .next s))

/-- R379 to R381, R387, R425, R447: each phase ends within its limit and the next begins; no valid image, a die-to-die
link, a stack or too few tiles fail the boot with codes 1 to 4, a phase beyond its limit with code 5, and alert_n goes
low; in P0 the serial and the I3C ID are formed by a tick, so before any thermal wait ends; P3 zeroes memory; P4 takes the enabled tiles out
of bypass and pens the units that fail; after P5 the node is READY. That the limit of P0 counts anew after a thermal wait, that P0's first
tick forms the serial and the ID, and that the command that ends a phase does the work of the next are log entry 41. -/
def Obligations.BootPhasesFollowInOrder : Prop :=
  (List.range 6).map phaseLimit = [1375000000, 2500000000, 3750000000, 25000000000, 12500000000, 18750000000]
  ∧ ∀ s : State, s.brc.off = false → s.brc.hold = none → Table.risesFrom 0 s.regs = true →
    let code (u : State) : Nat := u.field .brcBootStatus 0 0 16 8
    let failed (u : State) (c : Nat) : Prop := u.bootState = 2 ∧ code u = c ∧ u.brc.alertN = false
    let ends (p : Nat) : Prop := s.bootState = 0 ∧ s.bootPhase = p ∧ s.now ≤ s.brc.phaseStart + phaseLimit p
    let entered (u : State) (p : Nat) : Prop := u.bootPhase = p ∧ u.bootState = 0 ∧ u.brc.phaseStart = s.now
    (∀ c p, (c, p) ∈ [(Instr.bootP0Done, 0), (.bootP4Done, 4), (.bootP5Done, 5)] → ¬ ends p → exec c s = .next s)
    ∧ (∀ l l' l'', (¬ ends 1 → exec (.bootP1Done l) s = .next s) ∧ (¬ ends 2 → exec (.bootP2Done l) s = .next s)
        ∧ (¬ ends 3 → exec (.bootP3Done l l' l'') s = .next s))
    ∧ (s.bootState = 0 → s.bootPhase = 0 → s.bit .brcBootStatus 0 7 = true → ∃ u, exec .thermalWaitEnd s = .next u
        ∧ u.bit .brcBootStatus 0 7 = false ∧ u.bootPhase = 0 ∧ u.bootState = 0 ∧ u.brc.phaseStart = s.now ∧ u.mem = s.mem)
    ∧ (s.bit .brcBootStatus 0 7 = false → exec .thermalWaitEnd s = .next s)
    ∧ (s.bit .brcBootStatus 0 7 = true ∨ s.brc.flashOp ≠ none → exec .bootP0Done s = .next s)
    ∧ (ends 0 → s.bit .brcBootStatus 0 7 = false → s.brc.flashOp = none →
      let boots := bootSlot { s with aks := { s.aks with serial := if s.idFormed then s.aks.serial else Config.nodeSerial.toNat } }
      (boots = none → ∃ u, exec .bootP0Done s = .next u ∧ u.bootPhase = 1 ∧ failed u 1 ∧ u.mem = s.mem)
      ∧ (∀ k, boots = some k → ∃ u, exec .bootP0Done s = .next u ∧ entered u 1 ∧ u.bootedSlot = k
          ∧ u.getReg (regAddr .aksSerial) = (if s.idFormed then s.getReg (regAddr .aksSerial) else Config.nodeSerial) ∧ u.mem = s.mem))
    ∧ ((s.bootState ≠ 0 ∨ s.bootPhase ≠ 0 ∨ s.idFormed = true) → tickP0 s = s)
    ∧ (s.bootState = 0 → s.bootPhase = 0 → s.idFormed = false →
        (tickP0 s).getReg (regAddr .aksSerial) = Config.nodeSerial ∧ (tickP0 s).idFormed = true
        ∧ (tickP0 s).aks = { s.aks with serial := Config.nodeSerial.toNat }
        ∧ (tickP0 s).field .brcI3c 0 0 8 48 = 0x12D4 * 2 ^ 33 + 2 ^ 32 + Config.nodeSerial.toNat % 2 ^ 32)
    ∧ (∀ l, ends 1 → ∃ u, exec (.bootP1Done l) s = .next u ∧ u.bootPhase = 2 ∧ u.mem = s.mem
        ∧ u.getReg (regAddr .pwrCap) = BitVec.ofNat 64 (if s.field .brcPartId 0 0 8 8 = 1 then 4000 else 3800)
        ∧ (∀ n, n < 134 → (n ∈ l → u.bit .pfbD2dStatus n 1 = true) ∧ (n ∉ l → u.bit .pfbD2dStatus n 0 = true))
        ∧ ((∃ n ∈ l, n < 134) → failed u 2) ∧ ((∀ n ∈ l, 134 ≤ n) → entered u 2))
    ∧ (∀ l, ends 2 → ∃ u, exec (.bootP2Done l) s = .next u ∧ u.bootPhase = 3 ∧ u.mem = [] ∧ u.poison = [] ∧ u.wrong = []
        ∧ ((∃ k, k < 8 ∧ ∀ i, i < 64 → 64 * k + i ∈ l) → failed u 3)
        ∧ ((∀ k, k < 8 → ∃ i, i < 64 ∧ 64 * k + i ∉ l) → entered u 3 ∧ ∀ n ∈ l, n < 512 → u.pcPenned n = true))
    ∧ (∀ l l' l'', ends 3 → ∃ u, exec (.bootP3Done l l' l'') s = .next u ∧ u.bootPhase = 4
        ∧ (s.lines = [] → u.mem = s.mem)
        ∧ (∀ t, t < 576 → (t ∈ l ∨ bitOf (s.getReg (regAddr .brcTileEn (t / 64))).toNat (t % 64) = false) → u.tileOn t = false)
        ∧ (∀ c ∈ l', c < 64 → u.corePenned c = true) ∧ (∀ e ∈ l'', e < 16 → u.enginePenned e = true)
        ∧ (unitsLeft u 0 < (gradeMinimum (s.field .brcPartId 0 0 8 8)).getD 544 → failed u 4)
        ∧ ((gradeMinimum (s.field .brcPartId 0 0 8 8)).getD 544 ≤ unitsLeft u 0 → entered u 4))
    ∧ (ends 4 → ∃ u, exec .bootP4Done s = .next u ∧ entered u 5 ∧ u.mem = s.mem)
    ∧ (ends 5 → ∃ u, exec .bootP5Done s = .next u ∧ u.bootPhase = 6 ∧ u.ready = true ∧ u.mem = s.mem)
    ∧ (s.bootState = 0 → s.bootPhase < 5 → s.bit .brcBootStatus 0 7 = false →
        s.brc.phaseStart + phaseLimit s.bootPhase < s.now → ∃ u, exec .bootPhaseTimeout s = .next u ∧ failed u 5
          ∧ u.bootPhase = s.bootPhase ∧ u.mem = s.mem)
    ∧ ((s.bootState ≠ 0 ∨ 5 ≤ s.bootPhase ∨ s.bit .brcBootStatus 0 7 = true
          ∨ s.now ≤ s.brc.phaseStart + phaseLimit s.bootPhase) → exec .bootPhaseTimeout s = .next s)

/-- R386 to R388: the I3C target takes an address once its ID is formed, answers the CCCs of its list, reads and writes
the BRC, AKM and PWR blocks and no others, and writes the flash only in BOOT_FAIL and only within the slots; an event asks for an
in-band interrupt where its class is PENNED or FATAL, the target has an address and interrupts are enabled. The two bytes of GETSTATUS,
GETMWL and GETMRL, and the data of a denied read, are free (log entry 2). The states in which the target answers, and that a transfer to
the flash during another operation waits its turn with no status, are log entry 38. -/
def Obligations.I3cTargetAnswersItsCommands : Prop :=
  ∀ s : State, Table.risesFrom 0 s.regs = true →
    let returns (b : List Byte) (t : State) : State := { t with brc := { t.brc with i3cAnswer := b } }
    (∀ c, c ∈ [Instr.getpid, .getbcr, .getdcr, .getstatus, .getmwl, .getmrl] → addressedI3c s = false → exec c s = .next s)
    ∧ (∀ a v b, addressedI3c s = false → exec (.i3cRegrd a) s = .next s ∧ exec (.i3cRegwr a v) s = .next s
        ∧ exec (.i3cFlashErase a) s = .next s ∧ exec (.i3cFlashProgram a b) s = .next s)
    ∧ (s.brc.off = true ∨ s.brc.hold ≠ none → exec .hotJoin s = .next s ∧ exec .rstdaa s = .next s
        ∧ ∀ da b, exec (.entdaa da) s = .next s ∧ exec (.enec b) s = .next s ∧ exec (.disec b) s = .next s
          ∧ exec (.rstact b) s = .next s)
    ∧ (s.brc.off = false → s.brc.hold = none →
      (s.idFormed = true → bitOf s.brc.i3cEvents 3 = true → s.brc.da = none → s.brc.hotJoinReq = false →
        exec .hotJoin s = .next { s with brc := { s.brc with hotJoinReq := true } })
      ∧ ((s.idFormed = false ∨ bitOf s.brc.i3cEvents 3 = false ∨ s.brc.da.isSome = true ∨ s.brc.hotJoinReq = true) →
        exec .hotJoin s = .next s)
      ∧ (∀ da, (s.idFormed = false ∨ s.brc.da.isSome = true → exec (.entdaa da) s = .next s)
          ∧ (s.idFormed = true → s.brc.da = none → ∃ u, exec (.entdaa da) s = .next u ∧ u.brc.da = some da
              ∧ u.brc.hotJoinReq = false ∧ u.field .brcI3c 0 0 0 8 = da.toNat + 128
              ∧ u = { s with regs := u.regs, brc := u.brc }))
      ∧ (∃ u, exec .rstdaa s = .next u ∧ u.brc.da = none ∧ u.field .brcI3c 0 0 0 8 = 0
          ∧ u = { s with regs := u.regs, brc := u.brc })
      ∧ (∀ b : Byte, exec (.enec b) s = .next { s with brc := { s.brc with i3cEvents := s.brc.i3cEvents ||| b.toNat } }
          ∧ (∃ u, exec (.disec b) s = .next u ∧ u = { s with brc := { s.brc with i3cEvents := u.brc.i3cEvents } }
              ∧ ∀ i, i < 8 → bitOf u.brc.i3cEvents i = (bitOf s.brc.i3cEvents i && !b.getLsbD i))
          ∧ exec (.rstact b) s = .next { s with brc := { s.brc with rstact := some b } }))
    ∧ (addressedI3c s = true →
      exec .getpid s = .next (returns (bytesBE 6 (s.field .brcI3c 0 0 8 48)) s)
      ∧ exec .getbcr s = .next (returns (bytesOf 1 (s.field .brcI3c 0 0 56 8)) s)
      ∧ exec .getdcr s = .next (returns [0] s)
      ∧ (∀ c, c ∈ [Instr.getstatus, .getmwl, .getmrl] → ∃ b, b.length = 2 ∧ exec c s = .next (returns b s).fresh)
      ∧ (∀ a, let f := fetchRegister .akm a s
          (i3cReaches a = false → ∃ b, b.length = 8 ∧ exec (.i3cRegrd a) s = .next (returns (2 :: b) s).fresh)
          ∧ (i3cReaches a = true → f.answer.1 = 0 → exec (.i3cRegrd a) s = .next (returns (0 :: bytesOf 8 f.answer.2.toNat) f))
          ∧ (i3cReaches a = true → f.answer.1 ≠ 0 →
              exec (.i3cRegrd a) s = .next (returns (1 :: bytesOf 8 (0x7FF4000000000E00 + f.answer.1)) f)))
      ∧ (∀ a v, let f := writeRegister .akm a v s
          exec (.i3cRegwr a v) s = .next (if i3cReaches a = false then returns [2] s
            else returns [if f.answer.1 = 0 then 0 else 1] f))
      ∧ (∀ c a good op, (c = .i3cFlashErase a ∧ good = decide (a % 0x10000 = 0) ∧ op = .erase a)
            ∨ (∃ b, c = .i3cFlashProgram a b ∧ good = decide (a % 256 = 0 ∧ b.length = 256) ∧ op = .program a b) →
          (s.bootState ≠ 2 ∨ 0x4000000 ≤ a → exec c s = .next (returns [2] s))
          ∧ (s.bootState = 2 → a < 0x4000000 → good = false → exec c s = .next (returns [3] s))
          ∧ (s.bootState = 2 → a < 0x4000000 → good = true → s.brc.flashOp.isSome = true → exec c s = .next
              { s with brc := { s.brc with i3cAnswer := [], flashWait := s.brc.flashWait ++ [op] } })
          ∧ (s.bootState = 2 → a < 0x4000000 → good = true → s.brc.flashOp = none → exec c s = .next
              { s with brc := { s.brc with i3cAnswer := [], flashOp := some op, flashFor := none, flashI3c := true } })))
    ∧ (∀ code cls ep unit data, MayRecord s code ep unit → (s.akmEvent code cls ep data unit).brc
        = if (cls = 2 ∨ cls = 3) ∧ bitOf s.brc.i3cEvents 0 = true ∧ s.brc.da.isSome = true then
            { s.brc with ibi := s.brc.ibi ++ [cls] } else s.brc)

/-! ### Akenavis: security -/

/-- R404, R405, R407: AKS_JOB takes NEXT; a GO in FATAL_HOLD sets DENIED, one for the current JID or during a change does
nothing more; else JID reads 0, every agent stops, every hurdle is disarmed and every window closes. Once the old job's
requests have ended the node is zeroised but for the dump area, M6 is extended, and the new JID stands. What a job change waits for and
takes along beyond R404's words is log entry 34. -/
def Obligations.JobChangesStopAndZeroiseTheNode : Prop :=
  ∀ (s : State) (src : Requester) (v : Word), hecOrAkm src = true → Table.risesFrom 0 s.regs = true →
    Table.risesFrom 0 s.shadow = true → Table.risesFrom 0 s.tiles = true → Table.risesFrom 0 s.cores = true →
    Table.risesFrom 0 s.engines = true →
    let next := bitsOf v.toNat 16 16
    (bitOf v.toNat 32 = false → ∃ u, exec (.jobChange src v) s = .next u ∧ u.field .aksJob 0 0 16 16 = next ∧ u.jid = s.jid
      ∧ u = { s.answered 0 0 with regs := u.regs })
    ∧ (bitOf v.toNat 32 = true → s.fatalHold = true → ∃ u, exec (.jobChange src v) s = .next u
      ∧ u.bit .aksJob 0 34 = true ∧ u.jid = s.jid ∧ u = { s.answered 0 0 with regs := u.regs })
    ∧ (bitOf v.toNat 32 = true → s.fatalHold = false → (next = s.jid ∨ s.aks.jobChange.isSome = true) → ∃ u,
      exec (.jobChange src v) s = .next u ∧ u.bit .aksJob 0 34 = false ∧ u.jid = s.jid
      ∧ u = { s.answered 0 0 with regs := u.regs })
    ∧ (bitOf v.toNat 32 = true → s.fatalHold = false → next ≠ s.jid → s.aks.jobChange = none → ∃ u,
      exec (.jobChange src v) s = .next u ∧ u.jid = 0 ∧ u.bit .aksJob 0 33 = true ∧ u.bit .aksJob 0 34 = false
      ∧ u.aks.jobChange = some next ∧ u.ckp.fleece = none ∧ u.ckp.restore = none ∧ u.mem = s.mem
      ∧ (∀ t, (u.tile t).state = if (s.tile t).state = .halted then .halted else .idle)
      ∧ (∀ c, (u.core c).held = true) ∧ (∀ e, (u.engine e).state ≠ .running)
      ∧ (∀ h, h < 1024 → u.armed h = false) ∧ (∀ w, w < 256 → u.field .hfiWinAttr w 0 32 1 = 0))
    ∧ ((s.akm.frozen = true ∨ s.aks.jobChange = none ∨ oldJobOutstanding s = true) → exec .jobChangeComplete s = .next s)
    ∧ (∀ job, s.akm.frozen = false → s.aks.jobChange = some job → oldJobOutstanding s = false → ∃ t,
      exec .jobChangeComplete s = .next (flushGated t) ∧ t.jid = job % 65536 ∧ t.bit .aksJob 0 33 = false
      ∧ t.mem = s.mem.filter (fun c => decide (0x7F00000000 ≤ c.1) && decide (c.1 < 0x8000000000)) ∧ t.tiles = []
      ∧ t.poison = s.poison.filter (fun e => decide (0x7F00000000 ≤ 32 * e.1) && decide (32 * e.1 < 0x8000000000))
      ∧ t.wrong = s.wrong.filter (fun e => decide (0x7F00000000 ≤ 32 * e.1) && decide (32 * e.1 < 0x8000000000))
      ∧ t.tallies = [] ∧ t.engines = [] ∧ t.lines = [] ∧ t.akm.undertaken = [] ∧ t.aks.jobChange = none
      ∧ measurement t 6 = sha512 (measurement s 6 ++ sha512 (bytesOf 2 job))
      ∧ (∀ scope, s.aks.debugScope = some scope → t.field .aksStatus 0 0 1 3 = (s.field .aksStatus 0 0 1 3 ||| scope) % 8
          ∧ t.aks.debugScope = none ∧ (bitOf scope 2 = true → t.aks.identity = none ∧ t.aks.kLog = []))
      ∧ (s.aks.debugScope = none → t.field .aksStatus 0 0 1 3 = s.field .aksStatus 0 0 1 3 ∧ t.aks.identity = s.aks.identity))

/-- R395, R396, R398, R401, R406 to R408: a quote captures its fields, and an extension of the same tick, and waits for its signature; AKS signs one request
at a time in their order; a peer certificate that the identity CA verifies fills its slot; an accepted debug token extends
M5 and starts a change to JID 0, its scopes added to those of a token accepted before, a refused one is counted and the third resets the
node with cause SECURITY. Certificates, RSA and OAEP are uninterpreted (log entry 2); what the AKS signs, and when, beyond R398's words
is log entry 40. -/
def Obligations.QuotesSignaturesAndTokens : Prop :=
  ∀ (s : State) (src : Requester) (v : Word), mayAddress src = true → Table.risesFrom 0 s.regs = true →
    Table.risesFrom 0 s.aks.peers = true →
    let go := bitOf v.toNat 0
    (go = false → ∀ c ∈ [Instr.aksQuote src v, .peerLoad src v, .debugToken src v], exec c s = .next (s.answered 0 0))
    ∧ (s.bit .aksQuoteCtl 0 1 = true → exec (.aksQuote src v) s = .next (s.answered 0 0))
    ∧ (go = true → s.bit .aksQuoteCtl 0 1 = false → ∃ u, exec (.aksQuote src v) s = .next u ∧ u.mem = s.mem
      ∧ (s.aks.identity = none → u.getReg (regAddr .aksQuoteCtl) = 8 ∧ u.aks = s.aks)
      ∧ (s.aks.identity.isSome = true → u.getReg (regAddr .aksQuoteCtl) = 2 ∧ u.aks.quote = some (quoteBody s)
          ∧ (s.now, requesterEp src, SignFor.quote, quoteBody s) ∈ u.aks.signing))
    ∧ ((quoteBody s).length = 1536 ∧ ∀ m, m < 8 → slice (quoteBody s) (128 + 64 * m) 64 = measurement s m)
    ∧ (s.aks.signing = [] → exec .quoteComplete s = .next s ∧ exec .signatureComplete s = .next s)
    ∧ (∀ t ep who msg rest, s.aks.signing = (t, ep, who, msg) :: rest →
      (who ≠ .quote → exec .quoteComplete s = .next s) ∧ (who = .quote → exec .signatureComplete s = .next s)
      ∧ (who = .quote → ∃ u, exec .quoteComplete s = .next u ∧ u.aks.signing = rest ∧ u.aks.quote = none ∧ u.mem = s.mem
          ∧ (s.aks.identity = none → u.getReg (regAddr .aksQuoteCtl) = 8)
          ∧ (s.aks.identity.isSome = true → u.getReg (regAddr .aksQuoteCtl) = 4 ∧ ∃ sig : List Byte, ∀ k, k < 256 →
              u.getReg (regAddr .aksQuote k) = BitVec.ofNat 64 (natOf (slice (msg ++ sig) (8 * k) 8))))
      ∧ (∀ k hid h, who = .reply k hid → handshakeOf s k hid = some h → ∃ u, exec .signatureComplete s = .next u
          ∧ u.aks.signing = rest ∧ u.hec.sessions = s.hec.sessions ∧ u.mem = s.mem
          ∧ (s.aks.identity = none → handshakeOf u k hid = none ∧ u.hec.out = s.hec.out)
          ∧ (s.aks.identity.isSome = true → ∃ sig,
              let cs := chunksOf s.maxData 8 (h.draft ++ sig)
              handshakeOf u k hid = some { h with reply := some (h.draft ++ sig) }
              ∧ u.hec.out = s.hec.out ++ cs.zipIdx.map
                  (fun c => .datagram k (s.linkSettings k) (handshakeDatagram 0x02 h.num c.2 cs.length hid c.1))))
      ∧ (∀ d, who = .seal d → ∃ sig, exec .signatureComplete s = .next
          ((if s.aks.identity.isSome then writeSeal d msg sig else failDestination d)
            { s.fresh with aks := { s.aks with signing := rest } })))
    ∧ (go = true → ∃ u, exec (.peerLoad src v) s = .next u ∧ u.mem = s.mem
      ∧ (∀ key serial, s.ckp.restore = none → peerKey s (aksBuffer s .aksPeerBuf 512) = some (key, serial) →
          u.getReg (regAddr .aksPeerCtl) = 4 ∧ Table.get none u.aks.peers (bitsOf v.toNat 4 2) = some key
          ∧ u.getReg (regAddr .aksPeerSerial (bitsOf v.toNat 4 2)) = BitVec.ofNat 64 serial)
      ∧ ((s.ckp.restore.isSome = true ∨ peerKey s (aksBuffer s .aksPeerBuf 512) = none) →
          u.getReg (regAddr .aksPeerCtl) = 8 ∧ u.aks = s.aks))
    ∧ (go = true → ∀ scope, tokenScope s (aksBuffer s .aksToken 256) = some scope → ∃ u,
      exec (.debugToken src v) s = .next u ∧ u.field .aksDebugCtl 0 0 2 2 = 1 ∧ u.jid = 0 ∧ u.bit .aksJob 0 33 = true
      ∧ u.aks.jobChange = some 0 ∧ u.aks.debugScope = some (scope ||| s.aks.debugScope.getD 0)
      ∧ measurement u 5 = sha512 (measurement s 5 ++ sha512 (aksBuffer s .aksToken 256))
      ∧ ∀ ep msg, (s.now, ep, SignFor.quote, msg) ∈ s.aks.signing → msg.length = 1536 →
          ∃ late, (s.now, ep, SignFor.quote, late) ∈ u.aks.signing ∧ slice late 448 64 = measurement u 5)
    ∧ (go = true → tokenScope s (aksBuffer s .aksToken 256) = none → ∃ u, exec (.debugToken src v) s = .next u
      ∧ (s.field .aksDebugCtl 0 0 6 2 < 2 → u.field .aksDebugCtl 0 0 2 2 = 2
          ∧ u.field .aksDebugCtl 0 0 6 2 = s.field .aksDebugCtl 0 0 6 2 + 1 ∧ u.aks = s.aks ∧ u.mem = s.mem)
      ∧ (2 ≤ s.field .aksDebugCtl 0 0 6 2 → s.brc.off = false → s.brc.hold = none → ResetBy 0x08 4 s u))

/-! ### Akenavis: management, power and the TAP -/

/-- R412 to R415, R417, R422 to R425: AKM_PEN_CMD pens the unit with its event as the tick ends, after every other event of the
unit in the tick, and a unit already penned or not enabled stays; the credits it had undertaken go out with TERR once its earlier requests end. A slack below 20 ps raises the fold voltage
by 5 mV or, at V_HI, pens the tile; a measurement takes each fold's least slack; an adjustment follows the rows of R424.
Which slacks count and which records are held is log entry 37; what a record holds beyond its number is not stated here. -/
def Obligations.PenningAndFoldVoltages : Prop :=
  ∀ s : State, Table.risesFrom 0 s.regs = true → Table.risesFrom 0 s.tiles = true → Table.risesFrom 0 s.cores = true →
    Table.risesFrom 0 s.engines = true →
    (∀ (p : Nat) (v : Word), let kind := bitsOf v.toNat 0 2
      let n := bitsOf v.toNat 2 10
      ((bitOf v.toNat 12 = false ∨ s.unitOn kind n = false) → exec (.akmPenCmd (.hec p) v) s = .next (s.answered 0 0))
      ∧ (bitOf v.toNat 12 = true → s.unitOn kind n = true → s.penDue = [] → ∃ due, exec (.akmPenCmd (.hec p) v) s = .next due
          ∧ due = { s.answered 0 0 with penDue := [(kind, n, some 6)] } ∧ ∃ u, applyPens due = u ∧ u.unitOn kind n = false
          ∧ u.penDue = [] ∧ unitsLeft u kind + 1 = unitsLeft s kind ∧ u.akm.undertaken = s.akm.undertaken ++ undertakenOf s kind n
          ∧ (kind = 0 → (u.tile n).state = .idle ∧ OnlyTile n s u) ∧ (kind = 1 → (u.core n).held = true)
          ∧ (kind = 2 → (u.engine n).state ≠ .running ∧ OnlyEngine n s u)
          ∧ (MayRecord s 0x0012 (unitEp kind n) n → EventRecorded s u 0x0012 (unitEp kind n)
              (bytesOf 1 kind ++ bytesOf 2 n ++ bytesOf 1 6 ++ bytesOf 2 (unitsLeft u kind)))))
    ∧ (∀ n, (akmWorks s = false ∨ s.akm.undertaken[n]? = none) → exec (.undertakenCredit n) s = .next s)
    ∧ (∀ n agent ep node tally amount, akmWorks s = true → s.akm.undertaken[n]? = some (agent, ep, node, tally, amount) →
      (s.awaits (fun p => decide (p.agent = some agent)) = true → exec (.undertakenCredit n) s = .next s)
      ∧ (s.awaits (fun p => decide (p.agent = some agent)) = false → ∃ u r, exec (.undertakenCredit n) s = .next u
          ∧ u.akm.undertaken = dropAt s.akm.undertaken n ∧ sentSince s u = [r] ∧ r.ep = ep ∧ r.pkt.opcode = opCREDIT
          ∧ r.pkt.tally = tally ∧ r.pkt.credit = amount ∧ r.pkt.terr = true ∧ u.mem = s.mem))
    ∧ (∀ t slack, let f := foldOf t
      ((akmWorks s = false ∨ s.tileOn t = false ∨ 20 ≤ slack) → exec (.marginAlarm t slack) s = .next s)
      ∧ (akmWorks s = true → s.tileOn t = true → slack < 20 → ∃ u, exec (.marginAlarm t slack) s = .next u ∧ u.mem = s.mem
          ∧ (foldVolt s f < foldHigh s f → foldVolt u f = (foldVolt s f + 5) % 4096 ∧ u.tiles = s.tiles
              ∧ u.field .akmFold f 0 20 16 = Nat.min 65535 (s.field .akmFold f 0 20 16 + 1) ∧ u.tileOn t = true
              ∧ (MayRecord s 0x001E 660 f → EventRecorded s u 0x001E 660
                  (bytesOf 1 f ++ bytesOf 2 (foldVolt s f + 5) ++ bytesOf 1 slack)))
          ∧ (foldHigh s f ≤ foldVolt s f → foldVolt u f = foldVolt s f ∧ u.penIsDue 0 t = true ∧ t ∈ u.akm.marginPens)))
    ∧ (∀ k, (akmWorks s = false ∨ windowServes s k 1 = false → ∀ l, exec (.ageingMeasurement k l) s = .next s)
        ∧ (akmWorks s = false ∨ windowServes s k 2 = false → exec (.marginAdjustment k) s = .next s))
    ∧ (∀ k l, akmWorks s = true → windowServes s k 1 = true → Table.risesFrom 0 s.akm.slacks = true →
        Table.risesFrom 0 s.akm.highRuns = true → ∃ u, exec (.ageingMeasurement k l) s = .next u
        ∧ u.tiles = s.tiles ∧ u.mem = s.mem ∧ ∀ f, f < 16 → u.field .akmFold f 0 12 8 = leastSlack u f
          ∧ Table.get [] u.akm.slacks f = (List.range 36).map (fun j => l.getD (foldTile f j) 0)
          ∧ Table.get 0 u.akm.highRuns f
              = (if 80 < leastSlack u f then Nat.min 8 (Table.get 0 s.akm.highRuns f + 1) else 0)
          ∧ foldVolt u f = foldVolt s f)
    ∧ (∀ k, akmWorks s = true → windowServes s k 2 = true → ∃ u, exec (.marginAdjustment k) s = .next u
        ∧ ∀ f, f < 16 →
          let sf := s.field .akmFold f 0 12 8
          let volt := foldVolt s f
          let measured := !(Table.get [] s.akm.slacks f).isEmpty
          let up := measured && decide (sf < 40) && decide (volt < foldHigh s f)
          let down := measured && !up && decide (Table.get 0 s.akm.highRuns f = 8) && decide (foldLow s f < volt)
          let tight := measured && !up && !down && decide (foldHigh s f ≤ volt)
          foldVolt u f = (if up then (volt + 5) % 4096 else if down then volt - 5 else volt)
            ∧ ∀ j, j < 36 → u.tileOn (foldTile f j) = s.tileOn (foldTile f j)
              ∧ u.penIsDue 0 (foldTile f j) = (s.penIsDue 0 (foldTile f j) || (tight && decide (tileSlack s f j < 20))))
    ∧ (∀ f, dailyDue s f = false → exec (.dailyAgeingRecord f) s = .next s)
    ∧ (∀ f, dailyDue s f = true → Table.risesFrom 0 s.akm.dayAt = true → ∃ u, exec (.dailyAgeingRecord f) s = .next u
        ∧ Table.get 0 u.akm.dayAt f = s.operated ∧ u.regs = s.regs ∧ u.mem = s.mem
        ∧ ((recentRecords s).length < 64 → u.akm.logSeq = s.akm.logSeq + 1)
        ∧ (64 ≤ (recentRecords s).length → u.flash = s.flash ∧ u.akm.logSeq = s.akm.logSeq
            ∧ Table.get [] u.akm.logHeld f ≠ [])
        ∧ ((recentRecords s).length < 64 → s.aks.kLog ≠ [] → s.memWf = true → s.akm.logSeq % 256 = 0 →
            (u.readFlash (ageingLog + 256 * (s.akm.logSeq % 15360)) 8) = bytesOf 8 s.akm.logSeq))

/-- R426 to R430, R380: outside BOOT_FAIL the first fatal error starts the freeze, one during the freeze or the dump is the second code; the
frozen node enters FATAL_HOLD with alert_n low, writes the dump with its digest but for sectors on a penned pseudo-channel, raises
FATAL and starts the hold timer; a
freeze beyond 10 ms, a dump beyond 2 s and an uncorrectable error of AKM's memory reset with cause FATAL_ESC, the timer's
end with HOLD_EXPIRY. The layouts inside the dump's parts are the model's choice where the spec gives none (log entry 33). -/
def Obligations.FatalErrorsFreezeAndDump : Prop :=
  ∀ s : State, s.brc.off = false → s.brc.hold = none → Table.risesFrom 0 s.regs = true → Table.risesFrom 0 s.tiles = true →
    Table.risesFrom 0 s.cores = true →
    let code := s.field .akmFatal 0 0 0 16
    (∀ c, ((c = 0 ∨ 5 < c ∨ (c = 2 ∧ s.bootPhase < 3) ∨ s.bootState = 2) → exec (.fatalError c) s = .next s)
      ∧ (1 ≤ c → c ≤ 5 → (c = 2 → 3 ≤ s.bootPhase) → s.bootState ≠ 2 → ∃ u, exec (.fatalError c) s = .next u ∧ u.mem = s.mem
          ∧ (fatalStage s = 0 → fatalStage u = 1 ∧ u.field .akmFatal 0 0 0 16 = c ∧ u.akm.freezeAt = some s.now)
          ∧ (fatalStage s = 3 → u = s)
          ∧ (fatalStage s = 1 ∨ fatalStage s = 2 → u = { s with regs := u.regs } ∧ fatalStage u = fatalStage s
              ∧ u.field .akmFatal 0 0 0 16 = code ∧ u.field .akmFatal 0 0 16 16
                  = if s.field .akmFatal 0 0 16 16 = 0 then c else s.field .akmFatal 0 0 16 16)))
    ∧ ((fatalStage s ≠ 1 ∨ freezeOverdue s = true ∨ s.bootState = 2) → exec .freezeComplete s = .next s)
    ∧ (fatalStage s = 1 → freezeOverdue s = false → s.bootState ≠ 2 → ∃ u, exec .freezeComplete s = .next u ∧ fatalStage u = 2
        ∧ u.fatalHold = true ∧ u.akm.frozen = true ∧ u.brc.alertN = false ∧ u.akm.dumpAt = some s.now
        ∧ u.akm.freezeTime = s.time ∧ (∀ t, (u.tile t).state = if (s.tile t).state = .halted then .halted else .idle)
        ∧ (∀ c, (u.core c).held = true) ∧ u.mem = s.mem)
    ∧ ((fatalStage s ≠ 1 ∨ freezeOverdue s = false ∨ s.bootState = 2) → exec .freezeTimeout s = .next s)
    ∧ (fatalStage s = 1 → freezeOverdue s = true → s.bootState ≠ 2 → ∃ u, exec .freezeTimeout s = .next u ∧ ResetBy 0x09 (code ||| 0x8000) s u)
    ∧ ((fatalStage s ≠ 2 ∨ dumpOverdue s = true) → exec .dumpComplete s = .next s)
    ∧ (fatalStage s = 2 → dumpOverdue s = false → s.memWf = true → ∃ u hold, exec .dumpComplete s = .next u
        ∧ fatalStage u = 3 ∧ u.akm.holdUntil = some (s.now + 1250000000 * hold) ∧ hold < 65536 ∧ u.akm.dumpRead = []
        ∧ (∀ a, a < 0x7F00000000 → u.readMem a 1 = s.readMem a 1)
        ∧ (∀ a, a % 32 = 0 → 0x7F00000000 ≤ a → a < 0x8000000000 → s.pcPenned (s.pcOf a).1 = true → u.readMem a 32 = s.readMem a 32)
        ∧ (s.pcPenned (s.pcOf 0x7F00000000).1 = false → u.readMem 0x7F00000000 4 = bytesOf 4 0x0D01D00D)
        ∧ (s.pcPenned (s.pcOf 0x7F00000040).1 = false → s.pcPenned (s.pcOf 0x7F00000060).1 = false →
            u.readMem 0x7F00000040 64 = sha512 (dumpBody (dumpParts s)))
        ∧ (MayRecord s 0x0021 660 0 → EventRecorded s u 0x0021 660 (bytesOf 2 code ++ bytesOf 2 (s.field .akmFatal 0 0 16 16))))
    ∧ ((fatalStage s ≠ 2 ∨ dumpOverdue s = false) → exec .dumpTimeout s = .next s)
    ∧ (fatalStage s = 2 → dumpOverdue s = true → ∃ u, exec .dumpTimeout s = .next u ∧ ResetBy 0x09 (code ||| 0x8000) s u)
    ∧ (∀ t, s.akm.holdUntil = some t →
        (fatalStage s = 3 → t ≤ s.now → ∃ u, exec .holdExpiry s = .next u ∧ ResetBy 0x0A 0 s u)
        ∧ ((fatalStage s ≠ 3 ∨ s.now < t) → exec .holdExpiry s = .next s))
    ∧ (s.akm.holdUntil = none → exec .holdExpiry s = .next s)
    ∧ (∃ u, exec .akmMemoryUe s = .next u ∧ ResetBy 0x09 code s u)

/-- R419, R434, R435, R439, R440: a telemetry sample and a power comparison take place in their ticks and no others; the
skip level moves by one, and what a tile's VXU and MXU have in hand ends later or sooner with it; PWR_CAP stays between 1,600 W and the
grade maximum; a TAP instruction is selected while power-good is true, and the instruction register has captured 1; those of R440 drive
the pins from the boundary register and take every link down; a debug opcode is BYPASS unless its scope is unlocked. What mean power is
and when CAPPED is set are log entry 36. Of the boundary register the bits of four pins are stated; the others are free, and the order of
its bits is log entry 58. -/
def Obligations.TelemetryPowerAndTestAccess : Prop :=
  ∀ s : State, Table.risesFrom 0 s.regs = true → Table.risesFrom 0 s.ports = true →
    (∀ temps vin, (telemetryDue s = false → exec (.telemetrySample temps vin) s = .next s)
      ∧ (telemetryDue s = true → ∃ u, exec (.telemetrySample temps vin) s = .next u
          ∧ u = { s with regs := u.regs, akm := { s.akm with telemAt := s.now + 1 } }
          ∧ u.field .pwrStatus 0 0 0 16 = Nat.min 65535 vin
          ∧ ∀ i c, i < 31 → temps[i]? = some c → -128 ≤ c → c < 128 → u.field .pwrTemp i 0 0 8 = wrapNat 8 c
              ∧ signedOf 8 (u.field .pwrTemp i 0 8 8) = max (signedOf 8 (s.field .pwrTemp i 0 8 8)) c))
    ∧ (∀ mean, (comparisonDue s = false → exec (.powerComparison mean) s = .next s)
      ∧ (comparisonDue s = true →
          let limit := s.field .pwrCap 0 0 0 16
          let k := s.field .pwrStatus 0 0 32 6
          let next := if limit < mean then Nat.min 63 (k + 1) else if 100 * mean < 95 * limit then k - 1 else k
          ∃ u, exec (.powerComparison mean) s = .next u
            ∧ u = { s with regs := u.regs, akm := u.akm, raised := u.raised, tiles := u.tiles }
            ∧ (next = k → u.tiles = s.tiles)
            ∧ (Table.risesFrom 0 s.tiles = true → ∀ t, u.tile t = (s.tile t).later k next s.now)
            ∧ u.field .pwrStatus 0 0 16 16 = Nat.min 65535 mean
            ∧ u.field .pwrStatus 0 0 32 6 = next
            ∧ u.bit .pwrStatus 0 38 = (s.bit .pwrStatus 0 38 || (decide (k = 0) && decide (limit < mean)))
            ∧ u.akm.energy = s.akm.energy + mean
            ∧ u.getReg (regAddr .pwrEnergy) = BitVec.ofNat 64 ((s.akm.energy + mean) / 100)))
    ∧ (∀ src v, hecOrAkm src = true → ∃ u, exec (.pwrCap src v) s = .next u ∧ (s.akm.cmpAt ≠ s.now + 1 → u = { s.answered 0 0 with regs := u.regs })
        ∧ (s.akm.cmpAt = s.now + 1 → u.field .pwrStatus 0 0 32 6
            = nextSkip (u.field .pwrCap 0 0 0 16) s.akm.cmpSkip s.akm.cmpMean % 64)
        ∧ u.getReg (regAddr .pwrCap) = BitVec.ofNat 64 (if s.bootPhase < 2 then 1600
            else max 1600 (min (bitsOf v.toNat 0 16) (if s.field .brcPartId 0 0 8 8 = 1 then 4000 else 3800))))
    ∧ ((s.brc.off = true ∨ s.brc.pwrOk = false ∨ s.now < s.brc.pgUntil) → ∀ c ∈ [Instr.tapReset, .samplePreload, .extest, .extestPulse, .extestTrain,
        .tapClamp, .highz, .tapBypass], exec c s = .next s)
    ∧ ((s.brc.off = true ∨ s.brc.pwrOk = false ∨ s.now < s.brc.pgUntil) → ∀ op, exec (.coreDebug op) s = .next s ∧ exec (.internalScan op) s = .next s)
    ∧ (s.brc.off = false → s.brc.pwrOk = true → s.brc.pgUntil ≤ s.now →
      let selects (op capture : Nat) : State :=
        { s with brc := { s.brc with tapInstr := op, tapDrive := false, tapFloat := false, tapCapture := capture, bypass := false } }
      exec .tapReset s = .next (selects 0xFF s.brc.tapCapture) ∧ exec .tapBypass s = .next (selects 0xFF 1)
      ∧ (∃ b p : List Bool, exec .samplePreload s
            = .next ({ selects 0x01 1 with brc := { (selects 0x01 1).brc with boundary := b, preload := p } }).fresh.fresh
          ∧ b.length = 561 ∧ p.length = 561 ∧ b[0]? = some true ∧ b[2]? = some s.brc.alertN ∧ b[7]? = some s.brc.hold.isNone
          ∧ b[1]? = some (s.brc.rstN && decide (s.brc.pinUntil ≤ s.now)))
      ∧ (∀ c op, (c, op) ∈ [(Instr.extest, 0x02), (.extestPulse, 0x03), (.extestTrain, 0x04), (.tapClamp, 0x05), (.highz, 0x06)] →
          ∃ u, exec c s = .next u ∧ u = selectTap op true (decide (op = 0x06)) { s with brc := { s.brc with tapCapture := 1 } }
            ∧ (s.hec.shears = [] → ∀ k, pinLevel u k = if op = 0x06 then none else s.brc.preload[k]?)
            ∧ (s.hec.shears = [] → u.brc.tapInstr = op ∧ u.brc.tapDrive = true ∧ u.brc.tapFloat = decide (op = 0x06)
                ∧ (∀ p, p < 16 → (u.port p).trained = false) ∧ (∀ k, k < 4 → u.bit .hecLinkStatus k 0 = false)
                ∧ u.mem = s.mem))
      ∧ (∀ op : Byte,
          let unlocked (lo scope : Nat) : Prop := lo ≤ op.toNat ∧ op.toNat < lo + 16 ∧ s.bit .aksStatus 0 (1 + scope) = true
          (¬ unlocked 0x40 0 → exec (.coreDebug op) s = .next (selects 0xFF 1))
          ∧ (¬ unlocked 0x50 1 → exec (.internalScan op) s = .next (selects 0xFF 1))
          ∧ (unlocked 0x40 0 → exec (.coreDebug op) s = .refused (.debugUndocumented op.toNat))
          ∧ (unlocked 0x50 1 → exec (.internalScan op) s = .refused (.debugUndocumented op.toNat))))

/-! ### Every command takes its effect -/

namespace Sys2Proof.Machine

/-- Where a condition on the state and the operands holds, a command answers the next state that its effect gives. -/
def Due (c : Instr) (s : State) (cond : Bool) (effect : State → State) : Prop := cond = true → exec c s = .next (effect s)

/-- A write of a register whose requester may address register space and write it: it is answered without an error, and the
register's own effect follows. -/
def Written (c : Instr) (src : Requester) (s : State) (may : Bool) (effect : State → State) : Prop :=
  Due c s (mayAddress src && may) (fun s => effect (s.answered 0 0))

/-- The instructions of a tile's sequencer, by opcode. -/
def seqRows (t : Nat) : List (Instr × Nat) :=
  [(.nop t, 0x00), (.loop t, 0x01), (.call t, 0x02), (.ret t, 0x03), (.agset t, 0x04), (.agstride t, 0x05), (.agadd t, 0x06),
   (.endProg t, 0x07)]

/-- The instructions of a tile's units but the VR ones: unit, opcode and effect. -/
def unitRows (t : Nat) : List (Instr × TileUnit × Nat × (Entry → State → State)) :=
  [(.load t, .load, 0x20, issueLoad t), (.xpose t, .load, 0x21, issueXpose t), (.store t, .store, 0x30, issueStore t),
   (.atomi t, .store, 0x34, issueAtomi t), (.atoms t, .store, 0x35, issueAtoms t), (.mmul t, .matrix, 0x40, issueMmul t),
   (.mdrain t, .matrix, 0x48, issueMdrain t), (.mldb t, .matrix, 0x49, issueMldb t), (.vcvt t, .vector, 0x88, runVcvt t),
   (.vacc t, .vector, 0x90, runVacc t), (.vrsum t, .vector, 0x98, runVrd sumLeaves t),
   (.vrmax t, .vector, 0x99, runVrd (pickLeaf true) t), (.vrmin t, .vector, 0x9A, runVrd (pickLeaf false) t),
   (.vld t, .vector, 0xB0, runVld t), (.vst t, .vector, 0xB1, runVst t),
   (.twait t, .sync, 0x10, issueTwait t), (.harr t, .sync, 0x11, issueHarr t), (.hwait t, .sync, 0x12, issueHwait t),
   (.harrw t, .sync, 0x13, issueHarrw t)]

/-- The custom instructions of a core but the arithmetic ones: what their word is, and their effect. -/
def coreRows (c stop : Nat) : List (Instr × (Nat → Bool) × (Nat → State → State)) :=
  [(.tcred c, isSync 0, runTcred false c), (.tcredC c, isSync 1, runTcred true c), (.coreTwait c, isSync 2, runTwait c),
   (.coreHarr c, isSync 3, runHarr false c), (.coreHwait c, isSync 4, runHwait c), (.coreHarrw c, isSync 5, runHarr true c),
   (.pamo c, isSync 6, runPamo c), (.clean c, isSync 7, runClean c), (.lvcfg c, isLvcfg, runLvcfg c),
   (.lvxLoadUnit c stop, isVMem 0, runVLoad 0 c stop), (.lvxLoadStrided c stop, isVMem 1, runVLoad 1 c stop),
   (.lvxLoadFirstFault c stop, isVMem 2, runVLoadFf c stop), (.lvxLoadIndexed c stop, isVMem 3, runVLoad 3 c stop),
   (.lvxStoreUnit c stop, isVMem 4, runVStore 4 c stop), (.lvxStoreStrided c stop, isVMem 5, runVStore 5 c stop),
   (.lvxStoreIndexed c stop, isVMem 6, runVStore 6 c stop),
   (.pand c, isPredicate 0, runToP c (predicate2 (fun a b => a &&& b))),
   (.por c, isPredicate 1, runToP c (predicate2 (fun a b => a ||| b))),
   (.pxor c, isPredicate 2, runToP c (predicate2 (fun a b => a ^^^ b))),
   (.pandn c, isPredicate 3, runToP c (predicate2 (fun a b => a ^^^ (a &&& b)))),
   (.pnot c, isPredicate 4, runToP c (fun x w => ones1024 ^^^ x.getP (iRs1 w % 8))),
   (.ppopc c, isPredicate 5, runPToX c countSet), (.pfirst c, isPredicate 6, runPToX c firstSet),
   (.ptov c, isPredicate 7, runPtov c), (.vtop c, isPredicate 8, runToP c (fun x w => x.getV (iRs1 w)))]

/-- Requests at an endpoint, by opcode, but those that a marked page may hold. -/
def requestRows (n : Nat) (ce ue : List Nat) : List (Instr × Nat × (Arrival → State → State)) :=
  [(.rd n ce ue, opRD, serveRead ce ue), (.snrd n ce ue, opSNRD, serveRead ce ue), (.snwr n, opSNWR, serveSnapWrite),
   (.credit n, opCREDIT, serveCredit), (.arrive n, opARRIVE, serveArrive), (.nodeArrive n, opNODE_ARRIVE, serveNodeArrive),
   (.nodeRelease n, opNODE_RELEASE, serveNodeRelease), (.timeReq n, opTIME_REQ, serveTimeReq),
   (.timeRsp n, opTIME_RSP, serveTimeRsp)]

/-- The commands of an engine's list, by opcode, with their effects. -/
def engineRows (e : Nat) : List (Instr × Nat × (Nat → State → State)) :=
  [(.marNop e, 0, fun _ => nextCommand e 1 1), (.solve e, 1, runSolve e), (.marTwait e, 2, runMarTwait e),
   (.marHarr e, 3, runMarHarr e false), (.marHwait e, 4, runMarHwait e), (.marHarrw e, 5, runMarHarr e true),
   (.marCredit e, 6, fun _ => runMarCredit e), (.copy e, 7, runCopy e), (.jump e, 8, runJump e), (.stop e, 9, fun _ => runStop e)]

/-- The messages of a queue, by operation, with their effects. -/
def messageRows (slot q : Nat) : List (Instr × Nat × (Session → Message → State → State)) :=
  [(.readMsg slot q, 0x01, beginRead slot q), (.writeMsg slot q, 0x02, beginWrite slot q), (.regrd slot q, 0x03, beginRegrd slot q),
   (.regwr slot q, 0x04, beginRegwr slot q), (.crookCredit slot q, 0x05, beginCredit slot q),
   (.doorbell slot q, 0x06, beginDoorbell slot q), (.launchMsg slot q, 0x07, beginLaunch slot q),
   (.dumpRead slot q, 0x08, beginDumpRead slot q), (.flashRead slot q, 0x09, beginFlashRead slot q),
   (.flashErase slot q, 0x0A, beginErase slot q), (.flashProgram slot q, 0x0B, beginProgram slot q),
   (.crookResetMsg slot q, 0x0C, beginReset slot q), (.shearAck slot q, 0x0D, takeShearAck slot q),
   (.eventSink slot q, 0x0E, becomeSink slot q)]

end Sys2Proof.Machine

/-- Every command has a next state in which it has taken its effect: where what the spec gives as its conditions holds, exec
answers the state that the effect leaves. An instruction of a tile stands at the head of its unit's queue with its operands and
credits there (R72 to R75, R96, R120 to R134, R140 to R168); one of a core is the word at its pc (R280, R287, R300 to R309); one
of an engine is the next of its list (R326); a request or an answer stands at its endpoint (R191, R206, R233); a message heads its
queue (R366); a register's writer is allowed (R14); every other command's tick, phase or hold has come. What each effect holds is
for the statements of its family; an unlocked debug opcode stops, as the statement on debug opcodes says. -/
def Obligations.CommandsTakeTheirEffect : Prop :=
  ∀ s : State,
    (∀ t, Due (.dispatch t) s (canFetch s t) (seqRun t)
      ∧ (∀ r ∈ seqRows t, AtWord s t r.2 → exec r.1 s = .next (seqStep t s))
      ∧ (∀ r ∈ unitRows t, ∀ e, headIs s t r.2.1 r.2.2.1 = some e → (r.2.1 = .sync → syncWaits (s.tile t) = false) →
          (r.2.1 = .vector → powerReady s = true ∧ (s.tile t).vxuFree ≤ s.now) → exec r.1 s = .next (r.2.2.2 e s))
      ∧ (∀ r ∈ vrRows, ∀ e, headIs s t .vector r.2.1 = some e → powerReady s = true → (s.tile t).vxuFree ≤ s.now →
          exec (r.1 t) s = .next (runVr r.2.2 t e s))
      ∧ Due (.tileIdle t) s (idleDue s t) (becomeIdle t)
      ∧ (∀ u n, Due (.instructionComplete t u n) s (!s.akm.frozen && !(s.tile t).held) (completeNth t u n))
      ∧ (∀ n, Due (.preread t n) s (prereadDue s t n) (prereadNth t n))
      ∧ (∀ b, Due (.bankFinal t b) s (((s.tile t).bank b).finals.any (fun p => decide (p.due ≤ s.now))) (finalize t b)))
    ∧ (∀ a, Due (.tallyWaitComplete a) s (tallyWaitReady a s) (tallyWaitFinish a))
    ∧ (∀ c w t, AtInstr s t c w 4 →
        (customWord w = false → exec (.rv64Instruction c) s = .next (execStandard c w w 4 t))
        ∧ (∀ stop, ∀ r ∈ coreRows c stop, r.2.1 w = true → exec r.1 s = .next (r.2.2 w t))
        ∧ (∀ op i, LvxArithCommand i c op → isArith op w = true → exec i s = .next (runArith c (lvxKind op) w t))
        ∧ (∀ op i, LvxReduceCommand i c op → isReduction op w = true → exec i s = .next (runReduction c op w t)))
    ∧ (∀ c w e t, AtInstr s t c w 2 → expandC w = some e → exec (.rv64Instruction c) s = .next (execStandard c w e 2 t))
    ∧ (∀ c k, s.takable c = some k → interruptible s c = true → exec (.interrupt c) s
        = .next ((waitCompletes c s).modCore c (fun x => ({ x with wait := none } : Core).enter true k 0)))
    ∧ (∀ c, Due (.mtip c) s (timerPending s c && bitOf (s.core c).csr.mie 7 && (s.core c).wfi)
          (fun s => s.modCore c (fun x => { x with wfi := false }))
        ∧ Due (.postedError c) s (decide (c < 64) && !(s.core c).held && !(s.core c).paused && !s.corePenned c && !s.akm.frozen
            && (decide ((s.core c).wait = none) || (match (s.core c).wait with
              | some (.tally _ _) => true
              | some (.hurdle _) => true
              | _ => false))) (takePosted c)
        ∧ ∀ a, Due (.speculativeRead c a) s
          (decide (c < 64) && (readsAhead s c || bitOf a.toNat 63)) (readAhead c a))
    ∧ (∀ e w, (∀ r ∈ engineRows e, AtCommand s e r.2.1 w →
          commandLegal r.2.1 w (structWord s e (8 * ((s.engine e).cmd + commandWords r.2.1 - 1))) = true →
          exec r.1 s = .next (r.2.2 w s))
        ∧ (∀ r, solveEnding s e = some r → exec (.solveFinish e) s = .next (finishSolve e r s))
        ∧ Due (.marLate e) s (engineOn s e) (noteLate e))
    ∧ (∀ n a ce ue, (∀ r ∈ requestRows n ce ue, Serves s n r.2.1 a → exec r.1 s = .next (r.2.2 a (taken n s)))
        ∧ (isHeld s a = false →
          (Serves s n opWR a → exec (.wr n) s = .next (serveWrite a (taken n s)))
          ∧ (Serves s n opATOM a → exec (.atom n ce ue) s = .next (serveAtomic ce ue a (taken n s)))))
    ∧ (∀ n d r a c op, (c, op) ∈ [(Instr.rdata n, opRDATA), (.ack n, opACK), (.err n, opERR), (.decline n, opDECLINE)] →
        s.delivered[n]? = some d → d.pkt.opcode = op → d.pkt.cls = clsRSP → wellFormedPacket d.pkt = true → r.left = 1 →
        s.requests.find? (fun q => decide (q.ep = d.ep) && decide (q.seq = d.pkt.seq)) = some r →
        answerOf r d.pkt (taken n s) = some a →
        exec c s = .next (deliverAnswer r a (reportRemote r a
          (if d.pkt.poison.isEmpty then answered s n r else (answered s n r).fresh))))
    ∧ (∀ n f err, s.flights[n]? = some f → mayMove s n f = true → injectionStopped s f = false →
        exec (.packetRoute n err) s = .next (routeStep n err f s))
    ∧ (∀ n frame, Due (.d2dFrame n frame) s (decide (n < 134) && decide (frame.length = 768) && s.bit .pfbD2dStatus n 0)
        (takeD2d n frame))
    ∧ (∀ p frame, Due (.holtimFrame p frame) s (decide (p < 16) && decide (frame.length = 1280) && (s.port p).trained)
        (holtimFrame p frame))
    ∧ (∀ k frame, Due (.ethernetFrame k frame) s
        (decide (k < 4) && s.bit .hecLinkStatus k 0 && decide (frame.length ≤ 9216)) (takeFrame_ k frame))
    ∧ (∀ k dg, Due (.init k dg) s (crookOn s k) (arriveDatagram k dg (takeInit k dg))
        ∧ Due (.finishMsg k dg) s (crookOn s k) (arriveDatagram k dg (takeFinish k dg))
        ∧ Due (.close k dg) s (crookOn s k) (arriveDatagram k dg (takeClose k dg))
        ∧ Due (.dataMsg k dg) s (crookOn s k) (arriveDatagram k dg (takeData k dg))
        ∧ Due (.crookAck k dg) s (crookOn s k) (arriveDatagram k dg (takeAck k dg)))
    ∧ (∀ slot q x m rest, ∀ r ∈ messageRows slot q, MessageAt s slot q x m rest → m.op = r.2.1 → mayBegin s x m = true →
        (s.fatalHold = false ∨ m.op ∈ [0x03, 0x08, 0x0C, 0x0E]) → exec r.1 s = .next (r.2.2 x m s))
    ∧ (∀ pc bank, Due (.refresh pc bank) s (decide (pc < 512) && decide (bank < 64) && memoryUp s && !s.pcPenned pc) id)
    ∧ (∀ k, Due (.stackCalibration k) s (calibrationDue s k) (calibrateNext k) ∧ Due (.forcedCalibration k) s (forcedDue s k) (calibrate k))
    ∧ (∀ pc ce ue, Due (.patrolScrub pc ce ue) s (scrubDue s pc) (scrubGranule pc ce ue))
    ∧ (∀ p, Due (.portSaturation p) s (portSaturated s p) (saturatePort p))
    ∧ (∀ h, Due (.hurdleRelease h) s (releaseDue h s && !s.akm.frozen) (releaseHurdle h)
        ∧ Due (.nodeArriveResend h) s (resendDue h s && !s.akm.frozen) (sendNodeArrive h))
    ∧ Due .tsyncEdge s s.working tsyncEdge ∧ Due .tsyncLost s (tsyncLostDue s && s.working) tsyncLose
    ∧ Due .timeExchange s (timeExchangeDue s) startExchange
    ∧ (∀ k, Due (.qwinOpen k) s (inWindow s k && !isOpen s k) (openWindow k)
        ∧ Due (.qwinClose k) s (isOpen s k && !inWindow s k) (closeWindow k))
    ∧ (∀ p node plane, Due (.assign p node plane) s (decide (p < 16) && decide (node < 65536) && decide (plane < 256))
        (assignPort p node plane))
    ∧ (∀ p, Due (.linkDown p) s (decide (p < 16) && (s.port p).trained) (dropLink p)
        ∧ Due (.linkUp p) s (decide (p < 16) && !(s.port p).trained && !s.brc.tapDrive && decide (5 ≤ s.bootPhase)) (trainPort p)
        ∧ (∀ tag r, p < 16 → expired s p tag = some r → exec (.requestTimeout p tag) s = .next (endRequest p r s))
        ∧ ∀ l, Due (.holtimSaturation p l) s (holtimSaturated s p l) (saturatePlane p l))
    ∧ (∀ k, Due (.ethLinkUp k) s (decide (k < 4) && decide (s.field .hecLinkStatus k 0 1 2 ≠ 0) && !s.bit .hecLinkStatus k 0
          && !s.brc.tapDrive && decide (5 ≤ s.bootPhase)) (ethUp k)
        ∧ Due (.ethLinkDown k) s (decide (k < 4) && s.bit .hecLinkStatus k 0) (ethDown k))
    ∧ (∀ n h, overdueHandshake s n = some h → exec (.handshakeTimeout n) s = .next (dropHandshake h.link h.hid s))
    ∧ (∀ slot, Due (.sessionIdleTimeout slot) s (idleSession slot s) (endSession slot)
        ∧ ∀ seq, exec (.retransmit slot seq) s = .next (retransmit slot seq s))
    ∧ (∀ (src : Requester) (v : Word),
        (∀ t, t < 576 → s.tileOn t = true → Written (.tilSeqCommit t src v) src s true (tilCommit t v))
        ∧ Written (.pfbPenReq src v) src s (decide (src = .akm)) (penRequest v)
        ∧ Written (.memPenReq src v) src s (decide (src = .akm)) (memPenReq v)
        ∧ Written (.memMapCommit src v) src s true (memMapCommit v)
        ∧ (∀ m, m < 131072 → s.tallyOwnerOff m = false → Written (.synTallyWrite m src v) src s (decide (s.jid = 0)) (writeTally m v))
        ∧ Written (.synHcommit src v) src s true (synHcommit v) ∧ Written (.synTreeCommit src v) src s true (synTreeCommit v)
        ∧ Written (.synDesigCommit src v) src s true (synDesigCommit v)
        ∧ Written (.synQwinCommit src v) src s true (synQwinCommit v)
        ∧ Written (.hfiPlaneCommit src v) src s true (hfiPlaneCommit v) ∧ Written (.hfiWinCommit src v) src s true (hfiWinCommit v)
        ∧ Written (.hfiTmo src v) src s true (hfiTmo v) ∧ Written (.prcStartCommit src v) src s true (prcStartCommit v)
        ∧ Written (.prcPmaCommit src v) src s true (prcPmaCommit v) ∧ Written (.prcAperCommit src v) src s true (prcAperCommit v)
        ∧ (∀ c sup, c < 64 → Written (.msiWrite src c sup v) src s true (msiWrite c sup v))
        ∧ (∀ e, e < 16 → Written (.marStartCommit e src v) src s true (marStart e v))
        ∧ Written (.ckpCutCommit src v) src s true (ckpCutCommit v) ∧ Written (.restoreJob src v) src s true (startRestore v)
        ∧ Written (.ckpLaunchCommit src v) src s true (ckpLaunchCommit v)
        ∧ Written (.ckpLaunchSend src v) src s true (ckpLaunchSend v)
        ∧ Written (.hecEvtPost src v) src s true (postEvent src v)
        ∧ (mayAddress src = true → exec (.hecDbPop src) s = .next (popDoorbell s))
        ∧ Written (.brcWdogKick src v) src s (decide (src = .akm)) (kickWatchdog v)
        ∧ Written (.jobChange src v) src s (hecOrAkm src) (writeJob v) ∧ Written (.aksQuote src v) src s true (startQuote src v)
        ∧ Written (.peerLoad src v) src s true (loadPeer v) ∧ Written (.debugToken src v) src s true (checkToken v)
        ∧ Written (.akmPenCmd src v) src s (isHec src) (penCommand v) ∧ Written (.pwrCap src v) src s (hecOrAkm src) (writeCap v)
        ∧ (∀ a, exec (.registerWrite src a v) s = .next (writeRegister src a v s)))
    ∧ Due .pmaApply s (s.bit .prcPmaCommit 0 5) pmaApply
    ∧ Due .eagerCopyComplete s (!s.akm.frozen) eagerCopyDone
    ∧ (∀ page, Due (.pageCopyOut page) s (s.ckp.copyRequests.elem page && s.ckp.fleece.isSome && !s.akm.frozen) (copyRequested page))
    ∧ Due .shearPage s (s.ckp.fleece.isSome && !s.akm.frozen) shearNext
    ∧ Due .restoreComplete s (s.ckp.restore.isSome && !s.akm.frozen) restoreStep
    ∧ Due .launchStall s (stallDue s) stallLaunch
    ∧ (∀ job, s.akm.frozen = false → s.aks.jobChange = some job → oldJobOutstanding s = false →
        exec .jobChangeComplete s = .next (endJobChange job s))
    ∧ exec .quoteComplete s = .next (endQuote s) ∧ exec .signatureComplete s = .next (endSignature s)
    ∧ Due .flashOpDone s (!s.brc.off) flashDone ∧ Due .crookReset s (crookResetDue s) (recognise causeCROOK 0)
    ∧ Due .vstbyRising s (!s.brc.vstby) powerOn ∧ Due .vstbyFalling s s.brc.vstby powerOff ∧ Due .pwrOkRise s (!s.brc.pwrOk) pwrOkRise
    ∧ (∀ ns, exec (.rstN ns) s = .next (pinPulse ns s) ∧ ∀ cond, exec (.powerGoodFail cond ns) s = .next (powerGoodFail cond ns s))
    ∧ Due .watchdogExpiry s (watchdogDue s) (recognise causeWATCHDOG 0)
    ∧ (∀ sensor celsius, Due (.thermalTrip sensor celsius) s (decide (sensor < 30) && !s.brc.off) (tripReading sensor celsius)
        ∧ Due (.thermalAlert sensor celsius) s
          (decide (sensor < 31) && decide ((if sensor = 30 then 85 else 105) ≤ celsius) && s.working) (thermalAlert sensor celsius))
    ∧ (∀ d, Due (.glitchDetect d) s (decide (1 ≤ d) && decide (d ≤ 3)) (recognise causeSECURITY d))
    ∧ Due .i3cTargetReset s (decide (s.brc.rstact ≠ some 0)) (recognise causeI3C 0)
    ∧ Due .akmMemoryUe s (!s.brc.off && s.brc.hold.isNone) (recognise causeFATAL_ESC (s.field .akmFatal 0 0 0 16))
    ∧ (∀ hot, Due (.resetHoldEnd hot) s (holdOver s) (beginP0 hot))
    ∧ Due .thermalWaitEnd s (inPhase s 0 && s.bit .brcBootStatus 0 7) thermalWaitEnd
    ∧ Due .bootP0Done s (phaseEnds s 0 && !s.bit .brcBootStatus 0 7 && s.brc.flashOp.isNone) endP0
    ∧ (∀ l l' l'', Due (.bootP1Done l) s (phaseEnds s 1) (endP1 l) ∧ Due (.bootP2Done l) s (phaseEnds s 2) (endP2 l)
        ∧ Due (.bootP3Done l l' l'') s (phaseEnds s 3) (endP3 l l' l''))
    ∧ Due .bootP4Done s (phaseEnds s 4) (enterPhase 5) ∧ Due .bootP5Done s (phaseEnds s 5) endP5
    ∧ Due .bootPhaseTimeout s (phaseOverdue s) (bootFail 5)
    ∧ Due .hotJoin s (hotJoinDue s) (fun s => { s with brc := { s.brc with hotJoinReq := true } })
    ∧ (∀ da, Due (.entdaa da) s (pidFormed s && s.brc.da.isNone) (assignAddress da)) ∧ Due .rstdaa s (i3cUp s) clearAddress
    ∧ (∀ b : Byte, Due (.enec b) s (i3cUp s) (fun s => { s with brc := { s.brc with i3cEvents := s.brc.i3cEvents ||| b.toNat } })
        ∧ Due (.disec b) s (i3cUp s)
          (fun s => { s with brc := { s.brc with i3cEvents := s.brc.i3cEvents ^^^ (s.brc.i3cEvents &&& b.toNat) } })
        ∧ Due (.rstact b) s (i3cUp s) (fun s => { s with brc := { s.brc with rstact := some b } }))
    ∧ (∀ r ∈ [(Instr.getpid, i3cReturn (bytesBE 6 (s.field .brcI3c 0 0 8 48))),
          (.getbcr, i3cReturn (bytesOf 1 (s.field .brcI3c 0 0 56 8))), (.getdcr, i3cReturn [0]), (.getstatus, i3cReturnFree),
          (.getmwl, i3cReturnFree), (.getmrl, i3cReturnFree)], Due r.1 s (addressedI3c s) r.2)
    ∧ (∀ a v b, Due (.i3cRegrd a) s (addressedI3c s) (i3cReadReg a) ∧ Due (.i3cRegwr a v) s (addressedI3c s) (i3cWriteReg a v)
        ∧ Due (.i3cFlashErase a) s (addressedI3c s) (i3cFlash (.erase a) (decide (a % 0x10000 = 0)) a)
        ∧ Due (.i3cFlashProgram a b) s (addressedI3c s)
          (i3cFlash (.program a b) (decide (a % 256 = 0) && decide (b.length = 256)) a))
    ∧ (∀ n, Due (.undertakenCredit n) s (akmWorks s) (sendUndertaken n))
    ∧ (∀ t slack, Due (.marginAlarm t slack) s (akmWorks s && s.tileOn t && decide (slack < 20)) (alarm t slack))
    ∧ (∀ k l, Due (.ageingMeasurement k l) s (akmWorks s && windowServes s k 1) (measureFolds l)
        ∧ Due (.marginAdjustment k) s (akmWorks s && windowServes s k 2)
          (forEach (List.range 16) (fun f s => if (Table.get [] s.akm.slacks f).isEmpty then s else adjustFold f s)))
    ∧ (∀ f, Due (.dailyAgeingRecord f) s (dailyDue s f) (dailyRecord f))
    ∧ (∀ temps vin, Due (.telemetrySample temps vin) s (telemetryDue s) (sampleSensors temps vin))
    ∧ (∀ mean, Due (.powerComparison mean) s (comparisonDue s) (comparePower mean))
    ∧ (∀ code, Due (.fatalError code) s (fatalCounts s code) (raiseFatal code))
    ∧ Due .freezeComplete s (s.working && decide (fatalStage s = 1) && !freezeOverdue s) freezeNode
    ∧ Due .dumpComplete s (decide (fatalStage s = 2) && !dumpOverdue s) finishDump
    ∧ Due .freezeTimeout s (s.working && decide (fatalStage s = 1) && freezeOverdue s) escalate
    ∧ Due .dumpTimeout s (decide (fatalStage s = 2) && dumpOverdue s) escalate
    ∧ Due .holdExpiry s (holdExpired s) (recognise causeHOLD_EXPIRY 0)
    ∧ (∀ r ∈ [(Instr.tapReset, selectTap 0xFF false false), (.samplePreload, samplePins), (.extest, scanTap 0x02 true false),
          (.extestPulse, scanTap 0x03 true false), (.extestTrain, scanTap 0x04 true false), (.tapClamp, scanTap 0x05 true false),
          (.highz, scanTap 0x06 true true), (.tapBypass, scanTap 0xFF false false)], Due r.1 s (tapWorks s) r.2)
    ∧ (∀ op : Byte, (s.bit .aksStatus 0 1 = false → Due (.coreDebug op) s (tapWorks s) (scanTap 0xFF false false))
        ∧ (s.bit .aksStatus 0 2 = false → Due (.internalScan op) s (tapWorks s) (scanTap 0xFF false false)))
end

