-- ==== Sys2Proof/Laws/Table.lean ====
section
/-! SUPPORT. The laws of the sparse tables: what a table reads after a write, and that every write keeps its form. -/

namespace Sys2Proof.Table

variable {α : Type}

/-- Keys that rise from a number rise from every smaller one. -/
theorem risesFrom_mono {m : Table α} {a b : Nat} (h : risesFrom b m = true) (hab : a ≤ b) : risesFrom a m = true := by
  cases m with
  | nil => rfl
  | cons e m =>
    simp only [risesFrom, Bool.and_eq_true, decide_eq_true_eq] at h ⊢
    exact ⟨by omega, h.2⟩

/-- Below every key a table reads its default. -/
theorem get_below {d : α} {m : Table α} {a n : Nat} (h : risesFrom a m = true) (hn : n < a) : get d m n = d := by
  cases m with
  | nil => rfl
  | cons e m =>
    simp only [risesFrom, Bool.and_eq_true, decide_eq_true_eq] at h
    simp only [get]
    rw [if_neg (by omega), if_pos (by omega)]

theorem risesFrom_insert {m : Table α} {a n : Nat} {x : α} (h : risesFrom a m = true) (hn : a ≤ n) :
    risesFrom a (insert m n x) = true := by
  induction m generalizing a with
  | nil => simp [insert, risesFrom, hn]
  | cons e m ih =>
    obtain ⟨k, v⟩ := e
    simp only [risesFrom, Bool.and_eq_true, decide_eq_true_eq] at h
    simp only [insert]
    split
    · subst_vars; simp [risesFrom, hn, h.2]
    · split
      · simp only [risesFrom, Bool.and_eq_true, decide_eq_true_eq]
        exact ⟨hn, by omega, h.2⟩
      · simp only [risesFrom, Bool.and_eq_true, decide_eq_true_eq]
        exact ⟨h.1, ih h.2 (by omega)⟩

theorem risesFrom_remove {m : Table α} {a n : Nat} (h : risesFrom a m = true) : risesFrom a (remove m n) = true := by
  induction m generalizing a with
  | nil => rfl
  | cons e m ih =>
    obtain ⟨k, v⟩ := e
    simp only [risesFrom, Bool.and_eq_true, decide_eq_true_eq] at h
    simp only [remove]
    split
    · exact risesFrom_mono h.2 (by omega)
    · split
      · simp [risesFrom, h.1, h.2]
      · simp [risesFrom, h.1, ih h.2]

theorem mem_insert {m : Table α} {n : Nat} {x : α} {e : Nat × α} (h : e ∈ insert m n x) : e = (n, x) ∨ e ∈ m := by
  induction m with
  | nil => simpa [insert] using h
  | cons f m ih =>
    obtain ⟨k, v⟩ := f
    simp only [insert] at h
    split at h
    · rcases List.mem_cons.1 h with h | h
      · exact Or.inl h
      · exact Or.inr (List.mem_cons_of_mem _ h)
    · split at h
      · rcases List.mem_cons.1 h with h | h
        · exact Or.inl h
        · exact Or.inr h
      · rcases List.mem_cons.1 h with h | h
        · exact Or.inr (h ▸ List.mem_cons_self)
        · rcases ih h with h | h
          · exact Or.inl h
          · exact Or.inr (List.mem_cons_of_mem _ h)

theorem mem_remove {m : Table α} {n : Nat} {e : Nat × α} (h : e ∈ remove m n) : e ∈ m := by
  induction m with
  | nil => exact h
  | cons f m ih =>
    obtain ⟨k, v⟩ := f
    simp only [remove] at h
    split at h
    · exact List.mem_cons_of_mem _ h
    · split at h
      · exact h
      · rcases List.mem_cons.1 h with h | h
        · exact h ▸ List.mem_cons_self
        · exact List.mem_cons_of_mem _ (ih h)

/-- A write keeps the rising order of keys. -/
theorem risesFrom_set [DecidableEq α] {d : α} {m : Table α} {n : Nat} {x : α} (h : risesFrom 0 m = true) :
    risesFrom 0 (set d m n x) = true := by
  unfold set
  split
  · exact risesFrom_remove h
  · exact risesFrom_insert h (Nat.zero_le _)

/-- A write keeps the canonical form. -/
theorem wf_set [DecidableEq α] {d : α} {m : Table α} {n : Nat} {x : α} (h : wf d m = true) : wf d (set d m n x) = true := by
  simp only [wf, Bool.and_eq_true, List.all_eq_true, decide_eq_true_eq] at h ⊢
  refine ⟨risesFrom_set h.1, fun e he => ?_⟩
  unfold set at he
  split at he
  · exact h.2 e (mem_remove he)
  · rename_i hx
    rcases mem_insert he with rfl | he
    · exact hx
    · exact h.2 e he

theorem wf_risesFrom [DecidableEq α] {d : α} {m : Table α} (h : wf d m = true) : risesFrom 0 m = true := by
  simp only [wf, Bool.and_eq_true] at h
  exact h.1

theorem get_insert_self {d : α} {m : Table α} {n : Nat} {x : α} : get d (insert m n x) n = x := by
  induction m with
  | nil => simp [insert, get]
  | cons e m ih =>
    obtain ⟨k, v⟩ := e
    simp only [insert]
    split
    · simp [get]
    · split
      · simp [get]
      · rename_i h1 h2
        simp only [get, if_neg h1, if_neg h2, ih]

theorem get_insert_other {d : α} {m : Table α} {n j : Nat} {x : α} {a : Nat} (h : risesFrom a m = true) (hj : j ≠ n) :
    get d (insert m n x) j = get d m j := by
  induction m generalizing a with
  | nil => simp only [insert, get]; split <;> simp_all
  | cons e m ih =>
    obtain ⟨k, v⟩ := e
    simp only [risesFrom, Bool.and_eq_true, decide_eq_true_eq] at h
    simp only [insert]
    split
    · subst_vars; simp only [get, if_neg hj]
    · split
      · rename_i h1 h2
        rcases Nat.lt_or_gt_of_ne hj with h3 | h3
        · simp only [get, if_neg hj, if_pos h3, if_neg (show ¬ j = k by omega), if_pos (show j < k by omega)]
        · simp only [get, if_neg hj, if_neg (show ¬ j < n by omega)]
      · simp only [get, ih h.2]

theorem get_remove_self {d : α} {m : Table α} {n a : Nat} (h : risesFrom a m = true) : get d (remove m n) n = d := by
  induction m generalizing a with
  | nil => rfl
  | cons e m ih =>
    obtain ⟨k, v⟩ := e
    simp only [risesFrom, Bool.and_eq_true, decide_eq_true_eq] at h
    simp only [remove]
    split
    · subst_vars; exact get_below h.2 (by omega)
    · split
      · rename_i h1 h2; simp only [get, if_neg h1, if_pos h2]
      · rename_i h1 h2; simp only [get, if_neg h1, if_neg h2, ih h.2]

theorem get_remove_other {d : α} {m : Table α} {n j a : Nat} (h : risesFrom a m = true) (hj : j ≠ n) :
    get d (remove m n) j = get d m j := by
  induction m generalizing a with
  | nil => rfl
  | cons e m ih =>
    obtain ⟨k, v⟩ := e
    simp only [risesFrom, Bool.and_eq_true, decide_eq_true_eq] at h
    simp only [remove]
    split
    · subst_vars
      rcases Nat.lt_or_gt_of_ne hj with h3 | h3
      · simp only [get, if_neg hj, if_pos h3]; exact get_below h.2 (by omega)
      · rw [get, if_neg hj, if_neg (by omega)]
    · split
      · rfl
      · simp only [get, ih h.2]

/-- A write is read back. -/
theorem get_set_self [DecidableEq α] {d : α} {m : Table α} {n : Nat} {x : α} (h : risesFrom 0 m = true) :
    get d (set d m n x) n = x := by
  unfold set
  split
  · subst_vars; exact get_remove_self h
  · exact get_insert_self

/-- A write leaves every other key, whatever default it is read with. -/
theorem get_set_other [DecidableEq α] {d e : α} {m : Table α} {n j : Nat} {x : α} (h : risesFrom 0 m = true) (hj : j ≠ n) :
    get e (set d m n x) j = get e m j := by
  unfold set
  split
  · exact get_remove_other h hj
  · exact get_insert_other h hj

/-- What a table reads after a write. -/
theorem get_set [DecidableEq α] {d : α} {m : Table α} {n j : Nat} {x : α} (h : risesFrom 0 m = true) :
    get d (set d m n x) j = if j = n then x else get d m j := by
  split
  · subst_vars; exact get_set_self h
  · rename_i hj; exact get_set_other h hj

theorem risesFrom_filter {m : Table α} {a : Nat} {p : Nat × α → Bool} (h : risesFrom a m = true) :
    risesFrom a (m.filter p) = true := by
  induction m generalizing a with
  | nil => rfl
  | cons e m ih =>
    obtain ⟨k, v⟩ := e
    simp only [risesFrom, Bool.and_eq_true, decide_eq_true_eq] at h
    simp only [List.filter_cons]
    split
    · simp [risesFrom, h.1, ih h.2]
    · exact risesFrom_mono (ih h.2) (by omega)

/-- Leaving entries out keeps the canonical form. -/
theorem wf_filter [DecidableEq α] {d : α} {m : Table α} {p : Nat × α → Bool} (h : wf d m = true) :
    wf d (m.filter p) = true := by
  simp only [wf, Bool.and_eq_true, List.all_eq_true, decide_eq_true_eq] at h ⊢
  exact ⟨risesFrom_filter h.1, fun e he => h.2 e (List.mem_filter.1 he).1⟩

/-- Leaving out entries by their keys leaves the others. -/
theorem get_filter {d : α} {m : Table α} {p : Nat → Bool} {n a : Nat} (h : risesFrom a m = true) :
    get d (m.filter (fun e => p e.1)) n = if p n then get d m n else d := by
  induction m generalizing a with
  | nil => simp [get]
  | cons e m ih =>
    obtain ⟨k, v⟩ := e
    simp only [risesFrom, Bool.and_eq_true, decide_eq_true_eq] at h
    simp only [List.filter_cons, get]
    by_cases hk : n = k
    · subst hk
      split
      · simp [get]
      · simp [get_below (risesFrom_filter h.2) (Nat.lt_succ_self n)]
    · by_cases hlt : n < k
      · have hb := get_below (d := d) (risesFrom_filter (p := fun e => p e.1) h.2) (show n < k + 1 by omega)
        split <;> simp [get, hk, hlt, hb]
      · have hi := ih h.2
        split <;> simp only [get, if_neg hk, if_neg hlt, hi]

end Sys2Proof.Table
end

