-- ==== Sys2Proof/Laws/Memory.lean ====
section
/-! SUPPORT. The laws of the byte memories: what is read after a write, and that every memory operation keeps the canonical
form. -/

namespace Sys2Proof.Machine

theorem Memory.write_wf {d : Byte} {b : List Byte} {m : List Host.Cell} {a : Nat} (h : Memory.wf d m = true) :
    Memory.wf d (Memory.write d m a b) = true := by
  induction b generalizing m a with
  | nil => exact h
  | cons x b ih => exact ih (Table.wf_set h)

theorem Memory.clear_wf {d : Byte} {m : List Host.Cell} {lo n : Nat} (h : Memory.wf d m = true) :
    Memory.wf d (Memory.clear m lo n) = true := Table.wf_filter h

theorem Memory.risesFrom_write {d : Byte} {b : List Byte} {m : List Host.Cell} {a : Nat} (h : Table.risesFrom 0 m = true) :
    Table.risesFrom 0 (Memory.write d m a b) = true := by
  induction b generalizing m a with
  | nil => exact h
  | cons x b ih => exact ih (Table.risesFrom_set h)

/-- What a byte reads after a write. -/
theorem Memory.get_write {d : Byte} {b : List Byte} {m : List Host.Cell} {a n : Nat} (h : Table.risesFrom 0 m = true) :
    Table.get d (Memory.write d m a b) n = if a ≤ n ∧ n < a + b.length then b.getD (n - a) 0 else Table.get d m n := by
  induction b generalizing m a with
  | nil => simp only [Memory.write, List.length_nil]; rw [if_neg (by omega)]
  | cons x b ih =>
    rw [Memory.write, ih (Table.risesFrom_set h), Table.get_set h]
    simp only [List.length_cons]
    by_cases h1 : a + 1 ≤ n ∧ n < a + 1 + b.length
    · rw [if_pos h1, if_pos (by omega), show n - a = (n - (a + 1)) + 1 by omega, List.getD_cons_succ]
    · rw [if_neg h1]
      by_cases h2 : n = a
      · subst h2; rw [if_pos rfl, if_pos (by omega), Nat.sub_self, List.getD_cons_zero]
      · rw [if_neg h2, if_neg (by omega)]

/-- What a byte reads after a range is cleared. -/
theorem Memory.get_clear {d : Byte} {m : List Host.Cell} {lo k n : Nat} (h : Table.risesFrom 0 m = true) :
    Table.get d (Memory.clear m lo k) n = if lo ≤ n ∧ n < lo + k then d else Table.get d m n := by
  rw [Memory.clear, Table.get_filter (p := fun x => !(decide (lo ≤ x) && decide (x < lo + k))) h]
  by_cases h1 : lo ≤ n ∧ n < lo + k
  · simp [h1]
  · rw [if_neg h1, if_pos]
    rw [Bool.not_eq_true', Bool.and_eq_false_iff, decide_eq_false_iff_not, decide_eq_false_iff_not]
    omega

theorem Memory.read_length {d : Byte} {m : List Host.Cell} {a n : Nat} : (Memory.read d m a n).length = n := by
  induction n generalizing a with
  | zero => rfl
  | succ n ih => simp [Memory.read, ih]

/-- Byte `i` of a read. -/
theorem Memory.read_getD {d : Byte} {m : List Host.Cell} {a n i : Nat} (hi : i < n) :
    (Memory.read d m a n).getD i 0 = Table.get d m (a + i) := by
  induction n generalizing a i with
  | zero => omega
  | succ n ih =>
    cases i with
    | zero => simp [Memory.read]
    | succ i =>
      rw [Memory.read, List.getD_cons_succ, ih (by omega), show a + 1 + i = a + (i + 1) by omega]

/-- Two reads that agree byte by byte are equal. -/
theorem Memory.read_congr {d : Byte} {m m' : List Host.Cell} {a n : Nat}
    (h : ∀ i, i < n → Table.get d m (a + i) = Table.get d m' (a + i)) : Memory.read d m a n = Memory.read d m' a n := by
  induction n generalizing a with
  | zero => rfl
  | succ n ih =>
    rw [Memory.read, Memory.read, show Table.get d m a = Table.get d m' a from h 0 (by omega)]
    rw [ih (a := a + 1) fun i hi => by have := h (i + 1) (by omega); rwa [show a + 1 + i = a + (i + 1) by omega]]

/-- What was written is read back. -/
theorem Memory.read_write_self {d : Byte} {m : List Host.Cell} {a : Nat} {b : List Byte} (h : Table.risesFrom 0 m = true) :
    Memory.read d (Memory.write d m a b) a b.length = b := by
  refine List.ext_getElem (by rw [Memory.read_length]) fun i h1 h2 => ?_
  have := Memory.read_getD (d := d) (m := Memory.write d m a b) (a := a) h2
  rw [Memory.get_write h, if_pos (by omega), Nat.add_sub_cancel_left] at this
  simpa [List.getD_eq_getElem?_getD, List.getElem?_eq_getElem h1, List.getElem?_eq_getElem h2] using this

/-- A write leaves every byte outside it. -/
theorem Memory.read_write_other {d : Byte} {m : List Host.Cell} {a c n : Nat} {b : List Byte}
    (h : Table.risesFrom 0 m = true) (hd : c + n ≤ a ∨ a + b.length ≤ c) :
    Memory.read d (Memory.write d m a b) c n = Memory.read d m c n :=
  Memory.read_congr fun i hi => by rw [Memory.get_write h, if_neg (by omega)]

/-! ### The node's memories -/

theorem State.memWf_writeMem {s : State} {a : Nat} {b : List Byte} (h : s.memWf = true) : (s.writeMem a b).memWf = true := by
  simp only [State.memWf, Bool.and_eq_true] at h ⊢
  exact ⟨Memory.write_wf h.1, h.2⟩

theorem State.memWf_clearMem {s : State} {a n : Nat} (h : s.memWf = true) : (s.clearMem a n).memWf = true := by
  simp only [State.memWf, Bool.and_eq_true] at h ⊢
  exact ⟨Memory.clear_wf h.1, h.2⟩

theorem State.memWf_programFlash {s : State} {a : Nat} {b : List Byte} (h : s.memWf = true) :
    (s.programFlash a b).memWf = true := by
  simp only [State.memWf, Bool.and_eq_true] at h ⊢
  exact ⟨h.1, Memory.write_wf h.2⟩

theorem State.memWf_eraseFlash {s : State} {a : Nat} (h : s.memWf = true) : (s.eraseFlash a).memWf = true := by
  simp only [State.memWf, Bool.and_eq_true] at h ⊢
  exact ⟨h.1, Memory.clear_wf h.2⟩

/-- The form depends on the two memories alone. -/
theorem State.memWf_congr {s t : State} (hm : t.mem = s.mem) (hf : t.flash = s.flash) : t.memWf = s.memWf := by
  simp only [State.memWf, hm, hf]

/-- The memories of the reset state have the canonical form. -/
theorem State.memWf_reset : State.reset.memWf = true := by decide

end Sys2Proof.Machine
end

