-- ==== Sys2Proof/Laws/State.lean ====
section
/-! SUPPORT. What each named update of the state leaves in each field, true by computation, so that no proof unfolds a record
update. -/

namespace Sys2Proof.Machine

/-! ### `setTile` -/

@[simp] theorem State.setTile_pending (s : State) (t : Nat) (x : Tile) : (s.setTile t x).pending = s.pending := rfl
@[simp] theorem State.setTile_freeCtr (s : State) (t : Nat) (x : Tile) : (s.setTile t x).freeCtr = s.freeCtr := rfl
@[simp] theorem State.setTile_answer (s : State) (t : Nat) (x : Tile) : (s.setTile t x).answer = s.answer := rfl
@[simp] theorem State.setTile_now (s : State) (t : Nat) (x : Tile) : (s.setTile t x).now = s.now := rfl
@[simp] theorem State.setTile_time (s : State) (t : Nat) (x : Tile) : (s.setTile t x).time = s.time := rfl
@[simp] theorem State.setTile_tstate (s : State) (t : Nat) (x : Tile) : (s.setTile t x).tstate = s.tstate := rfl
@[simp] theorem State.setTile_regs (s : State) (t : Nat) (x : Tile) : (s.setTile t x).regs = s.regs := rfl
@[simp] theorem State.setTile_shadow (s : State) (t : Nat) (x : Tile) : (s.setTile t x).shadow = s.shadow := rfl
@[simp] theorem State.setTile_captured (s : State) (t : Nat) (x : Tile) : (s.setTile t x).captured = s.captured := rfl
@[simp] theorem State.setTile_mem (s : State) (t : Nat) (x : Tile) : (s.setTile t x).mem = s.mem := rfl
@[simp] theorem State.setTile_flash (s : State) (t : Nat) (x : Tile) : (s.setTile t x).flash = s.flash := rfl
@[simp] theorem State.setTile_poison (s : State) (t : Nat) (x : Tile) : (s.setTile t x).poison = s.poison := rfl
@[simp] theorem State.setTile_wrong (s : State) (t : Nat) (x : Tile) : (s.setTile t x).wrong = s.wrong := rfl
@[simp] theorem State.setTile_snap (s : State) (t : Nat) (x : Tile) : (s.setTile t x).snap = s.snap := rfl
@[simp] theorem State.setTile_heldWrites (s : State) (t : Nat) (x : Tile) : (s.setTile t x).heldWrites = s.heldWrites := rfl
@[simp] theorem State.setTile_fullSince (s : State) (t : Nat) (x : Tile) : (s.setTile t x).fullSince = s.fullSince := rfl
@[simp] theorem State.setTile_scrub (s : State) (t : Nat) (x : Tile) : (s.setTile t x).scrub = s.scrub := rfl
@[simp] theorem State.setTile_scrubAt (s : State) (t : Nat) (x : Tile) : (s.setTile t x).scrubAt = s.scrubAt := rfl
@[simp] theorem State.setTile_calAt (s : State) (t : Nat) (x : Tile) : (s.setTile t x).calAt = s.calAt := rfl
@[simp] theorem State.setTile_flights (s : State) (t : Nat) (x : Tile) : (s.setTile t x).flights = s.flights := rfl
@[simp] theorem State.setTile_arb (s : State) (t : Nat) (x : Tile) : (s.setTile t x).arb = s.arb := rfl
@[simp] theorem State.setTile_penDue (s : State) (t : Nat) (x : Tile) : (s.setTile t x).penDue = s.penDue := rfl
@[simp] theorem State.setTile_raised (s : State) (t : Nat) (x : Tile) : (s.setTile t x).raised = s.raised := rfl
@[simp] theorem State.setTile_delivered (s : State) (t : Nat) (x : Tile) : (s.setTile t x).delivered = s.delivered := rfl
@[simp] theorem State.setTile_requests (s : State) (t : Nat) (x : Tile) : (s.setTile t x).requests = s.requests := rfl
@[simp] theorem State.setTile_seqs (s : State) (t : Nat) (x : Tile) : (s.setTile t x).seqs = s.seqs := rfl
@[simp] theorem State.setTile_d2d (s : State) (t : Nat) (x : Tile) : (s.setTile t x).d2d = s.d2d := rfl
@[simp] theorem State.setTile_ports (s : State) (t : Nat) (x : Tile) : (s.setTile t x).ports = s.ports := rfl
@[simp] theorem State.setTile_tallies (s : State) (t : Nat) (x : Tile) : (s.setTile t x).tallies = s.tallies := rfl
@[simp] theorem State.setTile_hurdles (s : State) (t : Nat) (x : Tile) : (s.setTile t x).hurdles = s.hurdles := rfl
@[simp] theorem State.setTile_tiles (s : State) (t : Nat) (x : Tile) : (s.setTile t x).tiles = Table.set {} s.tiles t x := rfl
@[simp] theorem State.setTile_cores (s : State) (t : Nat) (x : Tile) : (s.setTile t x).cores = s.cores := rfl
@[simp] theorem State.setTile_lines (s : State) (t : Nat) (x : Tile) : (s.setTile t x).lines = s.lines := rfl
@[simp] theorem State.setTile_aplicM (s : State) (t : Nat) (x : Tile) : (s.setTile t x).aplicM = s.aplicM := rfl
@[simp] theorem State.setTile_aplicS (s : State) (t : Nat) (x : Tile) : (s.setTile t x).aplicS = s.aplicS := rfl
@[simp] theorem State.setTile_wires (s : State) (t : Nat) (x : Tile) : (s.setTile t x).wires = s.wires := rfl
@[simp] theorem State.setTile_engines (s : State) (t : Nat) (x : Tile) : (s.setTile t x).engines = s.engines := rfl
@[simp] theorem State.setTile_qwins (s : State) (t : Nat) (x : Tile) : (s.setTile t x).qwins = s.qwins := rfl
@[simp] theorem State.setTile_ckp (s : State) (t : Nat) (x : Tile) : (s.setTile t x).ckp = s.ckp := rfl
@[simp] theorem State.setTile_hec (s : State) (t : Nat) (x : Tile) : (s.setTile t x).hec = s.hec := rfl
@[simp] theorem State.setTile_brc (s : State) (t : Nat) (x : Tile) : (s.setTile t x).brc = s.brc := rfl
@[simp] theorem State.setTile_aks (s : State) (t : Nat) (x : Tile) : (s.setTile t x).aks = s.aks := rfl
@[simp] theorem State.setTile_akm (s : State) (t : Nat) (x : Tile) : (s.setTile t x).akm = s.akm := rfl

/-! ### `setCore` -/

@[simp] theorem State.setCore_pending (s : State) (c : Nat) (x : Core) : (s.setCore c x).pending = s.pending := rfl
@[simp] theorem State.setCore_freeCtr (s : State) (c : Nat) (x : Core) : (s.setCore c x).freeCtr = s.freeCtr := rfl
@[simp] theorem State.setCore_answer (s : State) (c : Nat) (x : Core) : (s.setCore c x).answer = s.answer := rfl
@[simp] theorem State.setCore_now (s : State) (c : Nat) (x : Core) : (s.setCore c x).now = s.now := rfl
@[simp] theorem State.setCore_time (s : State) (c : Nat) (x : Core) : (s.setCore c x).time = s.time := rfl
@[simp] theorem State.setCore_tstate (s : State) (c : Nat) (x : Core) : (s.setCore c x).tstate = s.tstate := rfl
@[simp] theorem State.setCore_regs (s : State) (c : Nat) (x : Core) : (s.setCore c x).regs = s.regs := rfl
@[simp] theorem State.setCore_shadow (s : State) (c : Nat) (x : Core) : (s.setCore c x).shadow = s.shadow := rfl
@[simp] theorem State.setCore_captured (s : State) (c : Nat) (x : Core) : (s.setCore c x).captured = s.captured := rfl
@[simp] theorem State.setCore_mem (s : State) (c : Nat) (x : Core) : (s.setCore c x).mem = s.mem := rfl
@[simp] theorem State.setCore_flash (s : State) (c : Nat) (x : Core) : (s.setCore c x).flash = s.flash := rfl
@[simp] theorem State.setCore_poison (s : State) (c : Nat) (x : Core) : (s.setCore c x).poison = s.poison := rfl
@[simp] theorem State.setCore_wrong (s : State) (c : Nat) (x : Core) : (s.setCore c x).wrong = s.wrong := rfl
@[simp] theorem State.setCore_snap (s : State) (c : Nat) (x : Core) : (s.setCore c x).snap = s.snap := rfl
@[simp] theorem State.setCore_heldWrites (s : State) (c : Nat) (x : Core) : (s.setCore c x).heldWrites = s.heldWrites := rfl
@[simp] theorem State.setCore_fullSince (s : State) (c : Nat) (x : Core) : (s.setCore c x).fullSince = s.fullSince := rfl
@[simp] theorem State.setCore_scrub (s : State) (c : Nat) (x : Core) : (s.setCore c x).scrub = s.scrub := rfl
@[simp] theorem State.setCore_scrubAt (s : State) (c : Nat) (x : Core) : (s.setCore c x).scrubAt = s.scrubAt := rfl
@[simp] theorem State.setCore_calAt (s : State) (c : Nat) (x : Core) : (s.setCore c x).calAt = s.calAt := rfl
@[simp] theorem State.setCore_flights (s : State) (c : Nat) (x : Core) : (s.setCore c x).flights = s.flights := rfl
@[simp] theorem State.setCore_arb (s : State) (c : Nat) (x : Core) : (s.setCore c x).arb = s.arb := rfl
@[simp] theorem State.setCore_penDue (s : State) (c : Nat) (x : Core) : (s.setCore c x).penDue = s.penDue := rfl
@[simp] theorem State.setCore_raised (s : State) (c : Nat) (x : Core) : (s.setCore c x).raised = s.raised := rfl
@[simp] theorem State.setCore_delivered (s : State) (c : Nat) (x : Core) : (s.setCore c x).delivered = s.delivered := rfl
@[simp] theorem State.setCore_requests (s : State) (c : Nat) (x : Core) : (s.setCore c x).requests = s.requests := rfl
@[simp] theorem State.setCore_seqs (s : State) (c : Nat) (x : Core) : (s.setCore c x).seqs = s.seqs := rfl
@[simp] theorem State.setCore_d2d (s : State) (c : Nat) (x : Core) : (s.setCore c x).d2d = s.d2d := rfl
@[simp] theorem State.setCore_ports (s : State) (c : Nat) (x : Core) : (s.setCore c x).ports = s.ports := rfl
@[simp] theorem State.setCore_tallies (s : State) (c : Nat) (x : Core) : (s.setCore c x).tallies = s.tallies := rfl
@[simp] theorem State.setCore_hurdles (s : State) (c : Nat) (x : Core) : (s.setCore c x).hurdles = s.hurdles := rfl
@[simp] theorem State.setCore_tiles (s : State) (c : Nat) (x : Core) : (s.setCore c x).tiles = s.tiles := rfl
@[simp] theorem State.setCore_cores (s : State) (c : Nat) (x : Core) : (s.setCore c x).cores = Table.set {} s.cores c x := rfl
@[simp] theorem State.setCore_lines (s : State) (c : Nat) (x : Core) : (s.setCore c x).lines = s.lines := rfl
@[simp] theorem State.setCore_aplicM (s : State) (c : Nat) (x : Core) : (s.setCore c x).aplicM = s.aplicM := rfl
@[simp] theorem State.setCore_aplicS (s : State) (c : Nat) (x : Core) : (s.setCore c x).aplicS = s.aplicS := rfl
@[simp] theorem State.setCore_wires (s : State) (c : Nat) (x : Core) : (s.setCore c x).wires = s.wires := rfl
@[simp] theorem State.setCore_engines (s : State) (c : Nat) (x : Core) : (s.setCore c x).engines = s.engines := rfl
@[simp] theorem State.setCore_qwins (s : State) (c : Nat) (x : Core) : (s.setCore c x).qwins = s.qwins := rfl
@[simp] theorem State.setCore_ckp (s : State) (c : Nat) (x : Core) : (s.setCore c x).ckp = s.ckp := rfl
@[simp] theorem State.setCore_hec (s : State) (c : Nat) (x : Core) : (s.setCore c x).hec = s.hec := rfl
@[simp] theorem State.setCore_brc (s : State) (c : Nat) (x : Core) : (s.setCore c x).brc = s.brc := rfl
@[simp] theorem State.setCore_aks (s : State) (c : Nat) (x : Core) : (s.setCore c x).aks = s.aks := rfl
@[simp] theorem State.setCore_akm (s : State) (c : Nat) (x : Core) : (s.setCore c x).akm = s.akm := rfl

/-! ### `setEngine` -/

@[simp] theorem State.setEngine_pending (s : State) (e : Nat) (x : Engine) : (s.setEngine e x).pending = s.pending := rfl
@[simp] theorem State.setEngine_freeCtr (s : State) (e : Nat) (x : Engine) : (s.setEngine e x).freeCtr = s.freeCtr := rfl
@[simp] theorem State.setEngine_answer (s : State) (e : Nat) (x : Engine) : (s.setEngine e x).answer = s.answer := rfl
@[simp] theorem State.setEngine_now (s : State) (e : Nat) (x : Engine) : (s.setEngine e x).now = s.now := rfl
@[simp] theorem State.setEngine_time (s : State) (e : Nat) (x : Engine) : (s.setEngine e x).time = s.time := rfl
@[simp] theorem State.setEngine_tstate (s : State) (e : Nat) (x : Engine) : (s.setEngine e x).tstate = s.tstate := rfl
@[simp] theorem State.setEngine_regs (s : State) (e : Nat) (x : Engine) : (s.setEngine e x).regs = s.regs := rfl
@[simp] theorem State.setEngine_shadow (s : State) (e : Nat) (x : Engine) : (s.setEngine e x).shadow = s.shadow := rfl
@[simp] theorem State.setEngine_captured (s : State) (e : Nat) (x : Engine) : (s.setEngine e x).captured = s.captured := rfl
@[simp] theorem State.setEngine_mem (s : State) (e : Nat) (x : Engine) : (s.setEngine e x).mem = s.mem := rfl
@[simp] theorem State.setEngine_flash (s : State) (e : Nat) (x : Engine) : (s.setEngine e x).flash = s.flash := rfl
@[simp] theorem State.setEngine_poison (s : State) (e : Nat) (x : Engine) : (s.setEngine e x).poison = s.poison := rfl
@[simp] theorem State.setEngine_wrong (s : State) (e : Nat) (x : Engine) : (s.setEngine e x).wrong = s.wrong := rfl
@[simp] theorem State.setEngine_snap (s : State) (e : Nat) (x : Engine) : (s.setEngine e x).snap = s.snap := rfl
@[simp] theorem State.setEngine_heldWrites (s : State) (e : Nat) (x : Engine) : (s.setEngine e x).heldWrites = s.heldWrites := rfl
@[simp] theorem State.setEngine_fullSince (s : State) (e : Nat) (x : Engine) : (s.setEngine e x).fullSince = s.fullSince := rfl
@[simp] theorem State.setEngine_scrub (s : State) (e : Nat) (x : Engine) : (s.setEngine e x).scrub = s.scrub := rfl
@[simp] theorem State.setEngine_scrubAt (s : State) (e : Nat) (x : Engine) : (s.setEngine e x).scrubAt = s.scrubAt := rfl
@[simp] theorem State.setEngine_calAt (s : State) (e : Nat) (x : Engine) : (s.setEngine e x).calAt = s.calAt := rfl
@[simp] theorem State.setEngine_flights (s : State) (e : Nat) (x : Engine) : (s.setEngine e x).flights = s.flights := rfl
@[simp] theorem State.setEngine_arb (s : State) (e : Nat) (x : Engine) : (s.setEngine e x).arb = s.arb := rfl
@[simp] theorem State.setEngine_penDue (s : State) (e : Nat) (x : Engine) : (s.setEngine e x).penDue = s.penDue := rfl
@[simp] theorem State.setEngine_raised (s : State) (e : Nat) (x : Engine) : (s.setEngine e x).raised = s.raised := rfl
@[simp] theorem State.setEngine_delivered (s : State) (e : Nat) (x : Engine) : (s.setEngine e x).delivered = s.delivered := rfl
@[simp] theorem State.setEngine_requests (s : State) (e : Nat) (x : Engine) : (s.setEngine e x).requests = s.requests := rfl
@[simp] theorem State.setEngine_seqs (s : State) (e : Nat) (x : Engine) : (s.setEngine e x).seqs = s.seqs := rfl
@[simp] theorem State.setEngine_d2d (s : State) (e : Nat) (x : Engine) : (s.setEngine e x).d2d = s.d2d := rfl
@[simp] theorem State.setEngine_ports (s : State) (e : Nat) (x : Engine) : (s.setEngine e x).ports = s.ports := rfl
@[simp] theorem State.setEngine_tallies (s : State) (e : Nat) (x : Engine) : (s.setEngine e x).tallies = s.tallies := rfl
@[simp] theorem State.setEngine_hurdles (s : State) (e : Nat) (x : Engine) : (s.setEngine e x).hurdles = s.hurdles := rfl
@[simp] theorem State.setEngine_tiles (s : State) (e : Nat) (x : Engine) : (s.setEngine e x).tiles = s.tiles := rfl
@[simp] theorem State.setEngine_cores (s : State) (e : Nat) (x : Engine) : (s.setEngine e x).cores = s.cores := rfl
@[simp] theorem State.setEngine_lines (s : State) (e : Nat) (x : Engine) : (s.setEngine e x).lines = s.lines := rfl
@[simp] theorem State.setEngine_aplicM (s : State) (e : Nat) (x : Engine) : (s.setEngine e x).aplicM = s.aplicM := rfl
@[simp] theorem State.setEngine_aplicS (s : State) (e : Nat) (x : Engine) : (s.setEngine e x).aplicS = s.aplicS := rfl
@[simp] theorem State.setEngine_wires (s : State) (e : Nat) (x : Engine) : (s.setEngine e x).wires = s.wires := rfl
@[simp] theorem State.setEngine_engines (s : State) (e : Nat) (x : Engine) : (s.setEngine e x).engines = Table.set {} s.engines e x := rfl
@[simp] theorem State.setEngine_qwins (s : State) (e : Nat) (x : Engine) : (s.setEngine e x).qwins = s.qwins := rfl
@[simp] theorem State.setEngine_ckp (s : State) (e : Nat) (x : Engine) : (s.setEngine e x).ckp = s.ckp := rfl
@[simp] theorem State.setEngine_hec (s : State) (e : Nat) (x : Engine) : (s.setEngine e x).hec = s.hec := rfl
@[simp] theorem State.setEngine_brc (s : State) (e : Nat) (x : Engine) : (s.setEngine e x).brc = s.brc := rfl
@[simp] theorem State.setEngine_aks (s : State) (e : Nat) (x : Engine) : (s.setEngine e x).aks = s.aks := rfl
@[simp] theorem State.setEngine_akm (s : State) (e : Nat) (x : Engine) : (s.setEngine e x).akm = s.akm := rfl

/-! ### `setPort` -/

@[simp] theorem State.setPort_pending (s : State) (p : Nat) (x : Port) : (s.setPort p x).pending = s.pending := rfl
@[simp] theorem State.setPort_freeCtr (s : State) (p : Nat) (x : Port) : (s.setPort p x).freeCtr = s.freeCtr := rfl
@[simp] theorem State.setPort_answer (s : State) (p : Nat) (x : Port) : (s.setPort p x).answer = s.answer := rfl
@[simp] theorem State.setPort_now (s : State) (p : Nat) (x : Port) : (s.setPort p x).now = s.now := rfl
@[simp] theorem State.setPort_time (s : State) (p : Nat) (x : Port) : (s.setPort p x).time = s.time := rfl
@[simp] theorem State.setPort_tstate (s : State) (p : Nat) (x : Port) : (s.setPort p x).tstate = s.tstate := rfl
@[simp] theorem State.setPort_regs (s : State) (p : Nat) (x : Port) : (s.setPort p x).regs = s.regs := rfl
@[simp] theorem State.setPort_shadow (s : State) (p : Nat) (x : Port) : (s.setPort p x).shadow = s.shadow := rfl
@[simp] theorem State.setPort_captured (s : State) (p : Nat) (x : Port) : (s.setPort p x).captured = s.captured := rfl
@[simp] theorem State.setPort_mem (s : State) (p : Nat) (x : Port) : (s.setPort p x).mem = s.mem := rfl
@[simp] theorem State.setPort_flash (s : State) (p : Nat) (x : Port) : (s.setPort p x).flash = s.flash := rfl
@[simp] theorem State.setPort_poison (s : State) (p : Nat) (x : Port) : (s.setPort p x).poison = s.poison := rfl
@[simp] theorem State.setPort_wrong (s : State) (p : Nat) (x : Port) : (s.setPort p x).wrong = s.wrong := rfl
@[simp] theorem State.setPort_snap (s : State) (p : Nat) (x : Port) : (s.setPort p x).snap = s.snap := rfl
@[simp] theorem State.setPort_heldWrites (s : State) (p : Nat) (x : Port) : (s.setPort p x).heldWrites = s.heldWrites := rfl
@[simp] theorem State.setPort_fullSince (s : State) (p : Nat) (x : Port) : (s.setPort p x).fullSince = s.fullSince := rfl
@[simp] theorem State.setPort_scrub (s : State) (p : Nat) (x : Port) : (s.setPort p x).scrub = s.scrub := rfl
@[simp] theorem State.setPort_scrubAt (s : State) (p : Nat) (x : Port) : (s.setPort p x).scrubAt = s.scrubAt := rfl
@[simp] theorem State.setPort_calAt (s : State) (p : Nat) (x : Port) : (s.setPort p x).calAt = s.calAt := rfl
@[simp] theorem State.setPort_flights (s : State) (p : Nat) (x : Port) : (s.setPort p x).flights = s.flights := rfl
@[simp] theorem State.setPort_arb (s : State) (p : Nat) (x : Port) : (s.setPort p x).arb = s.arb := rfl
@[simp] theorem State.setPort_penDue (s : State) (p : Nat) (x : Port) : (s.setPort p x).penDue = s.penDue := rfl
@[simp] theorem State.setPort_raised (s : State) (p : Nat) (x : Port) : (s.setPort p x).raised = s.raised := rfl
@[simp] theorem State.setPort_delivered (s : State) (p : Nat) (x : Port) : (s.setPort p x).delivered = s.delivered := rfl
@[simp] theorem State.setPort_requests (s : State) (p : Nat) (x : Port) : (s.setPort p x).requests = s.requests := rfl
@[simp] theorem State.setPort_seqs (s : State) (p : Nat) (x : Port) : (s.setPort p x).seqs = s.seqs := rfl
@[simp] theorem State.setPort_d2d (s : State) (p : Nat) (x : Port) : (s.setPort p x).d2d = s.d2d := rfl
@[simp] theorem State.setPort_ports (s : State) (p : Nat) (x : Port) : (s.setPort p x).ports = Table.set {} s.ports p x := rfl
@[simp] theorem State.setPort_tallies (s : State) (p : Nat) (x : Port) : (s.setPort p x).tallies = s.tallies := rfl
@[simp] theorem State.setPort_hurdles (s : State) (p : Nat) (x : Port) : (s.setPort p x).hurdles = s.hurdles := rfl
@[simp] theorem State.setPort_tiles (s : State) (p : Nat) (x : Port) : (s.setPort p x).tiles = s.tiles := rfl
@[simp] theorem State.setPort_cores (s : State) (p : Nat) (x : Port) : (s.setPort p x).cores = s.cores := rfl
@[simp] theorem State.setPort_lines (s : State) (p : Nat) (x : Port) : (s.setPort p x).lines = s.lines := rfl
@[simp] theorem State.setPort_aplicM (s : State) (p : Nat) (x : Port) : (s.setPort p x).aplicM = s.aplicM := rfl
@[simp] theorem State.setPort_aplicS (s : State) (p : Nat) (x : Port) : (s.setPort p x).aplicS = s.aplicS := rfl
@[simp] theorem State.setPort_wires (s : State) (p : Nat) (x : Port) : (s.setPort p x).wires = s.wires := rfl
@[simp] theorem State.setPort_engines (s : State) (p : Nat) (x : Port) : (s.setPort p x).engines = s.engines := rfl
@[simp] theorem State.setPort_qwins (s : State) (p : Nat) (x : Port) : (s.setPort p x).qwins = s.qwins := rfl
@[simp] theorem State.setPort_ckp (s : State) (p : Nat) (x : Port) : (s.setPort p x).ckp = s.ckp := rfl
@[simp] theorem State.setPort_hec (s : State) (p : Nat) (x : Port) : (s.setPort p x).hec = s.hec := rfl
@[simp] theorem State.setPort_brc (s : State) (p : Nat) (x : Port) : (s.setPort p x).brc = s.brc := rfl
@[simp] theorem State.setPort_aks (s : State) (p : Nat) (x : Port) : (s.setPort p x).aks = s.aks := rfl
@[simp] theorem State.setPort_akm (s : State) (p : Nat) (x : Port) : (s.setPort p x).akm = s.akm := rfl

/-! ### `setHurdle` -/

@[simp] theorem State.setHurdle_pending (s : State) (h : Nat) (x : Hurdle) : (s.setHurdle h x).pending = s.pending := rfl
@[simp] theorem State.setHurdle_freeCtr (s : State) (h : Nat) (x : Hurdle) : (s.setHurdle h x).freeCtr = s.freeCtr := rfl
@[simp] theorem State.setHurdle_answer (s : State) (h : Nat) (x : Hurdle) : (s.setHurdle h x).answer = s.answer := rfl
@[simp] theorem State.setHurdle_now (s : State) (h : Nat) (x : Hurdle) : (s.setHurdle h x).now = s.now := rfl
@[simp] theorem State.setHurdle_time (s : State) (h : Nat) (x : Hurdle) : (s.setHurdle h x).time = s.time := rfl
@[simp] theorem State.setHurdle_tstate (s : State) (h : Nat) (x : Hurdle) : (s.setHurdle h x).tstate = s.tstate := rfl
@[simp] theorem State.setHurdle_regs (s : State) (h : Nat) (x : Hurdle) : (s.setHurdle h x).regs = s.regs := rfl
@[simp] theorem State.setHurdle_shadow (s : State) (h : Nat) (x : Hurdle) : (s.setHurdle h x).shadow = s.shadow := rfl
@[simp] theorem State.setHurdle_captured (s : State) (h : Nat) (x : Hurdle) : (s.setHurdle h x).captured = s.captured := rfl
@[simp] theorem State.setHurdle_mem (s : State) (h : Nat) (x : Hurdle) : (s.setHurdle h x).mem = s.mem := rfl
@[simp] theorem State.setHurdle_flash (s : State) (h : Nat) (x : Hurdle) : (s.setHurdle h x).flash = s.flash := rfl
@[simp] theorem State.setHurdle_poison (s : State) (h : Nat) (x : Hurdle) : (s.setHurdle h x).poison = s.poison := rfl
@[simp] theorem State.setHurdle_wrong (s : State) (h : Nat) (x : Hurdle) : (s.setHurdle h x).wrong = s.wrong := rfl
@[simp] theorem State.setHurdle_snap (s : State) (h : Nat) (x : Hurdle) : (s.setHurdle h x).snap = s.snap := rfl
@[simp] theorem State.setHurdle_heldWrites (s : State) (h : Nat) (x : Hurdle) : (s.setHurdle h x).heldWrites = s.heldWrites := rfl
@[simp] theorem State.setHurdle_fullSince (s : State) (h : Nat) (x : Hurdle) : (s.setHurdle h x).fullSince = s.fullSince := rfl
@[simp] theorem State.setHurdle_scrub (s : State) (h : Nat) (x : Hurdle) : (s.setHurdle h x).scrub = s.scrub := rfl
@[simp] theorem State.setHurdle_scrubAt (s : State) (h : Nat) (x : Hurdle) : (s.setHurdle h x).scrubAt = s.scrubAt := rfl
@[simp] theorem State.setHurdle_calAt (s : State) (h : Nat) (x : Hurdle) : (s.setHurdle h x).calAt = s.calAt := rfl
@[simp] theorem State.setHurdle_flights (s : State) (h : Nat) (x : Hurdle) : (s.setHurdle h x).flights = s.flights := rfl
@[simp] theorem State.setHurdle_arb (s : State) (h : Nat) (x : Hurdle) : (s.setHurdle h x).arb = s.arb := rfl
@[simp] theorem State.setHurdle_penDue (s : State) (h : Nat) (x : Hurdle) : (s.setHurdle h x).penDue = s.penDue := rfl
@[simp] theorem State.setHurdle_raised (s : State) (h : Nat) (x : Hurdle) : (s.setHurdle h x).raised = s.raised := rfl
@[simp] theorem State.setHurdle_delivered (s : State) (h : Nat) (x : Hurdle) : (s.setHurdle h x).delivered = s.delivered := rfl
@[simp] theorem State.setHurdle_requests (s : State) (h : Nat) (x : Hurdle) : (s.setHurdle h x).requests = s.requests := rfl
@[simp] theorem State.setHurdle_seqs (s : State) (h : Nat) (x : Hurdle) : (s.setHurdle h x).seqs = s.seqs := rfl
@[simp] theorem State.setHurdle_d2d (s : State) (h : Nat) (x : Hurdle) : (s.setHurdle h x).d2d = s.d2d := rfl
@[simp] theorem State.setHurdle_ports (s : State) (h : Nat) (x : Hurdle) : (s.setHurdle h x).ports = s.ports := rfl
@[simp] theorem State.setHurdle_tallies (s : State) (h : Nat) (x : Hurdle) : (s.setHurdle h x).tallies = s.tallies := rfl
@[simp] theorem State.setHurdle_hurdles (s : State) (h : Nat) (x : Hurdle) : (s.setHurdle h x).hurdles = Table.set {} s.hurdles h x := rfl
@[simp] theorem State.setHurdle_tiles (s : State) (h : Nat) (x : Hurdle) : (s.setHurdle h x).tiles = s.tiles := rfl
@[simp] theorem State.setHurdle_cores (s : State) (h : Nat) (x : Hurdle) : (s.setHurdle h x).cores = s.cores := rfl
@[simp] theorem State.setHurdle_lines (s : State) (h : Nat) (x : Hurdle) : (s.setHurdle h x).lines = s.lines := rfl
@[simp] theorem State.setHurdle_aplicM (s : State) (h : Nat) (x : Hurdle) : (s.setHurdle h x).aplicM = s.aplicM := rfl
@[simp] theorem State.setHurdle_aplicS (s : State) (h : Nat) (x : Hurdle) : (s.setHurdle h x).aplicS = s.aplicS := rfl
@[simp] theorem State.setHurdle_wires (s : State) (h : Nat) (x : Hurdle) : (s.setHurdle h x).wires = s.wires := rfl
@[simp] theorem State.setHurdle_engines (s : State) (h : Nat) (x : Hurdle) : (s.setHurdle h x).engines = s.engines := rfl
@[simp] theorem State.setHurdle_qwins (s : State) (h : Nat) (x : Hurdle) : (s.setHurdle h x).qwins = s.qwins := rfl
@[simp] theorem State.setHurdle_ckp (s : State) (h : Nat) (x : Hurdle) : (s.setHurdle h x).ckp = s.ckp := rfl
@[simp] theorem State.setHurdle_hec (s : State) (h : Nat) (x : Hurdle) : (s.setHurdle h x).hec = s.hec := rfl
@[simp] theorem State.setHurdle_brc (s : State) (h : Nat) (x : Hurdle) : (s.setHurdle h x).brc = s.brc := rfl
@[simp] theorem State.setHurdle_aks (s : State) (h : Nat) (x : Hurdle) : (s.setHurdle h x).aks = s.aks := rfl
@[simp] theorem State.setHurdle_akm (s : State) (h : Nat) (x : Hurdle) : (s.setHurdle h x).akm = s.akm := rfl

/-! ### `setTally` -/

@[simp] theorem State.setTally_pending (s : State) (i : Nat) (x : Tally) : (s.setTally i x).pending = s.pending := rfl
@[simp] theorem State.setTally_freeCtr (s : State) (i : Nat) (x : Tally) : (s.setTally i x).freeCtr = s.freeCtr := rfl
@[simp] theorem State.setTally_answer (s : State) (i : Nat) (x : Tally) : (s.setTally i x).answer = s.answer := rfl
@[simp] theorem State.setTally_now (s : State) (i : Nat) (x : Tally) : (s.setTally i x).now = s.now := rfl
@[simp] theorem State.setTally_time (s : State) (i : Nat) (x : Tally) : (s.setTally i x).time = s.time := rfl
@[simp] theorem State.setTally_tstate (s : State) (i : Nat) (x : Tally) : (s.setTally i x).tstate = s.tstate := rfl
@[simp] theorem State.setTally_regs (s : State) (i : Nat) (x : Tally) : (s.setTally i x).regs = s.regs := rfl
@[simp] theorem State.setTally_shadow (s : State) (i : Nat) (x : Tally) : (s.setTally i x).shadow = s.shadow := rfl
@[simp] theorem State.setTally_captured (s : State) (i : Nat) (x : Tally) : (s.setTally i x).captured = s.captured := rfl
@[simp] theorem State.setTally_mem (s : State) (i : Nat) (x : Tally) : (s.setTally i x).mem = s.mem := rfl
@[simp] theorem State.setTally_flash (s : State) (i : Nat) (x : Tally) : (s.setTally i x).flash = s.flash := rfl
@[simp] theorem State.setTally_poison (s : State) (i : Nat) (x : Tally) : (s.setTally i x).poison = s.poison := rfl
@[simp] theorem State.setTally_wrong (s : State) (i : Nat) (x : Tally) : (s.setTally i x).wrong = s.wrong := rfl
@[simp] theorem State.setTally_snap (s : State) (i : Nat) (x : Tally) : (s.setTally i x).snap = s.snap := rfl
@[simp] theorem State.setTally_heldWrites (s : State) (i : Nat) (x : Tally) : (s.setTally i x).heldWrites = s.heldWrites := rfl
@[simp] theorem State.setTally_fullSince (s : State) (i : Nat) (x : Tally) : (s.setTally i x).fullSince = s.fullSince := rfl
@[simp] theorem State.setTally_scrub (s : State) (i : Nat) (x : Tally) : (s.setTally i x).scrub = s.scrub := rfl
@[simp] theorem State.setTally_scrubAt (s : State) (i : Nat) (x : Tally) : (s.setTally i x).scrubAt = s.scrubAt := rfl
@[simp] theorem State.setTally_calAt (s : State) (i : Nat) (x : Tally) : (s.setTally i x).calAt = s.calAt := rfl
@[simp] theorem State.setTally_flights (s : State) (i : Nat) (x : Tally) : (s.setTally i x).flights = s.flights := rfl
@[simp] theorem State.setTally_arb (s : State) (i : Nat) (x : Tally) : (s.setTally i x).arb = s.arb := rfl
@[simp] theorem State.setTally_penDue (s : State) (i : Nat) (x : Tally) : (s.setTally i x).penDue = s.penDue := rfl
@[simp] theorem State.setTally_raised (s : State) (i : Nat) (x : Tally) : (s.setTally i x).raised = s.raised := rfl
@[simp] theorem State.setTally_delivered (s : State) (i : Nat) (x : Tally) : (s.setTally i x).delivered = s.delivered := rfl
@[simp] theorem State.setTally_requests (s : State) (i : Nat) (x : Tally) : (s.setTally i x).requests = s.requests := rfl
@[simp] theorem State.setTally_seqs (s : State) (i : Nat) (x : Tally) : (s.setTally i x).seqs = s.seqs := rfl
@[simp] theorem State.setTally_d2d (s : State) (i : Nat) (x : Tally) : (s.setTally i x).d2d = s.d2d := rfl
@[simp] theorem State.setTally_ports (s : State) (i : Nat) (x : Tally) : (s.setTally i x).ports = s.ports := rfl
@[simp] theorem State.setTally_tallies (s : State) (i : Nat) (x : Tally) : (s.setTally i x).tallies = Table.set {} s.tallies i x := rfl
@[simp] theorem State.setTally_hurdles (s : State) (i : Nat) (x : Tally) : (s.setTally i x).hurdles = s.hurdles := rfl
@[simp] theorem State.setTally_tiles (s : State) (i : Nat) (x : Tally) : (s.setTally i x).tiles = s.tiles := rfl
@[simp] theorem State.setTally_cores (s : State) (i : Nat) (x : Tally) : (s.setTally i x).cores = s.cores := rfl
@[simp] theorem State.setTally_lines (s : State) (i : Nat) (x : Tally) : (s.setTally i x).lines = s.lines := rfl
@[simp] theorem State.setTally_aplicM (s : State) (i : Nat) (x : Tally) : (s.setTally i x).aplicM = s.aplicM := rfl
@[simp] theorem State.setTally_aplicS (s : State) (i : Nat) (x : Tally) : (s.setTally i x).aplicS = s.aplicS := rfl
@[simp] theorem State.setTally_wires (s : State) (i : Nat) (x : Tally) : (s.setTally i x).wires = s.wires := rfl
@[simp] theorem State.setTally_engines (s : State) (i : Nat) (x : Tally) : (s.setTally i x).engines = s.engines := rfl
@[simp] theorem State.setTally_qwins (s : State) (i : Nat) (x : Tally) : (s.setTally i x).qwins = s.qwins := rfl
@[simp] theorem State.setTally_ckp (s : State) (i : Nat) (x : Tally) : (s.setTally i x).ckp = s.ckp := rfl
@[simp] theorem State.setTally_hec (s : State) (i : Nat) (x : Tally) : (s.setTally i x).hec = s.hec := rfl
@[simp] theorem State.setTally_brc (s : State) (i : Nat) (x : Tally) : (s.setTally i x).brc = s.brc := rfl
@[simp] theorem State.setTally_aks (s : State) (i : Nat) (x : Tally) : (s.setTally i x).aks = s.aks := rfl
@[simp] theorem State.setTally_akm (s : State) (i : Nat) (x : Tally) : (s.setTally i x).akm = s.akm := rfl

/-! ### `fresh` -/

@[simp] theorem State.fresh_pending (s : State) : s.fresh.pending = s.pending := rfl
@[simp] theorem State.fresh_freeCtr (s : State) : s.fresh.freeCtr = s.freeCtr + 1 := rfl
@[simp] theorem State.fresh_answer (s : State) : s.fresh.answer = s.answer := rfl
@[simp] theorem State.fresh_now (s : State) : s.fresh.now = s.now := rfl
@[simp] theorem State.fresh_time (s : State) : s.fresh.time = s.time := rfl
@[simp] theorem State.fresh_tstate (s : State) : s.fresh.tstate = s.tstate := rfl
@[simp] theorem State.fresh_regs (s : State) : s.fresh.regs = s.regs := rfl
@[simp] theorem State.fresh_shadow (s : State) : s.fresh.shadow = s.shadow := rfl
@[simp] theorem State.fresh_captured (s : State) : s.fresh.captured = s.captured := rfl
@[simp] theorem State.fresh_mem (s : State) : s.fresh.mem = s.mem := rfl
@[simp] theorem State.fresh_flash (s : State) : s.fresh.flash = s.flash := rfl
@[simp] theorem State.fresh_poison (s : State) : s.fresh.poison = s.poison := rfl
@[simp] theorem State.fresh_wrong (s : State) : s.fresh.wrong = s.wrong := rfl
@[simp] theorem State.fresh_snap (s : State) : s.fresh.snap = s.snap := rfl
@[simp] theorem State.fresh_heldWrites (s : State) : s.fresh.heldWrites = s.heldWrites := rfl
@[simp] theorem State.fresh_fullSince (s : State) : s.fresh.fullSince = s.fullSince := rfl
@[simp] theorem State.fresh_scrub (s : State) : s.fresh.scrub = s.scrub := rfl
@[simp] theorem State.fresh_scrubAt (s : State) : s.fresh.scrubAt = s.scrubAt := rfl
@[simp] theorem State.fresh_calAt (s : State) : s.fresh.calAt = s.calAt := rfl
@[simp] theorem State.fresh_flights (s : State) : s.fresh.flights = s.flights := rfl
@[simp] theorem State.fresh_arb (s : State) : s.fresh.arb = s.arb := rfl
@[simp] theorem State.fresh_penDue (s : State) : s.fresh.penDue = s.penDue := rfl
@[simp] theorem State.fresh_raised (s : State) : s.fresh.raised = s.raised := rfl
@[simp] theorem State.fresh_delivered (s : State) : s.fresh.delivered = s.delivered := rfl
@[simp] theorem State.fresh_requests (s : State) : s.fresh.requests = s.requests := rfl
@[simp] theorem State.fresh_seqs (s : State) : s.fresh.seqs = s.seqs := rfl
@[simp] theorem State.fresh_d2d (s : State) : s.fresh.d2d = s.d2d := rfl
@[simp] theorem State.fresh_ports (s : State) : s.fresh.ports = s.ports := rfl
@[simp] theorem State.fresh_tallies (s : State) : s.fresh.tallies = s.tallies := rfl
@[simp] theorem State.fresh_hurdles (s : State) : s.fresh.hurdles = s.hurdles := rfl
@[simp] theorem State.fresh_tiles (s : State) : s.fresh.tiles = s.tiles := rfl
@[simp] theorem State.fresh_cores (s : State) : s.fresh.cores = s.cores := rfl
@[simp] theorem State.fresh_lines (s : State) : s.fresh.lines = s.lines := rfl
@[simp] theorem State.fresh_aplicM (s : State) : s.fresh.aplicM = s.aplicM := rfl
@[simp] theorem State.fresh_aplicS (s : State) : s.fresh.aplicS = s.aplicS := rfl
@[simp] theorem State.fresh_wires (s : State) : s.fresh.wires = s.wires := rfl
@[simp] theorem State.fresh_engines (s : State) : s.fresh.engines = s.engines := rfl
@[simp] theorem State.fresh_qwins (s : State) : s.fresh.qwins = s.qwins := rfl
@[simp] theorem State.fresh_ckp (s : State) : s.fresh.ckp = s.ckp := rfl
@[simp] theorem State.fresh_hec (s : State) : s.fresh.hec = s.hec := rfl
@[simp] theorem State.fresh_brc (s : State) : s.fresh.brc = s.brc := rfl
@[simp] theorem State.fresh_aks (s : State) : s.fresh.aks = s.aks := rfl
@[simp] theorem State.fresh_akm (s : State) : s.fresh.akm = s.akm := rfl

/-! ### `setReg` -/

@[simp] theorem State.setReg_pending (s : State) (a : Nat) (v : Word) : (s.setReg a v).pending = s.pending := rfl
@[simp] theorem State.setReg_freeCtr (s : State) (a : Nat) (v : Word) : (s.setReg a v).freeCtr = s.freeCtr := rfl
@[simp] theorem State.setReg_answer (s : State) (a : Nat) (v : Word) : (s.setReg a v).answer = s.answer := rfl
@[simp] theorem State.setReg_now (s : State) (a : Nat) (v : Word) : (s.setReg a v).now = s.now := rfl
@[simp] theorem State.setReg_time (s : State) (a : Nat) (v : Word) : (s.setReg a v).time = s.time := rfl
@[simp] theorem State.setReg_tstate (s : State) (a : Nat) (v : Word) : (s.setReg a v).tstate = s.tstate := rfl
@[simp] theorem State.setReg_regs (s : State) (a : Nat) (v : Word) : (s.setReg a v).regs = Table.set (regReset a) s.regs a v := rfl
@[simp] theorem State.setReg_shadow (s : State) (a : Nat) (v : Word) : (s.setReg a v).shadow = s.shadow := rfl
@[simp] theorem State.setReg_captured (s : State) (a : Nat) (v : Word) : (s.setReg a v).captured = s.captured := rfl
@[simp] theorem State.setReg_mem (s : State) (a : Nat) (v : Word) : (s.setReg a v).mem = s.mem := rfl
@[simp] theorem State.setReg_flash (s : State) (a : Nat) (v : Word) : (s.setReg a v).flash = s.flash := rfl
@[simp] theorem State.setReg_poison (s : State) (a : Nat) (v : Word) : (s.setReg a v).poison = s.poison := rfl
@[simp] theorem State.setReg_wrong (s : State) (a : Nat) (v : Word) : (s.setReg a v).wrong = s.wrong := rfl
@[simp] theorem State.setReg_snap (s : State) (a : Nat) (v : Word) : (s.setReg a v).snap = s.snap := rfl
@[simp] theorem State.setReg_heldWrites (s : State) (a : Nat) (v : Word) : (s.setReg a v).heldWrites = s.heldWrites := rfl
@[simp] theorem State.setReg_fullSince (s : State) (a : Nat) (v : Word) : (s.setReg a v).fullSince = s.fullSince := rfl
@[simp] theorem State.setReg_scrub (s : State) (a : Nat) (v : Word) : (s.setReg a v).scrub = s.scrub := rfl
@[simp] theorem State.setReg_scrubAt (s : State) (a : Nat) (v : Word) : (s.setReg a v).scrubAt = s.scrubAt := rfl
@[simp] theorem State.setReg_calAt (s : State) (a : Nat) (v : Word) : (s.setReg a v).calAt = s.calAt := rfl
@[simp] theorem State.setReg_flights (s : State) (a : Nat) (v : Word) : (s.setReg a v).flights = s.flights := rfl
@[simp] theorem State.setReg_arb (s : State) (a : Nat) (v : Word) : (s.setReg a v).arb = s.arb := rfl
@[simp] theorem State.setReg_penDue (s : State) (a : Nat) (v : Word) : (s.setReg a v).penDue = s.penDue := rfl
@[simp] theorem State.setReg_raised (s : State) (a : Nat) (v : Word) : (s.setReg a v).raised = s.raised := rfl
@[simp] theorem State.setReg_delivered (s : State) (a : Nat) (v : Word) : (s.setReg a v).delivered = s.delivered := rfl
@[simp] theorem State.setReg_requests (s : State) (a : Nat) (v : Word) : (s.setReg a v).requests = s.requests := rfl
@[simp] theorem State.setReg_seqs (s : State) (a : Nat) (v : Word) : (s.setReg a v).seqs = s.seqs := rfl
@[simp] theorem State.setReg_d2d (s : State) (a : Nat) (v : Word) : (s.setReg a v).d2d = s.d2d := rfl
@[simp] theorem State.setReg_ports (s : State) (a : Nat) (v : Word) : (s.setReg a v).ports = s.ports := rfl
@[simp] theorem State.setReg_tallies (s : State) (a : Nat) (v : Word) : (s.setReg a v).tallies = s.tallies := rfl
@[simp] theorem State.setReg_hurdles (s : State) (a : Nat) (v : Word) : (s.setReg a v).hurdles = s.hurdles := rfl
@[simp] theorem State.setReg_tiles (s : State) (a : Nat) (v : Word) : (s.setReg a v).tiles = s.tiles := rfl
@[simp] theorem State.setReg_cores (s : State) (a : Nat) (v : Word) : (s.setReg a v).cores = s.cores := rfl
@[simp] theorem State.setReg_lines (s : State) (a : Nat) (v : Word) : (s.setReg a v).lines = s.lines := rfl
@[simp] theorem State.setReg_aplicM (s : State) (a : Nat) (v : Word) : (s.setReg a v).aplicM = s.aplicM := rfl
@[simp] theorem State.setReg_aplicS (s : State) (a : Nat) (v : Word) : (s.setReg a v).aplicS = s.aplicS := rfl
@[simp] theorem State.setReg_wires (s : State) (a : Nat) (v : Word) : (s.setReg a v).wires = s.wires := rfl
@[simp] theorem State.setReg_engines (s : State) (a : Nat) (v : Word) : (s.setReg a v).engines = s.engines := rfl
@[simp] theorem State.setReg_qwins (s : State) (a : Nat) (v : Word) : (s.setReg a v).qwins = s.qwins := rfl
@[simp] theorem State.setReg_ckp (s : State) (a : Nat) (v : Word) : (s.setReg a v).ckp = s.ckp := rfl
@[simp] theorem State.setReg_hec (s : State) (a : Nat) (v : Word) : (s.setReg a v).hec = s.hec := rfl
@[simp] theorem State.setReg_brc (s : State) (a : Nat) (v : Word) : (s.setReg a v).brc = s.brc := rfl
@[simp] theorem State.setReg_aks (s : State) (a : Nat) (v : Word) : (s.setReg a v).aks = s.aks := rfl
@[simp] theorem State.setReg_akm (s : State) (a : Nat) (v : Word) : (s.setReg a v).akm = s.akm := rfl

/-! ### `setShadow` -/

@[simp] theorem State.setShadow_pending (s : State) (a : Nat) (v : Word) : (s.setShadow a v).pending = s.pending := rfl
@[simp] theorem State.setShadow_freeCtr (s : State) (a : Nat) (v : Word) : (s.setShadow a v).freeCtr = s.freeCtr := rfl
@[simp] theorem State.setShadow_answer (s : State) (a : Nat) (v : Word) : (s.setShadow a v).answer = s.answer := rfl
@[simp] theorem State.setShadow_now (s : State) (a : Nat) (v : Word) : (s.setShadow a v).now = s.now := rfl
@[simp] theorem State.setShadow_time (s : State) (a : Nat) (v : Word) : (s.setShadow a v).time = s.time := rfl
@[simp] theorem State.setShadow_tstate (s : State) (a : Nat) (v : Word) : (s.setShadow a v).tstate = s.tstate := rfl
@[simp] theorem State.setShadow_regs (s : State) (a : Nat) (v : Word) : (s.setShadow a v).regs = s.regs := rfl
@[simp] theorem State.setShadow_shadow (s : State) (a : Nat) (v : Word) : (s.setShadow a v).shadow = Table.set (regReset a) s.shadow a v := rfl
@[simp] theorem State.setShadow_captured (s : State) (a : Nat) (v : Word) : (s.setShadow a v).captured = s.captured := rfl
@[simp] theorem State.setShadow_mem (s : State) (a : Nat) (v : Word) : (s.setShadow a v).mem = s.mem := rfl
@[simp] theorem State.setShadow_flash (s : State) (a : Nat) (v : Word) : (s.setShadow a v).flash = s.flash := rfl
@[simp] theorem State.setShadow_poison (s : State) (a : Nat) (v : Word) : (s.setShadow a v).poison = s.poison := rfl
@[simp] theorem State.setShadow_wrong (s : State) (a : Nat) (v : Word) : (s.setShadow a v).wrong = s.wrong := rfl
@[simp] theorem State.setShadow_snap (s : State) (a : Nat) (v : Word) : (s.setShadow a v).snap = s.snap := rfl
@[simp] theorem State.setShadow_heldWrites (s : State) (a : Nat) (v : Word) : (s.setShadow a v).heldWrites = s.heldWrites := rfl
@[simp] theorem State.setShadow_fullSince (s : State) (a : Nat) (v : Word) : (s.setShadow a v).fullSince = s.fullSince := rfl
@[simp] theorem State.setShadow_scrub (s : State) (a : Nat) (v : Word) : (s.setShadow a v).scrub = s.scrub := rfl
@[simp] theorem State.setShadow_scrubAt (s : State) (a : Nat) (v : Word) : (s.setShadow a v).scrubAt = s.scrubAt := rfl
@[simp] theorem State.setShadow_calAt (s : State) (a : Nat) (v : Word) : (s.setShadow a v).calAt = s.calAt := rfl
@[simp] theorem State.setShadow_flights (s : State) (a : Nat) (v : Word) : (s.setShadow a v).flights = s.flights := rfl
@[simp] theorem State.setShadow_arb (s : State) (a : Nat) (v : Word) : (s.setShadow a v).arb = s.arb := rfl
@[simp] theorem State.setShadow_penDue (s : State) (a : Nat) (v : Word) : (s.setShadow a v).penDue = s.penDue := rfl
@[simp] theorem State.setShadow_raised (s : State) (a : Nat) (v : Word) : (s.setShadow a v).raised = s.raised := rfl
@[simp] theorem State.setShadow_delivered (s : State) (a : Nat) (v : Word) : (s.setShadow a v).delivered = s.delivered := rfl
@[simp] theorem State.setShadow_requests (s : State) (a : Nat) (v : Word) : (s.setShadow a v).requests = s.requests := rfl
@[simp] theorem State.setShadow_seqs (s : State) (a : Nat) (v : Word) : (s.setShadow a v).seqs = s.seqs := rfl
@[simp] theorem State.setShadow_d2d (s : State) (a : Nat) (v : Word) : (s.setShadow a v).d2d = s.d2d := rfl
@[simp] theorem State.setShadow_ports (s : State) (a : Nat) (v : Word) : (s.setShadow a v).ports = s.ports := rfl
@[simp] theorem State.setShadow_tallies (s : State) (a : Nat) (v : Word) : (s.setShadow a v).tallies = s.tallies := rfl
@[simp] theorem State.setShadow_hurdles (s : State) (a : Nat) (v : Word) : (s.setShadow a v).hurdles = s.hurdles := rfl
@[simp] theorem State.setShadow_tiles (s : State) (a : Nat) (v : Word) : (s.setShadow a v).tiles = s.tiles := rfl
@[simp] theorem State.setShadow_cores (s : State) (a : Nat) (v : Word) : (s.setShadow a v).cores = s.cores := rfl
@[simp] theorem State.setShadow_lines (s : State) (a : Nat) (v : Word) : (s.setShadow a v).lines = s.lines := rfl
@[simp] theorem State.setShadow_aplicM (s : State) (a : Nat) (v : Word) : (s.setShadow a v).aplicM = s.aplicM := rfl
@[simp] theorem State.setShadow_aplicS (s : State) (a : Nat) (v : Word) : (s.setShadow a v).aplicS = s.aplicS := rfl
@[simp] theorem State.setShadow_wires (s : State) (a : Nat) (v : Word) : (s.setShadow a v).wires = s.wires := rfl
@[simp] theorem State.setShadow_engines (s : State) (a : Nat) (v : Word) : (s.setShadow a v).engines = s.engines := rfl
@[simp] theorem State.setShadow_qwins (s : State) (a : Nat) (v : Word) : (s.setShadow a v).qwins = s.qwins := rfl
@[simp] theorem State.setShadow_ckp (s : State) (a : Nat) (v : Word) : (s.setShadow a v).ckp = s.ckp := rfl
@[simp] theorem State.setShadow_hec (s : State) (a : Nat) (v : Word) : (s.setShadow a v).hec = s.hec := rfl
@[simp] theorem State.setShadow_brc (s : State) (a : Nat) (v : Word) : (s.setShadow a v).brc = s.brc := rfl
@[simp] theorem State.setShadow_aks (s : State) (a : Nat) (v : Word) : (s.setShadow a v).aks = s.aks := rfl
@[simp] theorem State.setShadow_akm (s : State) (a : Nat) (v : Word) : (s.setShadow a v).akm = s.akm := rfl

/-! ### `setField` -/

@[simp] theorem State.setField_pending (s : State) (n : RegName) (i j lo len v : Nat) : (s.setField n i j lo len v).pending = s.pending := rfl
@[simp] theorem State.setField_freeCtr (s : State) (n : RegName) (i j lo len v : Nat) : (s.setField n i j lo len v).freeCtr = s.freeCtr := rfl
@[simp] theorem State.setField_answer (s : State) (n : RegName) (i j lo len v : Nat) : (s.setField n i j lo len v).answer = s.answer := rfl
@[simp] theorem State.setField_now (s : State) (n : RegName) (i j lo len v : Nat) : (s.setField n i j lo len v).now = s.now := rfl
@[simp] theorem State.setField_time (s : State) (n : RegName) (i j lo len v : Nat) : (s.setField n i j lo len v).time = s.time := rfl
@[simp] theorem State.setField_tstate (s : State) (n : RegName) (i j lo len v : Nat) : (s.setField n i j lo len v).tstate = s.tstate := rfl
@[simp] theorem State.setField_shadow (s : State) (n : RegName) (i j lo len v : Nat) : (s.setField n i j lo len v).shadow = s.shadow := rfl
@[simp] theorem State.setField_captured (s : State) (n : RegName) (i j lo len v : Nat) : (s.setField n i j lo len v).captured = s.captured := rfl
@[simp] theorem State.setField_mem (s : State) (n : RegName) (i j lo len v : Nat) : (s.setField n i j lo len v).mem = s.mem := rfl
@[simp] theorem State.setField_flash (s : State) (n : RegName) (i j lo len v : Nat) : (s.setField n i j lo len v).flash = s.flash := rfl
@[simp] theorem State.setField_poison (s : State) (n : RegName) (i j lo len v : Nat) : (s.setField n i j lo len v).poison = s.poison := rfl
@[simp] theorem State.setField_wrong (s : State) (n : RegName) (i j lo len v : Nat) : (s.setField n i j lo len v).wrong = s.wrong := rfl
@[simp] theorem State.setField_snap (s : State) (n : RegName) (i j lo len v : Nat) : (s.setField n i j lo len v).snap = s.snap := rfl
@[simp] theorem State.setField_heldWrites (s : State) (n : RegName) (i j lo len v : Nat) : (s.setField n i j lo len v).heldWrites = s.heldWrites := rfl
@[simp] theorem State.setField_fullSince (s : State) (n : RegName) (i j lo len v : Nat) : (s.setField n i j lo len v).fullSince = s.fullSince := rfl
@[simp] theorem State.setField_scrub (s : State) (n : RegName) (i j lo len v : Nat) : (s.setField n i j lo len v).scrub = s.scrub := rfl
@[simp] theorem State.setField_scrubAt (s : State) (n : RegName) (i j lo len v : Nat) : (s.setField n i j lo len v).scrubAt = s.scrubAt := rfl
@[simp] theorem State.setField_calAt (s : State) (n : RegName) (i j lo len v : Nat) : (s.setField n i j lo len v).calAt = s.calAt := rfl
@[simp] theorem State.setField_flights (s : State) (n : RegName) (i j lo len v : Nat) : (s.setField n i j lo len v).flights = s.flights := rfl
@[simp] theorem State.setField_arb (s : State) (n : RegName) (i j lo len v : Nat) : (s.setField n i j lo len v).arb = s.arb := rfl
@[simp] theorem State.setField_penDue (s : State) (n : RegName) (i j lo len v : Nat) : (s.setField n i j lo len v).penDue = s.penDue := rfl
@[simp] theorem State.setField_raised (s : State) (n : RegName) (i j lo len v : Nat) : (s.setField n i j lo len v).raised = s.raised := rfl
@[simp] theorem State.setField_delivered (s : State) (n : RegName) (i j lo len v : Nat) : (s.setField n i j lo len v).delivered = s.delivered := rfl
@[simp] theorem State.setField_requests (s : State) (n : RegName) (i j lo len v : Nat) : (s.setField n i j lo len v).requests = s.requests := rfl
@[simp] theorem State.setField_seqs (s : State) (n : RegName) (i j lo len v : Nat) : (s.setField n i j lo len v).seqs = s.seqs := rfl
@[simp] theorem State.setField_d2d (s : State) (n : RegName) (i j lo len v : Nat) : (s.setField n i j lo len v).d2d = s.d2d := rfl
@[simp] theorem State.setField_ports (s : State) (n : RegName) (i j lo len v : Nat) : (s.setField n i j lo len v).ports = s.ports := rfl
@[simp] theorem State.setField_tallies (s : State) (n : RegName) (i j lo len v : Nat) : (s.setField n i j lo len v).tallies = s.tallies := rfl
@[simp] theorem State.setField_hurdles (s : State) (n : RegName) (i j lo len v : Nat) : (s.setField n i j lo len v).hurdles = s.hurdles := rfl
@[simp] theorem State.setField_tiles (s : State) (n : RegName) (i j lo len v : Nat) : (s.setField n i j lo len v).tiles = s.tiles := rfl
@[simp] theorem State.setField_cores (s : State) (n : RegName) (i j lo len v : Nat) : (s.setField n i j lo len v).cores = s.cores := rfl
@[simp] theorem State.setField_lines (s : State) (n : RegName) (i j lo len v : Nat) : (s.setField n i j lo len v).lines = s.lines := rfl
@[simp] theorem State.setField_aplicM (s : State) (n : RegName) (i j lo len v : Nat) : (s.setField n i j lo len v).aplicM = s.aplicM := rfl
@[simp] theorem State.setField_aplicS (s : State) (n : RegName) (i j lo len v : Nat) : (s.setField n i j lo len v).aplicS = s.aplicS := rfl
@[simp] theorem State.setField_wires (s : State) (n : RegName) (i j lo len v : Nat) : (s.setField n i j lo len v).wires = s.wires := rfl
@[simp] theorem State.setField_engines (s : State) (n : RegName) (i j lo len v : Nat) : (s.setField n i j lo len v).engines = s.engines := rfl
@[simp] theorem State.setField_qwins (s : State) (n : RegName) (i j lo len v : Nat) : (s.setField n i j lo len v).qwins = s.qwins := rfl
@[simp] theorem State.setField_ckp (s : State) (n : RegName) (i j lo len v : Nat) : (s.setField n i j lo len v).ckp = s.ckp := rfl
@[simp] theorem State.setField_hec (s : State) (n : RegName) (i j lo len v : Nat) : (s.setField n i j lo len v).hec = s.hec := rfl
@[simp] theorem State.setField_brc (s : State) (n : RegName) (i j lo len v : Nat) : (s.setField n i j lo len v).brc = s.brc := rfl
@[simp] theorem State.setField_aks (s : State) (n : RegName) (i j lo len v : Nat) : (s.setField n i j lo len v).aks = s.aks := rfl
@[simp] theorem State.setField_akm (s : State) (n : RegName) (i j lo len v : Nat) : (s.setField n i j lo len v).akm = s.akm := rfl

@[simp] theorem State.noteRaised_pending (s : State) (a m : Nat) : (s.noteRaised a m).pending = s.pending := rfl
@[simp] theorem State.noteRaised_freeCtr (s : State) (a m : Nat) : (s.noteRaised a m).freeCtr = s.freeCtr := rfl
@[simp] theorem State.noteRaised_answer (s : State) (a m : Nat) : (s.noteRaised a m).answer = s.answer := rfl
@[simp] theorem State.noteRaised_now (s : State) (a m : Nat) : (s.noteRaised a m).now = s.now := rfl
@[simp] theorem State.noteRaised_time (s : State) (a m : Nat) : (s.noteRaised a m).time = s.time := rfl
@[simp] theorem State.noteRaised_tstate (s : State) (a m : Nat) : (s.noteRaised a m).tstate = s.tstate := rfl
@[simp] theorem State.noteRaised_shadow (s : State) (a m : Nat) : (s.noteRaised a m).shadow = s.shadow := rfl
@[simp] theorem State.noteRaised_captured (s : State) (a m : Nat) : (s.noteRaised a m).captured = s.captured := rfl
@[simp] theorem State.noteRaised_mem (s : State) (a m : Nat) : (s.noteRaised a m).mem = s.mem := rfl
@[simp] theorem State.noteRaised_flash (s : State) (a m : Nat) : (s.noteRaised a m).flash = s.flash := rfl
@[simp] theorem State.noteRaised_poison (s : State) (a m : Nat) : (s.noteRaised a m).poison = s.poison := rfl
@[simp] theorem State.noteRaised_wrong (s : State) (a m : Nat) : (s.noteRaised a m).wrong = s.wrong := rfl
@[simp] theorem State.noteRaised_snap (s : State) (a m : Nat) : (s.noteRaised a m).snap = s.snap := rfl
@[simp] theorem State.noteRaised_heldWrites (s : State) (a m : Nat) : (s.noteRaised a m).heldWrites = s.heldWrites := rfl
@[simp] theorem State.noteRaised_fullSince (s : State) (a m : Nat) : (s.noteRaised a m).fullSince = s.fullSince := rfl
@[simp] theorem State.noteRaised_scrub (s : State) (a m : Nat) : (s.noteRaised a m).scrub = s.scrub := rfl
@[simp] theorem State.noteRaised_scrubAt (s : State) (a m : Nat) : (s.noteRaised a m).scrubAt = s.scrubAt := rfl
@[simp] theorem State.noteRaised_calAt (s : State) (a m : Nat) : (s.noteRaised a m).calAt = s.calAt := rfl
@[simp] theorem State.noteRaised_flights (s : State) (a m : Nat) : (s.noteRaised a m).flights = s.flights := rfl
@[simp] theorem State.noteRaised_arb (s : State) (a m : Nat) : (s.noteRaised a m).arb = s.arb := rfl
@[simp] theorem State.noteRaised_penDue (s : State) (a m : Nat) : (s.noteRaised a m).penDue = s.penDue := rfl
@[simp] theorem State.noteRaised_delivered (s : State) (a m : Nat) : (s.noteRaised a m).delivered = s.delivered := rfl
@[simp] theorem State.noteRaised_requests (s : State) (a m : Nat) : (s.noteRaised a m).requests = s.requests := rfl
@[simp] theorem State.noteRaised_seqs (s : State) (a m : Nat) : (s.noteRaised a m).seqs = s.seqs := rfl
@[simp] theorem State.noteRaised_d2d (s : State) (a m : Nat) : (s.noteRaised a m).d2d = s.d2d := rfl
@[simp] theorem State.noteRaised_ports (s : State) (a m : Nat) : (s.noteRaised a m).ports = s.ports := rfl
@[simp] theorem State.noteRaised_tallies (s : State) (a m : Nat) : (s.noteRaised a m).tallies = s.tallies := rfl
@[simp] theorem State.noteRaised_hurdles (s : State) (a m : Nat) : (s.noteRaised a m).hurdles = s.hurdles := rfl
@[simp] theorem State.noteRaised_tiles (s : State) (a m : Nat) : (s.noteRaised a m).tiles = s.tiles := rfl
@[simp] theorem State.noteRaised_cores (s : State) (a m : Nat) : (s.noteRaised a m).cores = s.cores := rfl
@[simp] theorem State.noteRaised_lines (s : State) (a m : Nat) : (s.noteRaised a m).lines = s.lines := rfl
@[simp] theorem State.noteRaised_aplicM (s : State) (a m : Nat) : (s.noteRaised a m).aplicM = s.aplicM := rfl
@[simp] theorem State.noteRaised_aplicS (s : State) (a m : Nat) : (s.noteRaised a m).aplicS = s.aplicS := rfl
@[simp] theorem State.noteRaised_wires (s : State) (a m : Nat) : (s.noteRaised a m).wires = s.wires := rfl
@[simp] theorem State.noteRaised_engines (s : State) (a m : Nat) : (s.noteRaised a m).engines = s.engines := rfl
@[simp] theorem State.noteRaised_qwins (s : State) (a m : Nat) : (s.noteRaised a m).qwins = s.qwins := rfl
@[simp] theorem State.noteRaised_ckp (s : State) (a m : Nat) : (s.noteRaised a m).ckp = s.ckp := rfl
@[simp] theorem State.noteRaised_hec (s : State) (a m : Nat) : (s.noteRaised a m).hec = s.hec := rfl
@[simp] theorem State.noteRaised_brc (s : State) (a m : Nat) : (s.noteRaised a m).brc = s.brc := rfl
@[simp] theorem State.noteRaised_aks (s : State) (a m : Nat) : (s.noteRaised a m).aks = s.aks := rfl
@[simp] theorem State.noteRaised_akm (s : State) (a m : Nat) : (s.noteRaised a m).akm = s.akm := rfl
@[simp] theorem State.noteRaised_regs (s : State) (a m : Nat) : (s.noteRaised a m).regs = s.regs := rfl
@[simp] theorem State.noteRaised_getReg (s : State) (a m b : Nat) : (s.noteRaised a m).getReg b = s.getReg b := rfl

/-! ### `writeMem` -/

@[simp] theorem State.writeMem_pending (s : State) (a : Nat) (b : List Byte) : (s.writeMem a b).pending = s.pending := rfl
@[simp] theorem State.writeMem_freeCtr (s : State) (a : Nat) (b : List Byte) : (s.writeMem a b).freeCtr = s.freeCtr := rfl
@[simp] theorem State.writeMem_answer (s : State) (a : Nat) (b : List Byte) : (s.writeMem a b).answer = s.answer := rfl
@[simp] theorem State.writeMem_now (s : State) (a : Nat) (b : List Byte) : (s.writeMem a b).now = s.now := rfl
@[simp] theorem State.writeMem_time (s : State) (a : Nat) (b : List Byte) : (s.writeMem a b).time = s.time := rfl
@[simp] theorem State.writeMem_tstate (s : State) (a : Nat) (b : List Byte) : (s.writeMem a b).tstate = s.tstate := rfl
@[simp] theorem State.writeMem_regs (s : State) (a : Nat) (b : List Byte) : (s.writeMem a b).regs = s.regs := rfl
@[simp] theorem State.writeMem_shadow (s : State) (a : Nat) (b : List Byte) : (s.writeMem a b).shadow = s.shadow := rfl
@[simp] theorem State.writeMem_captured (s : State) (a : Nat) (b : List Byte) : (s.writeMem a b).captured = s.captured := rfl
@[simp] theorem State.writeMem_mem (s : State) (a : Nat) (b : List Byte) : (s.writeMem a b).mem = Memory.write 0 s.mem a b := rfl
@[simp] theorem State.writeMem_flash (s : State) (a : Nat) (b : List Byte) : (s.writeMem a b).flash = s.flash := rfl
@[simp] theorem State.writeMem_poison (s : State) (a : Nat) (b : List Byte) : (s.writeMem a b).poison = s.poison := rfl
@[simp] theorem State.writeMem_wrong (s : State) (a : Nat) (b : List Byte) : (s.writeMem a b).wrong = s.wrong := rfl
@[simp] theorem State.writeMem_snap (s : State) (a : Nat) (b : List Byte) : (s.writeMem a b).snap = s.snap := rfl
@[simp] theorem State.writeMem_heldWrites (s : State) (a : Nat) (b : List Byte) : (s.writeMem a b).heldWrites = s.heldWrites := rfl
@[simp] theorem State.writeMem_fullSince (s : State) (a : Nat) (b : List Byte) : (s.writeMem a b).fullSince = s.fullSince := rfl
@[simp] theorem State.writeMem_scrub (s : State) (a : Nat) (b : List Byte) : (s.writeMem a b).scrub = s.scrub := rfl
@[simp] theorem State.writeMem_scrubAt (s : State) (a : Nat) (b : List Byte) : (s.writeMem a b).scrubAt = s.scrubAt := rfl
@[simp] theorem State.writeMem_calAt (s : State) (a : Nat) (b : List Byte) : (s.writeMem a b).calAt = s.calAt := rfl
@[simp] theorem State.writeMem_flights (s : State) (a : Nat) (b : List Byte) : (s.writeMem a b).flights = s.flights := rfl
@[simp] theorem State.writeMem_arb (s : State) (a : Nat) (b : List Byte) : (s.writeMem a b).arb = s.arb := rfl
@[simp] theorem State.writeMem_penDue (s : State) (a : Nat) (b : List Byte) : (s.writeMem a b).penDue = s.penDue := rfl
@[simp] theorem State.writeMem_raised (s : State) (a : Nat) (b : List Byte) : (s.writeMem a b).raised = s.raised := rfl
@[simp] theorem State.writeMem_delivered (s : State) (a : Nat) (b : List Byte) : (s.writeMem a b).delivered = s.delivered := rfl
@[simp] theorem State.writeMem_requests (s : State) (a : Nat) (b : List Byte) : (s.writeMem a b).requests = s.requests := rfl
@[simp] theorem State.writeMem_seqs (s : State) (a : Nat) (b : List Byte) : (s.writeMem a b).seqs = s.seqs := rfl
@[simp] theorem State.writeMem_d2d (s : State) (a : Nat) (b : List Byte) : (s.writeMem a b).d2d = s.d2d := rfl
@[simp] theorem State.writeMem_ports (s : State) (a : Nat) (b : List Byte) : (s.writeMem a b).ports = s.ports := rfl
@[simp] theorem State.writeMem_tallies (s : State) (a : Nat) (b : List Byte) : (s.writeMem a b).tallies = s.tallies := rfl
@[simp] theorem State.writeMem_hurdles (s : State) (a : Nat) (b : List Byte) : (s.writeMem a b).hurdles = s.hurdles := rfl
@[simp] theorem State.writeMem_tiles (s : State) (a : Nat) (b : List Byte) : (s.writeMem a b).tiles = s.tiles := rfl
@[simp] theorem State.writeMem_cores (s : State) (a : Nat) (b : List Byte) : (s.writeMem a b).cores = s.cores := rfl
@[simp] theorem State.writeMem_lines (s : State) (a : Nat) (b : List Byte) : (s.writeMem a b).lines = s.lines := rfl
@[simp] theorem State.writeMem_aplicM (s : State) (a : Nat) (b : List Byte) : (s.writeMem a b).aplicM = s.aplicM := rfl
@[simp] theorem State.writeMem_aplicS (s : State) (a : Nat) (b : List Byte) : (s.writeMem a b).aplicS = s.aplicS := rfl
@[simp] theorem State.writeMem_wires (s : State) (a : Nat) (b : List Byte) : (s.writeMem a b).wires = s.wires := rfl
@[simp] theorem State.writeMem_engines (s : State) (a : Nat) (b : List Byte) : (s.writeMem a b).engines = s.engines := rfl
@[simp] theorem State.writeMem_qwins (s : State) (a : Nat) (b : List Byte) : (s.writeMem a b).qwins = s.qwins := rfl
@[simp] theorem State.writeMem_ckp (s : State) (a : Nat) (b : List Byte) : (s.writeMem a b).ckp = s.ckp := rfl
@[simp] theorem State.writeMem_hec (s : State) (a : Nat) (b : List Byte) : (s.writeMem a b).hec = s.hec := rfl
@[simp] theorem State.writeMem_brc (s : State) (a : Nat) (b : List Byte) : (s.writeMem a b).brc = s.brc := rfl
@[simp] theorem State.writeMem_aks (s : State) (a : Nat) (b : List Byte) : (s.writeMem a b).aks = s.aks := rfl
@[simp] theorem State.writeMem_akm (s : State) (a : Nat) (b : List Byte) : (s.writeMem a b).akm = s.akm := rfl

/-! ### `clearMem` -/

@[simp] theorem State.clearMem_pending (s : State) (a n : Nat) : (s.clearMem a n).pending = s.pending := rfl
@[simp] theorem State.clearMem_freeCtr (s : State) (a n : Nat) : (s.clearMem a n).freeCtr = s.freeCtr := rfl
@[simp] theorem State.clearMem_answer (s : State) (a n : Nat) : (s.clearMem a n).answer = s.answer := rfl
@[simp] theorem State.clearMem_now (s : State) (a n : Nat) : (s.clearMem a n).now = s.now := rfl
@[simp] theorem State.clearMem_time (s : State) (a n : Nat) : (s.clearMem a n).time = s.time := rfl
@[simp] theorem State.clearMem_tstate (s : State) (a n : Nat) : (s.clearMem a n).tstate = s.tstate := rfl
@[simp] theorem State.clearMem_regs (s : State) (a n : Nat) : (s.clearMem a n).regs = s.regs := rfl
@[simp] theorem State.clearMem_shadow (s : State) (a n : Nat) : (s.clearMem a n).shadow = s.shadow := rfl
@[simp] theorem State.clearMem_captured (s : State) (a n : Nat) : (s.clearMem a n).captured = s.captured := rfl
@[simp] theorem State.clearMem_mem (s : State) (a n : Nat) : (s.clearMem a n).mem = Memory.clear s.mem a n := rfl
@[simp] theorem State.clearMem_flash (s : State) (a n : Nat) : (s.clearMem a n).flash = s.flash := rfl
@[simp] theorem State.clearMem_poison (s : State) (a n : Nat) : (s.clearMem a n).poison = s.poison := rfl
@[simp] theorem State.clearMem_wrong (s : State) (a n : Nat) : (s.clearMem a n).wrong = s.wrong := rfl
@[simp] theorem State.clearMem_snap (s : State) (a n : Nat) : (s.clearMem a n).snap = s.snap := rfl
@[simp] theorem State.clearMem_heldWrites (s : State) (a n : Nat) : (s.clearMem a n).heldWrites = s.heldWrites := rfl
@[simp] theorem State.clearMem_fullSince (s : State) (a n : Nat) : (s.clearMem a n).fullSince = s.fullSince := rfl
@[simp] theorem State.clearMem_scrub (s : State) (a n : Nat) : (s.clearMem a n).scrub = s.scrub := rfl
@[simp] theorem State.clearMem_scrubAt (s : State) (a n : Nat) : (s.clearMem a n).scrubAt = s.scrubAt := rfl
@[simp] theorem State.clearMem_calAt (s : State) (a n : Nat) : (s.clearMem a n).calAt = s.calAt := rfl
@[simp] theorem State.clearMem_flights (s : State) (a n : Nat) : (s.clearMem a n).flights = s.flights := rfl
@[simp] theorem State.clearMem_arb (s : State) (a n : Nat) : (s.clearMem a n).arb = s.arb := rfl
@[simp] theorem State.clearMem_penDue (s : State) (a n : Nat) : (s.clearMem a n).penDue = s.penDue := rfl
@[simp] theorem State.clearMem_raised (s : State) (a n : Nat) : (s.clearMem a n).raised = s.raised := rfl
@[simp] theorem State.clearMem_delivered (s : State) (a n : Nat) : (s.clearMem a n).delivered = s.delivered := rfl
@[simp] theorem State.clearMem_requests (s : State) (a n : Nat) : (s.clearMem a n).requests = s.requests := rfl
@[simp] theorem State.clearMem_seqs (s : State) (a n : Nat) : (s.clearMem a n).seqs = s.seqs := rfl
@[simp] theorem State.clearMem_d2d (s : State) (a n : Nat) : (s.clearMem a n).d2d = s.d2d := rfl
@[simp] theorem State.clearMem_ports (s : State) (a n : Nat) : (s.clearMem a n).ports = s.ports := rfl
@[simp] theorem State.clearMem_tallies (s : State) (a n : Nat) : (s.clearMem a n).tallies = s.tallies := rfl
@[simp] theorem State.clearMem_hurdles (s : State) (a n : Nat) : (s.clearMem a n).hurdles = s.hurdles := rfl
@[simp] theorem State.clearMem_tiles (s : State) (a n : Nat) : (s.clearMem a n).tiles = s.tiles := rfl
@[simp] theorem State.clearMem_cores (s : State) (a n : Nat) : (s.clearMem a n).cores = s.cores := rfl
@[simp] theorem State.clearMem_lines (s : State) (a n : Nat) : (s.clearMem a n).lines = s.lines := rfl
@[simp] theorem State.clearMem_aplicM (s : State) (a n : Nat) : (s.clearMem a n).aplicM = s.aplicM := rfl
@[simp] theorem State.clearMem_aplicS (s : State) (a n : Nat) : (s.clearMem a n).aplicS = s.aplicS := rfl
@[simp] theorem State.clearMem_wires (s : State) (a n : Nat) : (s.clearMem a n).wires = s.wires := rfl
@[simp] theorem State.clearMem_engines (s : State) (a n : Nat) : (s.clearMem a n).engines = s.engines := rfl
@[simp] theorem State.clearMem_qwins (s : State) (a n : Nat) : (s.clearMem a n).qwins = s.qwins := rfl
@[simp] theorem State.clearMem_ckp (s : State) (a n : Nat) : (s.clearMem a n).ckp = s.ckp := rfl
@[simp] theorem State.clearMem_hec (s : State) (a n : Nat) : (s.clearMem a n).hec = s.hec := rfl
@[simp] theorem State.clearMem_brc (s : State) (a n : Nat) : (s.clearMem a n).brc = s.brc := rfl
@[simp] theorem State.clearMem_aks (s : State) (a n : Nat) : (s.clearMem a n).aks = s.aks := rfl
@[simp] theorem State.clearMem_akm (s : State) (a n : Nat) : (s.clearMem a n).akm = s.akm := rfl

/-! ### `programFlash` -/

@[simp] theorem State.programFlash_pending (s : State) (a : Nat) (b : List Byte) : (s.programFlash a b).pending = s.pending := rfl
@[simp] theorem State.programFlash_freeCtr (s : State) (a : Nat) (b : List Byte) : (s.programFlash a b).freeCtr = s.freeCtr := rfl
@[simp] theorem State.programFlash_answer (s : State) (a : Nat) (b : List Byte) : (s.programFlash a b).answer = s.answer := rfl
@[simp] theorem State.programFlash_now (s : State) (a : Nat) (b : List Byte) : (s.programFlash a b).now = s.now := rfl
@[simp] theorem State.programFlash_time (s : State) (a : Nat) (b : List Byte) : (s.programFlash a b).time = s.time := rfl
@[simp] theorem State.programFlash_tstate (s : State) (a : Nat) (b : List Byte) : (s.programFlash a b).tstate = s.tstate := rfl
@[simp] theorem State.programFlash_regs (s : State) (a : Nat) (b : List Byte) : (s.programFlash a b).regs = s.regs := rfl
@[simp] theorem State.programFlash_shadow (s : State) (a : Nat) (b : List Byte) : (s.programFlash a b).shadow = s.shadow := rfl
@[simp] theorem State.programFlash_captured (s : State) (a : Nat) (b : List Byte) : (s.programFlash a b).captured = s.captured := rfl
@[simp] theorem State.programFlash_mem (s : State) (a : Nat) (b : List Byte) : (s.programFlash a b).mem = s.mem := rfl
@[simp] theorem State.programFlash_poison (s : State) (a : Nat) (b : List Byte) : (s.programFlash a b).poison = s.poison := rfl
@[simp] theorem State.programFlash_wrong (s : State) (a : Nat) (b : List Byte) : (s.programFlash a b).wrong = s.wrong := rfl
@[simp] theorem State.programFlash_snap (s : State) (a : Nat) (b : List Byte) : (s.programFlash a b).snap = s.snap := rfl
@[simp] theorem State.programFlash_heldWrites (s : State) (a : Nat) (b : List Byte) : (s.programFlash a b).heldWrites = s.heldWrites := rfl
@[simp] theorem State.programFlash_fullSince (s : State) (a : Nat) (b : List Byte) : (s.programFlash a b).fullSince = s.fullSince := rfl
@[simp] theorem State.programFlash_scrub (s : State) (a : Nat) (b : List Byte) : (s.programFlash a b).scrub = s.scrub := rfl
@[simp] theorem State.programFlash_scrubAt (s : State) (a : Nat) (b : List Byte) : (s.programFlash a b).scrubAt = s.scrubAt := rfl
@[simp] theorem State.programFlash_calAt (s : State) (a : Nat) (b : List Byte) : (s.programFlash a b).calAt = s.calAt := rfl
@[simp] theorem State.programFlash_flights (s : State) (a : Nat) (b : List Byte) : (s.programFlash a b).flights = s.flights := rfl
@[simp] theorem State.programFlash_arb (s : State) (a : Nat) (b : List Byte) : (s.programFlash a b).arb = s.arb := rfl
@[simp] theorem State.programFlash_penDue (s : State) (a : Nat) (b : List Byte) : (s.programFlash a b).penDue = s.penDue := rfl
@[simp] theorem State.programFlash_raised (s : State) (a : Nat) (b : List Byte) : (s.programFlash a b).raised = s.raised := rfl
@[simp] theorem State.programFlash_delivered (s : State) (a : Nat) (b : List Byte) : (s.programFlash a b).delivered = s.delivered := rfl
@[simp] theorem State.programFlash_requests (s : State) (a : Nat) (b : List Byte) : (s.programFlash a b).requests = s.requests := rfl
@[simp] theorem State.programFlash_seqs (s : State) (a : Nat) (b : List Byte) : (s.programFlash a b).seqs = s.seqs := rfl
@[simp] theorem State.programFlash_d2d (s : State) (a : Nat) (b : List Byte) : (s.programFlash a b).d2d = s.d2d := rfl
@[simp] theorem State.programFlash_ports (s : State) (a : Nat) (b : List Byte) : (s.programFlash a b).ports = s.ports := rfl
@[simp] theorem State.programFlash_tallies (s : State) (a : Nat) (b : List Byte) : (s.programFlash a b).tallies = s.tallies := rfl
@[simp] theorem State.programFlash_hurdles (s : State) (a : Nat) (b : List Byte) : (s.programFlash a b).hurdles = s.hurdles := rfl
@[simp] theorem State.programFlash_tiles (s : State) (a : Nat) (b : List Byte) : (s.programFlash a b).tiles = s.tiles := rfl
@[simp] theorem State.programFlash_cores (s : State) (a : Nat) (b : List Byte) : (s.programFlash a b).cores = s.cores := rfl
@[simp] theorem State.programFlash_lines (s : State) (a : Nat) (b : List Byte) : (s.programFlash a b).lines = s.lines := rfl
@[simp] theorem State.programFlash_aplicM (s : State) (a : Nat) (b : List Byte) : (s.programFlash a b).aplicM = s.aplicM := rfl
@[simp] theorem State.programFlash_aplicS (s : State) (a : Nat) (b : List Byte) : (s.programFlash a b).aplicS = s.aplicS := rfl
@[simp] theorem State.programFlash_wires (s : State) (a : Nat) (b : List Byte) : (s.programFlash a b).wires = s.wires := rfl
@[simp] theorem State.programFlash_engines (s : State) (a : Nat) (b : List Byte) : (s.programFlash a b).engines = s.engines := rfl
@[simp] theorem State.programFlash_qwins (s : State) (a : Nat) (b : List Byte) : (s.programFlash a b).qwins = s.qwins := rfl
@[simp] theorem State.programFlash_ckp (s : State) (a : Nat) (b : List Byte) : (s.programFlash a b).ckp = s.ckp := rfl
@[simp] theorem State.programFlash_hec (s : State) (a : Nat) (b : List Byte) : (s.programFlash a b).hec = s.hec := rfl
@[simp] theorem State.programFlash_brc (s : State) (a : Nat) (b : List Byte) : (s.programFlash a b).brc = s.brc := rfl
@[simp] theorem State.programFlash_aks (s : State) (a : Nat) (b : List Byte) : (s.programFlash a b).aks = s.aks := rfl
@[simp] theorem State.programFlash_akm (s : State) (a : Nat) (b : List Byte) : (s.programFlash a b).akm = s.akm := rfl

/-! ### `eraseFlash` -/

@[simp] theorem State.eraseFlash_pending (s : State) (a : Nat) : (s.eraseFlash a).pending = s.pending := rfl
@[simp] theorem State.eraseFlash_freeCtr (s : State) (a : Nat) : (s.eraseFlash a).freeCtr = s.freeCtr := rfl
@[simp] theorem State.eraseFlash_answer (s : State) (a : Nat) : (s.eraseFlash a).answer = s.answer := rfl
@[simp] theorem State.eraseFlash_now (s : State) (a : Nat) : (s.eraseFlash a).now = s.now := rfl
@[simp] theorem State.eraseFlash_time (s : State) (a : Nat) : (s.eraseFlash a).time = s.time := rfl
@[simp] theorem State.eraseFlash_tstate (s : State) (a : Nat) : (s.eraseFlash a).tstate = s.tstate := rfl
@[simp] theorem State.eraseFlash_regs (s : State) (a : Nat) : (s.eraseFlash a).regs = s.regs := rfl
@[simp] theorem State.eraseFlash_shadow (s : State) (a : Nat) : (s.eraseFlash a).shadow = s.shadow := rfl
@[simp] theorem State.eraseFlash_captured (s : State) (a : Nat) : (s.eraseFlash a).captured = s.captured := rfl
@[simp] theorem State.eraseFlash_mem (s : State) (a : Nat) : (s.eraseFlash a).mem = s.mem := rfl
@[simp] theorem State.eraseFlash_flash (s : State) (a : Nat) : (s.eraseFlash a).flash = Memory.clear s.flash a 0x10000 := rfl
@[simp] theorem State.eraseFlash_poison (s : State) (a : Nat) : (s.eraseFlash a).poison = s.poison := rfl
@[simp] theorem State.eraseFlash_wrong (s : State) (a : Nat) : (s.eraseFlash a).wrong = s.wrong := rfl
@[simp] theorem State.eraseFlash_snap (s : State) (a : Nat) : (s.eraseFlash a).snap = s.snap := rfl
@[simp] theorem State.eraseFlash_heldWrites (s : State) (a : Nat) : (s.eraseFlash a).heldWrites = s.heldWrites := rfl
@[simp] theorem State.eraseFlash_fullSince (s : State) (a : Nat) : (s.eraseFlash a).fullSince = s.fullSince := rfl
@[simp] theorem State.eraseFlash_scrub (s : State) (a : Nat) : (s.eraseFlash a).scrub = s.scrub := rfl
@[simp] theorem State.eraseFlash_scrubAt (s : State) (a : Nat) : (s.eraseFlash a).scrubAt = s.scrubAt := rfl
@[simp] theorem State.eraseFlash_calAt (s : State) (a : Nat) : (s.eraseFlash a).calAt = s.calAt := rfl
@[simp] theorem State.eraseFlash_flights (s : State) (a : Nat) : (s.eraseFlash a).flights = s.flights := rfl
@[simp] theorem State.eraseFlash_arb (s : State) (a : Nat) : (s.eraseFlash a).arb = s.arb := rfl
@[simp] theorem State.eraseFlash_penDue (s : State) (a : Nat) : (s.eraseFlash a).penDue = s.penDue := rfl
@[simp] theorem State.eraseFlash_raised (s : State) (a : Nat) : (s.eraseFlash a).raised = s.raised := rfl
@[simp] theorem State.eraseFlash_delivered (s : State) (a : Nat) : (s.eraseFlash a).delivered = s.delivered := rfl
@[simp] theorem State.eraseFlash_requests (s : State) (a : Nat) : (s.eraseFlash a).requests = s.requests := rfl
@[simp] theorem State.eraseFlash_seqs (s : State) (a : Nat) : (s.eraseFlash a).seqs = s.seqs := rfl
@[simp] theorem State.eraseFlash_d2d (s : State) (a : Nat) : (s.eraseFlash a).d2d = s.d2d := rfl
@[simp] theorem State.eraseFlash_ports (s : State) (a : Nat) : (s.eraseFlash a).ports = s.ports := rfl
@[simp] theorem State.eraseFlash_tallies (s : State) (a : Nat) : (s.eraseFlash a).tallies = s.tallies := rfl
@[simp] theorem State.eraseFlash_hurdles (s : State) (a : Nat) : (s.eraseFlash a).hurdles = s.hurdles := rfl
@[simp] theorem State.eraseFlash_tiles (s : State) (a : Nat) : (s.eraseFlash a).tiles = s.tiles := rfl
@[simp] theorem State.eraseFlash_cores (s : State) (a : Nat) : (s.eraseFlash a).cores = s.cores := rfl
@[simp] theorem State.eraseFlash_lines (s : State) (a : Nat) : (s.eraseFlash a).lines = s.lines := rfl
@[simp] theorem State.eraseFlash_aplicM (s : State) (a : Nat) : (s.eraseFlash a).aplicM = s.aplicM := rfl
@[simp] theorem State.eraseFlash_aplicS (s : State) (a : Nat) : (s.eraseFlash a).aplicS = s.aplicS := rfl
@[simp] theorem State.eraseFlash_wires (s : State) (a : Nat) : (s.eraseFlash a).wires = s.wires := rfl
@[simp] theorem State.eraseFlash_engines (s : State) (a : Nat) : (s.eraseFlash a).engines = s.engines := rfl
@[simp] theorem State.eraseFlash_qwins (s : State) (a : Nat) : (s.eraseFlash a).qwins = s.qwins := rfl
@[simp] theorem State.eraseFlash_ckp (s : State) (a : Nat) : (s.eraseFlash a).ckp = s.ckp := rfl
@[simp] theorem State.eraseFlash_hec (s : State) (a : Nat) : (s.eraseFlash a).hec = s.hec := rfl
@[simp] theorem State.eraseFlash_brc (s : State) (a : Nat) : (s.eraseFlash a).brc = s.brc := rfl
@[simp] theorem State.eraseFlash_aks (s : State) (a : Nat) : (s.eraseFlash a).aks = s.aks := rfl
@[simp] theorem State.eraseFlash_akm (s : State) (a : Nat) : (s.eraseFlash a).akm = s.akm := rfl

/-! ### `setSession` -/

@[simp] theorem State.setSession_pending (s : State) (slot : Nat) (x : Option Session) : (s.setSession slot x).pending = s.pending := rfl
@[simp] theorem State.setSession_freeCtr (s : State) (slot : Nat) (x : Option Session) : (s.setSession slot x).freeCtr = s.freeCtr := rfl
@[simp] theorem State.setSession_answer (s : State) (slot : Nat) (x : Option Session) : (s.setSession slot x).answer = s.answer := rfl
@[simp] theorem State.setSession_now (s : State) (slot : Nat) (x : Option Session) : (s.setSession slot x).now = s.now := rfl
@[simp] theorem State.setSession_time (s : State) (slot : Nat) (x : Option Session) : (s.setSession slot x).time = s.time := rfl
@[simp] theorem State.setSession_tstate (s : State) (slot : Nat) (x : Option Session) : (s.setSession slot x).tstate = s.tstate := rfl
@[simp] theorem State.setSession_regs (s : State) (slot : Nat) (x : Option Session) : (s.setSession slot x).regs = s.regs := rfl
@[simp] theorem State.setSession_shadow (s : State) (slot : Nat) (x : Option Session) : (s.setSession slot x).shadow = s.shadow := rfl
@[simp] theorem State.setSession_captured (s : State) (slot : Nat) (x : Option Session) : (s.setSession slot x).captured = s.captured := rfl
@[simp] theorem State.setSession_mem (s : State) (slot : Nat) (x : Option Session) : (s.setSession slot x).mem = s.mem := rfl
@[simp] theorem State.setSession_flash (s : State) (slot : Nat) (x : Option Session) : (s.setSession slot x).flash = s.flash := rfl
@[simp] theorem State.setSession_poison (s : State) (slot : Nat) (x : Option Session) : (s.setSession slot x).poison = s.poison := rfl
@[simp] theorem State.setSession_wrong (s : State) (slot : Nat) (x : Option Session) : (s.setSession slot x).wrong = s.wrong := rfl
@[simp] theorem State.setSession_snap (s : State) (slot : Nat) (x : Option Session) : (s.setSession slot x).snap = s.snap := rfl
@[simp] theorem State.setSession_heldWrites (s : State) (slot : Nat) (x : Option Session) : (s.setSession slot x).heldWrites = s.heldWrites := rfl
@[simp] theorem State.setSession_fullSince (s : State) (slot : Nat) (x : Option Session) : (s.setSession slot x).fullSince = s.fullSince := rfl
@[simp] theorem State.setSession_scrub (s : State) (slot : Nat) (x : Option Session) : (s.setSession slot x).scrub = s.scrub := rfl
@[simp] theorem State.setSession_scrubAt (s : State) (slot : Nat) (x : Option Session) : (s.setSession slot x).scrubAt = s.scrubAt := rfl
@[simp] theorem State.setSession_calAt (s : State) (slot : Nat) (x : Option Session) : (s.setSession slot x).calAt = s.calAt := rfl
@[simp] theorem State.setSession_flights (s : State) (slot : Nat) (x : Option Session) : (s.setSession slot x).flights = s.flights := rfl
@[simp] theorem State.setSession_arb (s : State) (slot : Nat) (x : Option Session) : (s.setSession slot x).arb = s.arb := rfl
@[simp] theorem State.setSession_penDue (s : State) (slot : Nat) (x : Option Session) : (s.setSession slot x).penDue = s.penDue := rfl
@[simp] theorem State.setSession_raised (s : State) (slot : Nat) (x : Option Session) : (s.setSession slot x).raised = s.raised := rfl
@[simp] theorem State.setSession_delivered (s : State) (slot : Nat) (x : Option Session) : (s.setSession slot x).delivered = s.delivered := rfl
@[simp] theorem State.setSession_requests (s : State) (slot : Nat) (x : Option Session) : (s.setSession slot x).requests = s.requests := rfl
@[simp] theorem State.setSession_seqs (s : State) (slot : Nat) (x : Option Session) : (s.setSession slot x).seqs = s.seqs := rfl
@[simp] theorem State.setSession_d2d (s : State) (slot : Nat) (x : Option Session) : (s.setSession slot x).d2d = s.d2d := rfl
@[simp] theorem State.setSession_ports (s : State) (slot : Nat) (x : Option Session) : (s.setSession slot x).ports = s.ports := rfl
@[simp] theorem State.setSession_tallies (s : State) (slot : Nat) (x : Option Session) : (s.setSession slot x).tallies = s.tallies := rfl
@[simp] theorem State.setSession_hurdles (s : State) (slot : Nat) (x : Option Session) : (s.setSession slot x).hurdles = s.hurdles := rfl
@[simp] theorem State.setSession_tiles (s : State) (slot : Nat) (x : Option Session) : (s.setSession slot x).tiles = s.tiles := rfl
@[simp] theorem State.setSession_cores (s : State) (slot : Nat) (x : Option Session) : (s.setSession slot x).cores = s.cores := rfl
@[simp] theorem State.setSession_lines (s : State) (slot : Nat) (x : Option Session) : (s.setSession slot x).lines = s.lines := rfl
@[simp] theorem State.setSession_aplicM (s : State) (slot : Nat) (x : Option Session) : (s.setSession slot x).aplicM = s.aplicM := rfl
@[simp] theorem State.setSession_aplicS (s : State) (slot : Nat) (x : Option Session) : (s.setSession slot x).aplicS = s.aplicS := rfl
@[simp] theorem State.setSession_wires (s : State) (slot : Nat) (x : Option Session) : (s.setSession slot x).wires = s.wires := rfl
@[simp] theorem State.setSession_engines (s : State) (slot : Nat) (x : Option Session) : (s.setSession slot x).engines = s.engines := rfl
@[simp] theorem State.setSession_qwins (s : State) (slot : Nat) (x : Option Session) : (s.setSession slot x).qwins = s.qwins := rfl
@[simp] theorem State.setSession_ckp (s : State) (slot : Nat) (x : Option Session) : (s.setSession slot x).ckp = s.ckp := rfl
@[simp] theorem State.setSession_hec (s : State) (slot : Nat) (x : Option Session) : (s.setSession slot x).hec = { s.hec with sessions := Table.set none s.hec.sessions slot x } := rfl
@[simp] theorem State.setSession_brc (s : State) (slot : Nat) (x : Option Session) : (s.setSession slot x).brc = s.brc := rfl
@[simp] theorem State.setSession_aks (s : State) (slot : Nat) (x : Option Session) : (s.setSession slot x).aks = s.aks := rfl
@[simp] theorem State.setSession_akm (s : State) (slot : Nat) (x : Option Session) : (s.setSession slot x).akm = s.akm := rfl

/-! ### `transmit` -/

@[simp] theorem State.transmit_pending (s : State) (o : EthOut) : (s.transmit o).pending = s.pending := rfl
@[simp] theorem State.transmit_freeCtr (s : State) (o : EthOut) : (s.transmit o).freeCtr = s.freeCtr := rfl
@[simp] theorem State.transmit_answer (s : State) (o : EthOut) : (s.transmit o).answer = s.answer := rfl
@[simp] theorem State.transmit_now (s : State) (o : EthOut) : (s.transmit o).now = s.now := rfl
@[simp] theorem State.transmit_time (s : State) (o : EthOut) : (s.transmit o).time = s.time := rfl
@[simp] theorem State.transmit_tstate (s : State) (o : EthOut) : (s.transmit o).tstate = s.tstate := rfl
@[simp] theorem State.transmit_regs (s : State) (o : EthOut) : (s.transmit o).regs = s.regs := rfl
@[simp] theorem State.transmit_shadow (s : State) (o : EthOut) : (s.transmit o).shadow = s.shadow := rfl
@[simp] theorem State.transmit_captured (s : State) (o : EthOut) : (s.transmit o).captured = s.captured := rfl
@[simp] theorem State.transmit_mem (s : State) (o : EthOut) : (s.transmit o).mem = s.mem := rfl
@[simp] theorem State.transmit_flash (s : State) (o : EthOut) : (s.transmit o).flash = s.flash := rfl
@[simp] theorem State.transmit_poison (s : State) (o : EthOut) : (s.transmit o).poison = s.poison := rfl
@[simp] theorem State.transmit_wrong (s : State) (o : EthOut) : (s.transmit o).wrong = s.wrong := rfl
@[simp] theorem State.transmit_snap (s : State) (o : EthOut) : (s.transmit o).snap = s.snap := rfl
@[simp] theorem State.transmit_heldWrites (s : State) (o : EthOut) : (s.transmit o).heldWrites = s.heldWrites := rfl
@[simp] theorem State.transmit_fullSince (s : State) (o : EthOut) : (s.transmit o).fullSince = s.fullSince := rfl
@[simp] theorem State.transmit_scrub (s : State) (o : EthOut) : (s.transmit o).scrub = s.scrub := rfl
@[simp] theorem State.transmit_scrubAt (s : State) (o : EthOut) : (s.transmit o).scrubAt = s.scrubAt := rfl
@[simp] theorem State.transmit_calAt (s : State) (o : EthOut) : (s.transmit o).calAt = s.calAt := rfl
@[simp] theorem State.transmit_flights (s : State) (o : EthOut) : (s.transmit o).flights = s.flights := rfl
@[simp] theorem State.transmit_arb (s : State) (o : EthOut) : (s.transmit o).arb = s.arb := rfl
@[simp] theorem State.transmit_penDue (s : State) (o : EthOut) : (s.transmit o).penDue = s.penDue := rfl
@[simp] theorem State.transmit_raised (s : State) (o : EthOut) : (s.transmit o).raised = s.raised := rfl
@[simp] theorem State.transmit_delivered (s : State) (o : EthOut) : (s.transmit o).delivered = s.delivered := rfl
@[simp] theorem State.transmit_requests (s : State) (o : EthOut) : (s.transmit o).requests = s.requests := rfl
@[simp] theorem State.transmit_seqs (s : State) (o : EthOut) : (s.transmit o).seqs = s.seqs := rfl
@[simp] theorem State.transmit_d2d (s : State) (o : EthOut) : (s.transmit o).d2d = s.d2d := rfl
@[simp] theorem State.transmit_ports (s : State) (o : EthOut) : (s.transmit o).ports = s.ports := rfl
@[simp] theorem State.transmit_tallies (s : State) (o : EthOut) : (s.transmit o).tallies = s.tallies := rfl
@[simp] theorem State.transmit_hurdles (s : State) (o : EthOut) : (s.transmit o).hurdles = s.hurdles := rfl
@[simp] theorem State.transmit_tiles (s : State) (o : EthOut) : (s.transmit o).tiles = s.tiles := rfl
@[simp] theorem State.transmit_cores (s : State) (o : EthOut) : (s.transmit o).cores = s.cores := rfl
@[simp] theorem State.transmit_lines (s : State) (o : EthOut) : (s.transmit o).lines = s.lines := rfl
@[simp] theorem State.transmit_aplicM (s : State) (o : EthOut) : (s.transmit o).aplicM = s.aplicM := rfl
@[simp] theorem State.transmit_aplicS (s : State) (o : EthOut) : (s.transmit o).aplicS = s.aplicS := rfl
@[simp] theorem State.transmit_wires (s : State) (o : EthOut) : (s.transmit o).wires = s.wires := rfl
@[simp] theorem State.transmit_engines (s : State) (o : EthOut) : (s.transmit o).engines = s.engines := rfl
@[simp] theorem State.transmit_qwins (s : State) (o : EthOut) : (s.transmit o).qwins = s.qwins := rfl
@[simp] theorem State.transmit_ckp (s : State) (o : EthOut) : (s.transmit o).ckp = s.ckp := rfl
@[simp] theorem State.transmit_hec (s : State) (o : EthOut) : (s.transmit o).hec = { s.hec with out := s.hec.out ++ [o] } := rfl
@[simp] theorem State.transmit_brc (s : State) (o : EthOut) : (s.transmit o).brc = s.brc := rfl
@[simp] theorem State.transmit_aks (s : State) (o : EthOut) : (s.transmit o).aks = s.aks := rfl
@[simp] theorem State.transmit_akm (s : State) (o : EthOut) : (s.transmit o).akm = s.akm := rfl

/-! ### `sendAs` -/

@[simp] theorem State.sendAs_pending (s : State) (ep jid : Nat) (p : Purpose) (k : Packet) (g : Bool) : (s.sendAs ep jid p k g).pending = s.pending := rfl
@[simp] theorem State.sendAs_freeCtr (s : State) (ep jid : Nat) (p : Purpose) (k : Packet) (g : Bool) : (s.sendAs ep jid p k g).freeCtr = s.freeCtr := rfl
@[simp] theorem State.sendAs_answer (s : State) (ep jid : Nat) (p : Purpose) (k : Packet) (g : Bool) : (s.sendAs ep jid p k g).answer = s.answer := rfl
@[simp] theorem State.sendAs_now (s : State) (ep jid : Nat) (p : Purpose) (k : Packet) (g : Bool) : (s.sendAs ep jid p k g).now = s.now := rfl
@[simp] theorem State.sendAs_time (s : State) (ep jid : Nat) (p : Purpose) (k : Packet) (g : Bool) : (s.sendAs ep jid p k g).time = s.time := rfl
@[simp] theorem State.sendAs_tstate (s : State) (ep jid : Nat) (p : Purpose) (k : Packet) (g : Bool) : (s.sendAs ep jid p k g).tstate = s.tstate := rfl
@[simp] theorem State.sendAs_regs (s : State) (ep jid : Nat) (p : Purpose) (k : Packet) (g : Bool) : (s.sendAs ep jid p k g).regs = s.regs := rfl
@[simp] theorem State.sendAs_shadow (s : State) (ep jid : Nat) (p : Purpose) (k : Packet) (g : Bool) : (s.sendAs ep jid p k g).shadow = s.shadow := rfl
@[simp] theorem State.sendAs_captured (s : State) (ep jid : Nat) (p : Purpose) (k : Packet) (g : Bool) : (s.sendAs ep jid p k g).captured = s.captured := rfl
@[simp] theorem State.sendAs_mem (s : State) (ep jid : Nat) (p : Purpose) (k : Packet) (g : Bool) : (s.sendAs ep jid p k g).mem = s.mem := rfl
@[simp] theorem State.sendAs_flash (s : State) (ep jid : Nat) (p : Purpose) (k : Packet) (g : Bool) : (s.sendAs ep jid p k g).flash = s.flash := rfl
@[simp] theorem State.sendAs_poison (s : State) (ep jid : Nat) (p : Purpose) (k : Packet) (g : Bool) : (s.sendAs ep jid p k g).poison = s.poison := rfl
@[simp] theorem State.sendAs_wrong (s : State) (ep jid : Nat) (p : Purpose) (k : Packet) (g : Bool) : (s.sendAs ep jid p k g).wrong = s.wrong := rfl
@[simp] theorem State.sendAs_snap (s : State) (ep jid : Nat) (p : Purpose) (k : Packet) (g : Bool) : (s.sendAs ep jid p k g).snap = s.snap := rfl
@[simp] theorem State.sendAs_heldWrites (s : State) (ep jid : Nat) (p : Purpose) (k : Packet) (g : Bool) : (s.sendAs ep jid p k g).heldWrites = s.heldWrites := rfl
@[simp] theorem State.sendAs_fullSince (s : State) (ep jid : Nat) (p : Purpose) (k : Packet) (g : Bool) : (s.sendAs ep jid p k g).fullSince = s.fullSince := rfl
@[simp] theorem State.sendAs_scrub (s : State) (ep jid : Nat) (p : Purpose) (k : Packet) (g : Bool) : (s.sendAs ep jid p k g).scrub = s.scrub := rfl
@[simp] theorem State.sendAs_scrubAt (s : State) (ep jid : Nat) (p : Purpose) (k : Packet) (g : Bool) : (s.sendAs ep jid p k g).scrubAt = s.scrubAt := rfl
@[simp] theorem State.sendAs_calAt (s : State) (ep jid : Nat) (p : Purpose) (k : Packet) (g : Bool) : (s.sendAs ep jid p k g).calAt = s.calAt := rfl
@[simp] theorem State.sendAs_arb (s : State) (ep jid : Nat) (p : Purpose) (k : Packet) (g : Bool) : (s.sendAs ep jid p k g).arb = s.arb := rfl
@[simp] theorem State.sendAs_penDue (s : State) (ep jid : Nat) (p : Purpose) (k : Packet) (g : Bool) : (s.sendAs ep jid p k g).penDue = s.penDue := rfl
@[simp] theorem State.sendAs_raised (s : State) (ep jid : Nat) (p : Purpose) (k : Packet) (g : Bool) : (s.sendAs ep jid p k g).raised = s.raised := rfl
@[simp] theorem State.sendAs_delivered (s : State) (ep jid : Nat) (p : Purpose) (k : Packet) (g : Bool) : (s.sendAs ep jid p k g).delivered = s.delivered := rfl
@[simp] theorem State.sendAs_d2d (s : State) (ep jid : Nat) (p : Purpose) (k : Packet) (g : Bool) : (s.sendAs ep jid p k g).d2d = s.d2d := rfl
@[simp] theorem State.sendAs_ports (s : State) (ep jid : Nat) (p : Purpose) (k : Packet) (g : Bool) : (s.sendAs ep jid p k g).ports = s.ports := rfl
@[simp] theorem State.sendAs_tallies (s : State) (ep jid : Nat) (p : Purpose) (k : Packet) (g : Bool) : (s.sendAs ep jid p k g).tallies = s.tallies := rfl
@[simp] theorem State.sendAs_hurdles (s : State) (ep jid : Nat) (p : Purpose) (k : Packet) (g : Bool) : (s.sendAs ep jid p k g).hurdles = s.hurdles := rfl
@[simp] theorem State.sendAs_tiles (s : State) (ep jid : Nat) (p : Purpose) (k : Packet) (g : Bool) : (s.sendAs ep jid p k g).tiles = s.tiles := rfl
@[simp] theorem State.sendAs_cores (s : State) (ep jid : Nat) (p : Purpose) (k : Packet) (g : Bool) : (s.sendAs ep jid p k g).cores = s.cores := rfl
@[simp] theorem State.sendAs_lines (s : State) (ep jid : Nat) (p : Purpose) (k : Packet) (g : Bool) : (s.sendAs ep jid p k g).lines = s.lines := rfl
@[simp] theorem State.sendAs_aplicM (s : State) (ep jid : Nat) (p : Purpose) (k : Packet) (g : Bool) : (s.sendAs ep jid p k g).aplicM = s.aplicM := rfl
@[simp] theorem State.sendAs_aplicS (s : State) (ep jid : Nat) (p : Purpose) (k : Packet) (g : Bool) : (s.sendAs ep jid p k g).aplicS = s.aplicS := rfl
@[simp] theorem State.sendAs_wires (s : State) (ep jid : Nat) (p : Purpose) (k : Packet) (g : Bool) : (s.sendAs ep jid p k g).wires = s.wires := rfl
@[simp] theorem State.sendAs_engines (s : State) (ep jid : Nat) (p : Purpose) (k : Packet) (g : Bool) : (s.sendAs ep jid p k g).engines = s.engines := rfl
@[simp] theorem State.sendAs_qwins (s : State) (ep jid : Nat) (p : Purpose) (k : Packet) (g : Bool) : (s.sendAs ep jid p k g).qwins = s.qwins := rfl
@[simp] theorem State.sendAs_ckp (s : State) (ep jid : Nat) (p : Purpose) (k : Packet) (g : Bool) : (s.sendAs ep jid p k g).ckp = s.ckp := rfl
@[simp] theorem State.sendAs_hec (s : State) (ep jid : Nat) (p : Purpose) (k : Packet) (g : Bool) : (s.sendAs ep jid p k g).hec = s.hec := rfl
@[simp] theorem State.sendAs_brc (s : State) (ep jid : Nat) (p : Purpose) (k : Packet) (g : Bool) : (s.sendAs ep jid p k g).brc = s.brc := rfl
@[simp] theorem State.sendAs_aks (s : State) (ep jid : Nat) (p : Purpose) (k : Packet) (g : Bool) : (s.sendAs ep jid p k g).aks = s.aks := rfl
@[simp] theorem State.sendAs_akm (s : State) (ep jid : Nat) (p : Purpose) (k : Packet) (g : Bool) : (s.sendAs ep jid p k g).akm = s.akm := rfl

end Sys2Proof.Machine
end

