-- ==== Sys2Proof/Laws/Ops.lean ====
section
/-! SUPPORT. What the shared operations do, each said once: the gate of a command, iteration, agents, registers and their
fields, memory, and requests. -/

namespace Sys2Proof.Machine

/-! ### Commands and iteration -/

theorem act_true {c : Bool} {f : State → State} {s : State} (h : c = true) : act c f s = .next (f s) := by
  simp [act, h]

theorem act_false {c : Bool} {f : State → State} {s : State} (h : c = false) : act c f s = .next s := by
  simp [act, h]

/-- A property that each pass keeps holds after the iteration. -/
theorem forEach_keeps {α : Type} {P : State → Prop} {f : α → State → State} (hf : ∀ a s, P s → P (f a s)) :
    ∀ (l : List α) (s : State), P s → P (forEach l f s) := by
  intro l
  induction l with
  | nil => intro s h; exact h
  | cons a l ih => intro s h; exact ih (f a s) (hf a s h)

/-- A part of the state that no pass changes is as before after the iteration. -/
theorem forEach_same {α β : Type} {g : State → β} {f : α → State → State} (hf : ∀ a s, g (f a s) = g s)
    (l : List α) (s : State) : g (forEach l f s) = g s :=
  forEach_keeps (P := fun t => g t = g s) (fun a t h => (hf a t).trans h) l s rfl

@[simp] theorem forEach_nil {α : Type} (f : α → State → State) (s : State) : forEach [] f s = s := rfl

@[simp] theorem forEach_cons {α : Type} (a : α) (l : List α) (f : α → State → State) (s : State) :
    forEach (a :: l) f s = forEach l f (f a s) := rfl

/-! ### Agents -/

theorem State.tile_setTile {s : State} {t u : Nat} {x : Tile} (h : Table.risesFrom 0 s.tiles = true) :
    (s.setTile t x).tile u = if u = t then x else s.tile u := Table.get_set h

theorem State.core_setCore {s : State} {c d : Nat} {x : Core} (h : Table.risesFrom 0 s.cores = true) :
    (s.setCore c x).core d = if d = c then x else s.core d := Table.get_set h

theorem State.engine_setEngine {s : State} {e f : Nat} {x : Engine} (h : Table.risesFrom 0 s.engines = true) :
    (s.setEngine e x).engine f = if f = e then x else s.engine f := Table.get_set h

theorem State.port_setPort {s : State} {p q : Nat} {x : Port} (h : Table.risesFrom 0 s.ports = true) :
    (s.setPort p x).port q = if q = p then x else s.port q := Table.get_set h

theorem State.hurdle_setHurdle {s : State} {i j : Nat} {x : Hurdle} (h : Table.risesFrom 0 s.hurdles = true) :
    (s.setHurdle i x).hurdle j = if j = i then x else s.hurdle j := Table.get_set h

theorem State.tally_setTally {s : State} {i j : Nat} {x : Tally} (h : Table.risesFrom 0 s.tallies = true) :
    (s.setTally i x).tally j = if j = i then x else s.tally j := Table.get_set h

theorem State.session_setSession {s : State} {i j : Nat} {x : Option Session}
    (h : Table.risesFrom 0 s.hec.sessions = true) : (s.setSession i x).session j = if j = i then x else s.session j :=
  Table.get_set h

/-! ### Registers -/

theorem State.getReg_setReg_self {s : State} {a : Nat} {v : Word} (h : Table.risesFrom 0 s.regs = true) :
    (s.setReg a v).getReg a = v := Table.get_set_self h

theorem State.getReg_setReg_other {s : State} {a b : Nat} {v : Word} (h : Table.risesFrom 0 s.regs = true) (hb : b ≠ a) :
    (s.setReg a v).getReg b = s.getReg b := Table.get_set_other h hb

theorem State.risesFrom_setReg {s : State} {a : Nat} {v : Word} (h : Table.risesFrom 0 s.regs = true) :
    Table.risesFrom 0 (s.setReg a v).regs = true := Table.risesFrom_set h

theorem State.risesFrom_setField {s : State} {n : RegName} {i j lo len v : Nat} (h : Table.risesFrom 0 s.regs = true) :
    Table.risesFrom 0 (s.setField n i j lo len v).regs = true := Table.risesFrom_set h

/-- Bits `lo` to `lo + len - 1` after they are replaced. -/
theorem bitsOf_putBits_self (x lo len v : Nat) : bitsOf (putBits x lo len v) lo len = v % 2 ^ len := by
  have hp : 0 < 2 ^ lo := Nat.two_pow_pos lo
  have hl : 0 < 2 ^ len := Nat.two_pow_pos len
  have h1 : bitsOf x lo len * 2 ^ lo ≤ x :=
    Nat.le_trans (Nat.mul_le_mul_right _ (Nat.mod_le _ _)) (Nat.div_mul_le_self x (2 ^ lo))
  have hx : x / 2 ^ lo % 2 ^ len * 2 ^ lo + 2 ^ len * (x / 2 ^ lo / 2 ^ len) * 2 ^ lo + x % 2 ^ lo = x := by
    have a := Nat.mod_add_div (x / 2 ^ lo) (2 ^ len)
    have b := Nat.div_add_mod x (2 ^ lo)
    rw [← Nat.add_mul, a, Nat.mul_comm]
    exact b
  have e : putBits x lo len v = (2 ^ len * (x / 2 ^ lo / 2 ^ len) + v % 2 ^ len) * 2 ^ lo + x % 2 ^ lo := by
    unfold putBits bitsOf
    rw [Nat.add_mul]
    omega
  unfold bitsOf at *
  rw [e, Nat.mul_comm _ (2 ^ lo), Nat.mul_add_div hp, Nat.div_eq_of_lt (Nat.mod_lt _ hp), Nat.add_zero,
    Nat.mul_add_mod, Nat.mod_mod]

/-- A guarded write of a register answers, is refused, or has its effect. -/
theorem guardedWrite_cases (src : Requester) (denied : Bool) (f : State → State) (s : State) :
    (mayAddress src = false ∧ guardedWrite src denied f s = answering errUNMAPPED 0 s)
    ∨ (mayAddress src = true ∧ denied = true ∧ guardedWrite src denied f s = answering errJOB_DENIED 0 s)
    ∨ (mayAddress src = true ∧ denied = false ∧ guardedWrite src denied f s = f (answering 0 0 s)) := by
  unfold guardedWrite
  cases mayAddress src <;> cases denied <;> simp

/-! ### Memory and requests -/

theorem State.readMem_writeMem_self {s : State} {a : Nat} {b : List Byte} (h : s.memWf = true) :
    (s.writeMem a b).readMem a b.length = b := by
  simp only [State.memWf, Bool.and_eq_true] at h
  exact Memory.read_write_self (Table.wf_risesFrom h.1)

theorem State.readMem_writeMem_other {s : State} {a c n : Nat} {b : List Byte} (h : s.memWf = true)
    (hd : c + n ≤ a ∨ a + b.length ≤ c) : (s.writeMem a b).readMem c n = s.readMem c n := by
  simp only [State.memWf, Bool.and_eq_true] at h
  exact Memory.read_write_other (Table.wf_risesFrom h.1) hd

/-- Reading sectors that hold no double-bit error leaves nothing behind. -/
theorem sramMet_good {s : State} {base n ep : Nat} (h : sramGood s base n = true) : sramMet base n ep s = s := by
  unfold sramMet
  split
  · rfl
  · have e : (List.range n).filter (fun i => decide (2 ≤ s.wrongAt (base + 32 * i))) = [] := by
      rw [List.filter_eq_nil_iff]
      intro i hi
      have := List.all_eq_true.mp h i hi
      simp at this ⊢
      omega
    rw [e]
    rfl

theorem bytesMet_good {s : State} {a n ep : Nat} (h : bytesGood s a n = true) : bytesMet a n ep s = s := by
  unfold bytesMet
  split
  · rfl
  · rename_i hn
    exact sramMet_good (by simpa [bytesGood, hn] using h)

/-- A request goes out: one record of it, one packet at its source stop, and the next sequence number of its endpoint. -/
theorem State.sendAs_requests (s : State) (ep jid : Nat) (p : Purpose) (k : Packet) (g : Bool) :
    ∃ r : Request, (s.sendAs ep jid p k g).requests = s.requests ++ [r] ∧ r.ep = ep ∧ r.purpose = p ∧ r.pkt.jid = jid
      ∧ r.pkt.opcode = k.opcode ∧ r.pkt.data = k.data ∧ r.pkt.offset = k.offset ∧ r.seq = Table.get 0 s.seqs ep
      ∧ r.pkt.srcEp = ep :=
  ⟨_, rfl, rfl, rfl, rfl, rfl, rfl, rfl, rfl, rfl⟩

end Sys2Proof.Machine
end

