-- ==== Sys2Proof/Laws/Pages.lean ====
section
/-! SUPPORT. What the one-page state items of a cut spell is read back as it was (R338, R350): one law for each way of joining
codecs, then one for each kind of page. -/

namespace Sys2Proof.Laws

open Sys2Proof.Machine

/-- What a codec writes of the values that satisfy a test, it reads back, and leaves what follows. -/
def ReadsBack {α : Type} (c : Codec α) (P : α → Prop) : Prop :=
  ∀ a, P a → ∀ r, c.get (c.put a ++ r) = some (a, r)

/-- Every value. -/
def Always {α : Type} (_ : α) : Prop := True

/-- A codec that reads back every value. -/
def Whole {α : Type} (c : Codec α) : Prop := ∀ a r, c.get (c.put a ++ r) = some (a, r)

theorem Whole.reads {α : Type} {c : Codec α} (h : Whole c) : ReadsBack c Always := fun a _ r => h a r

/-! ### Ways of joining -/

theorem getNat_putNat (n : Nat) : ∀ x, x ≤ n → ∀ r, getNat (putNat n x ++ r) = some (x, r) := by
  induction n with
  | zero =>
    intro x h r
    obtain rfl : x = 0 := by omega
    simp [putNat, getNat]
  | succ n ih =>
    intro x h r
    by_cases hx : x < 128
    · have : x % 256 = x := by omega
      simp [putNat, getNat, hx, this]
    · have e : (x % 128 + 128) % 256 = x % 128 + 128 := by omega
      have g : x / 128 ≤ n := by omega
      have k : x % 128 + 128 * (x / 128) = x := Nat.mod_add_div x 128
      have l : ¬ x % 128 + 128 < 128 := by omega
      simp [putNat, getNat, hx, e, l, ih _ g, k]

theorem nat_whole : Whole Codec.nat := fun x r => getNat_putNat x x (Nat.le_refl x) r

theorem unit_whole : Whole Codec.unit := fun _ _ => rfl

theorem pair_reads {α β : Type} {c : Codec α} {d : Codec β} {P : α → Prop} {Q : β → Prop} (hc : ReadsBack c P)
    (hd : ReadsBack d Q) : ReadsBack (Codec.pair c d) (fun p => P p.1 ∧ Q p.2) := by
  intro p h r
  simp [Codec.pair, List.append_assoc, hc p.1 h.1, hd p.2 h.2]

theorem sum_reads {α β : Type} {c : Codec α} {d : Codec β} {P : α → Prop} {Q : β → Prop} (hc : ReadsBack c P)
    (hd : ReadsBack d Q) : ReadsBack (Codec.sum c d) (Sum.elim P Q) := by
  intro x h r
  cases x with
  | inl a => simp [Codec.sum, hc a h]
  | inr b => simp [Codec.sum, hd b h]

theorem getMany_reads {α : Type} {c : Codec α} {P : α → Prop} (hc : ReadsBack c P) (l : List α) (h : ∀ a ∈ l, P a)
    (r : List Byte) : getMany c l.length (l.flatMap c.put ++ r) = some (l, r) := by
  induction l with
  | nil => simp [getMany]
  | cons a l ih =>
    simp [getMany, List.append_assoc, hc a (h a (by simp)), ih (fun b hb => h b (by simp [hb]))]

theorem list_reads {α : Type} {c : Codec α} {P : α → Prop} (hc : ReadsBack c P) :
    ReadsBack (Codec.list c) (fun l => ∀ a ∈ l, P a) := by
  intro l h r
  simp [Codec.list, List.append_assoc, getNat_putNat _ _ (Nat.le_refl l.length), getMany_reads hc l h]

/-- A value told by another one, where telling it and taking it back leaves it. -/
theorem iso_reads {α β : Type} {c : Codec α} {P : α → Prop} {Q : β → Prop} {f : β → α} {g : α → β} (hc : ReadsBack c P)
    (hf : ∀ b, Q b → P (f b)) (hg : ∀ b, Q b → g (f b) = b) : ReadsBack (c.iso f g) Q := by
  intro b h r
  simp [Codec.iso, hc (f b) (hf b h), hg b h]

theorem Whole.pair {α β : Type} {c : Codec α} {d : Codec β} (hc : Whole c) (hd : Whole d) : Whole (Codec.pair c d) :=
  fun p r => pair_reads hc.reads hd.reads p ⟨trivial, trivial⟩ r

theorem Whole.sum {α β : Type} {c : Codec α} {d : Codec β} (hc : Whole c) (hd : Whole d) : Whole (Codec.sum c d) :=
  fun x r => sum_reads hc.reads hd.reads x (by cases x <;> trivial) r

theorem Whole.list {α : Type} {c : Codec α} (hc : Whole c) : Whole (Codec.list c) :=
  fun l r => list_reads hc.reads l (fun _ _ => trivial) r

theorem Whole.iso {α β : Type} {c : Codec α} {f : β → α} {g : α → β} (hc : Whole c) (hg : ∀ b, g (f b) = b) :
    Whole (c.iso f g) := fun b r => iso_reads (Q := Always) hc.reads (fun _ _ => trivial) (fun b _ => hg b) b trivial r

theorem bool_whole : Whole Codec.bool := nat_whole.iso (by decide)
theorem bits_whole (w : Nat) : Whole (Codec.bits w) := nat_whole.iso (by simp)
theorem int_whole : Whole Codec.int := (nat_whole.sum nat_whole).iso (by intro b; cases b <;> rfl)

theorem Whole.opt {α : Type} {c : Codec α} (hc : Whole c) : Whole (Codec.opt c) :=
  (unit_whole.sum hc).iso (by intro b; cases b <;> rfl)

theorem Whole.table {α : Type} {c : Codec α} (hc : Whole c) : Whole (Codec.table c) := (nat_whole.pair hc).list

/-! ### The parts of the pages -/

theorem tallies_whole : Whole Codec.tallies := ((nat_whole.pair bool_whole).iso (fun _ => rfl)).list
theorem entry_whole : Whole Codec.entry :=
  (nat_whole.pair (nat_whole.pair (nat_whole.pair (nat_whole.pair (((nat_whole.pair bool_whole).iso (fun _ => rfl) :
    Whole Codec.addr)).list)))).iso (fun _ => rfl)
theorem entries_whole : Whole Codec.entries := entry_whole.list
theorem queues_whole : Whole Codec.queues :=
  (entries_whole.pair (entries_whole.pair (entries_whole.pair (entries_whole.pair entries_whole)))).iso (fun _ => rfl)
theorem loop_whole : Whole Codec.loop := (nat_whole.pair (nat_whole.pair (nat_whole.pair nat_whole))).iso (fun _ => rfl)
theorem call_whole : Whole Codec.call := (nat_whole.pair nat_whole).iso (fun _ => rfl)
theorem gen_whole : Whole Codec.gen :=
  (nat_whole.pair (bool_whole.pair (nat_whole.pair (nat_whole.pair (nat_whole.pair nat_whole))))).iso (fun _ => rfl)
theorem syncWait_whole : Whole Codec.syncWait :=
  ((nat_whole.pair (nat_whole.pair entry_whole)).sum (nat_whole.pair entry_whole)).iso (by intro b; cases b <;> rfl)
theorem bankKind_whole : Whole Codec.bankKind := nat_whole.iso (by intro b; cases b <;> rfl)
theorem scaleKind_whole : Whole Codec.scaleKind := nat_whole.iso (by intro b; cases b <;> rfl)
theorem acc_whole : Whole Codec.acc := (int_whole.pair (bool_whole.pair (bool_whole.pair bool_whole))).iso (fun _ => rfl)
theorem rows_whole : Whole Codec.rows := nat_whole.list.list
theorem chain_whole : Whole Codec.chain :=
  (nat_whole.pair (nat_whole.pair (nat_whole.pair (nat_whole.pair (nat_whole.pair (rows_whole.pair rows_whole)))))).iso
    (fun _ => rfl)

/-- A bank whose computes are all final (R103). -/
theorem bank_reads : ReadsBack Codec.bank (fun b => b.finals = []) := by
  refine iso_reads (P := Always) (Whole.reads (bankKind_whole.pair (nat_whole.pair (scaleKind_whole.pair (nat_whole.list.pair (nat_whole.list.pair
    (acc_whole.pair (acc_whole.table.pair (nat_whole.table.pair (nat_whole.pair (nat_whole.pair (nat_whole.list.opt.pair
    (bool_whole.pair chain_whole.opt))))))))))))) (fun _ _ => trivial) ?_
  rintro ⟨⟩ h
  cases h
  rfl

/-! ### The pages -/

/-- What a tile's page spells of a tile (R338). -/
theorem tile_reads (x : Tile) (r : List Byte) : Codec.tile.get (Codec.tile.put x.kept ++ r) = some (x.kept, r) := by
  have parts := pair_reads nat_whole.reads (pair_reads bool_whole.reads (pair_reads nat_whole.reads
    (pair_reads loop_whole.list.reads (pair_reads call_whole.list.reads (pair_reads gen_whole.table.reads
    (pair_reads queues_whole.reads (pair_reads nat_whole.table.reads (pair_reads nat_whole.table.reads
    (pair_reads bool_whole.table.reads (pair_reads (entry_whole.pair nat_whole).list.reads (pair_reads syncWait_whole.opt.reads
    (pair_reads bank_reads (pair_reads bank_reads nat_whole.table.reads)))))))))))))
  refine iso_reads (Q := fun y => y = x.kept) parts ?_ ?_ x.kept rfl r
  · rintro _ rfl
    refine ⟨trivial, trivial, trivial, trivial, trivial, trivial, trivial, trivial, trivial, trivial, trivial, trivial, rfl, rfl, trivial⟩
  · rintro _ rfl
    simp only [Tile.kept, List.map_map]
    congr 1
    apply List.map_congr_left
    intro f hf
    have hu : f.unit = .sync := by simpa using (List.mem_filter.mp hf).2
    simp [Function.comp, hu]

/-- The page of a tile is read back as it was, whatever follows it (R338, R350). -/
theorem tilePage_reads (x : Tile) (l : List Tally) (w : Word) (r : List Byte) :
    Codec.tilePage.get (Codec.tilePage.put (x.kept, l, w) ++ r) = some ((x.kept, l, w), r) :=
  pair_reads (P := fun y => y = x.kept) (fun _ h r => h ▸ tile_reads x r) (tallies_whole.pair (bits_whole 64)).reads
    (x.kept, l, w) ⟨rfl, trivial⟩ r

theorem coreWait_whole : Whole Codec.coreWait :=
  ((nat_whole.pair nat_whole).sum (nat_whole.sum ((nat_whole.pair (bool_whole.pair bool_whole)).sum
    ((nat_whole.opt.pair (nat_whole.pair nat_whole)).sum (unit_whole.sum unit_whole))))).iso (by intro b; cases b <;> rfl)

theorem csrs_whole : Whole Codec.csrs := (nat_whole.list.pair (nat_whole.table.pair nat_whole.table)).iso (fun _ => rfl)
theorem imsic_whole : Whole Codec.imsic := (nat_whole.pair (nat_whole.pair (nat_whole.pair nat_whole))).iso (fun _ => rfl)

/-- What a core's page spells of a core: its registers, and no caches (R338). -/
theorem core_reads (x : Core) (r : List Byte) : Codec.core.get (Codec.core.put x.kept ++ r) = some (x.kept, r) := by
  refine iso_reads (P := Always) (Q := fun y => y = x.kept) (Whole.reads ((bits_whole 64).pair ((bits_whole 64).table.pair (nat_whole.table.pair
    (nat_whole.table.pair (nat_whole.pair (nat_whole.pair (nat_whole.pair (nat_whole.pair (nat_whole.pair (csrs_whole.pair
    (nat_whole.table.pair (bool_whole.table.pair (coreWait_whole.opt.pair (nat_whole.opt.pair
    ((nat_whole.pair (nat_whole.pair nat_whole)).opt.pair (imsic_whole.pair (imsic_whole.pair bool_whole))))))))))))))))))
    (fun _ _ => trivial) ?_ x.kept rfl r
  rintro _ rfl
  rfl

/-- The page of a core is read back as it was (R338, R350). -/
theorem corePage_reads (x : Core) (l : List Tally) (r : List Byte) :
    Codec.corePage.get (Codec.corePage.put (x.kept, l) ++ r) = some ((x.kept, l), r) :=
  pair_reads (P := fun y => y = x.kept) (fun _ h r => h ▸ core_reads x r) tallies_whole.reads (x.kept, l) ⟨rfl, trivial⟩ r

theorem marWait_whole : Whole Codec.marWait :=
  ((nat_whole.pair nat_whole).sum (nat_whole.sum (nat_whole.pair bool_whole))).iso (by intro b; cases b <;> rfl)

/-- What an engine's page spells of an engine (R338). -/
theorem engine_reads (x : Engine) (r : List Byte) : Codec.engine.get (Codec.engine.put x.kept ++ r) = some (x.kept, r) := by
  refine iso_reads (P := Always) (Q := fun y => y = x.kept) (Whole.reads (bool_whole.pair (nat_whole.pair (nat_whole.pair (nat_whole.table.pair
    (bool_whole.table.pair marWait_whole.opt)))))) (fun _ _ => trivial) ?_ x.kept rfl r
  rintro _ rfl
  unfold Engine.kept
  by_cases h : x.state = .stopped <;> simp [h]

/-- The page of an engine is read back as it was (R338, R350). -/
theorem enginePage_reads (x : Engine) (l : List Tally) (r : List Byte) :
    Codec.enginePage.get (Codec.enginePage.put (x.kept, l) ++ r) = some ((x.kept, l), r) :=
  pair_reads (P := fun y => y = x.kept) (fun _ h r => h ▸ engine_reads x r) tallies_whole.reads (x.kept, l) ⟨rfl, trivial⟩ r

/-- The SYN page and the directory are read back as they were (R338). -/
theorem synPage_whole : Whole Codec.synPage := tallies_whole.pair (bits_whole 64)
theorem directory_whole : Whole Codec.directory := (nat_whole.pair (nat_whole.pair nat_whole)).list

/-- A page with a layout of the model's never asks what a foreign one says. -/
theorem read_of_get {α : Type} (c : Codec α) (foreign : List Byte → α) (b r : List Byte) (a : α) (h : c.get b = some (a, r)) :
    c.read foreign b = a := by
  simp [Codec.read, h]

/-- Bytes that fit a page are its first bytes. -/
theorem onePage_front (b : List Byte) (h : b.length ≤ pageSize) : onePage b = b ++ zeros (pageSize - b.length) := by
  have l : (padTo pageSize b).length = pageSize := by simp [padTo, zeros]; omega
  rw [onePage, List.take_of_length_le (by omega)]
  rfl

end Sys2Proof.Laws
end

