-- ==== Sys2Proof/WellFormed.lean ====
section
/-! DEFINITION. Which commands are well formed: every operand that names a unit, a port, a register element or a
position lies in the range the spec gives it, and every frame has its length. -/

namespace Sys2Proof

/-- The range check of a command's operands. -/
def Instr.wf : Instr → Bool
  | .dispatch t => decide (t < 576)
  | .nop t => decide (t < 576)
  | .loop t => decide (t < 576)
  | .call t => decide (t < 576)
  | .ret t => decide (t < 576)
  | .agset t => decide (t < 576)
  | .agstride t => decide (t < 576)
  | .agadd t => decide (t < 576)
  | .endProg t => decide (t < 576)
  | .tileIdle t => decide (t < 576)
  | .instructionComplete t _ _ => decide (t < 576)
  | .preread t _ => decide (t < 576)
  | .twait t => decide (t < 576)
  | .tallyWaitComplete a => decide (a < 656)
  | .harr t => decide (t < 576)
  | .hwait t => decide (t < 576)
  | .harrw t => decide (t < 576)
  | .load t => decide (t < 576)
  | .xpose t => decide (t < 576)
  | .store t => decide (t < 576)
  | .atomi t => decide (t < 576)
  | .atoms t => decide (t < 576)
  | .mmul t => decide (t < 576)
  | .bankFinal t _ => decide (t < 576)
  | .mdrain t => decide (t < 576)
  | .mldb t => decide (t < 576)
  | .vadd t => decide (t < 576)
  | .vsub t => decide (t < 576)
  | .vmul t => decide (t < 576)
  | .vmulh t => decide (t < 576)
  | .vaddsat t => decide (t < 576)
  | .vsubsat t => decide (t < 576)
  | .vmulsat t => decide (t < 576)
  | .vmin t => decide (t < 576)
  | .vmax t => decide (t < 576)
  | .vabs t => decide (t < 576)
  | .vneg t => decide (t < 576)
  | .vfma t => decide (t < 576)
  | .vsll t => decide (t < 576)
  | .vsrl t => decide (t < 576)
  | .vsra t => decide (t < 576)
  | .vsllsat t => decide (t < 576)
  | .vand t => decide (t < 576)
  | .vor t => decide (t < 576)
  | .vxor t => decide (t < 576)
  | .vnot t => decide (t < 576)
  | .vcmpeq t => decide (t < 576)
  | .vcmplt t => decide (t < 576)
  | .vcmple t => decide (t < 576)
  | .vsel t => decide (t < 576)
  | .vexp2 t => decide (t < 576)
  | .vlog2 t => decide (t < 576)
  | .vrcp t => decide (t < 576)
  | .vrsqrt t => decide (t < 576)
  | .vsinpi t => decide (t < 576)
  | .vcospi t => decide (t < 576)
  | .vcvt t => decide (t < 576)
  | .vqmul t => decide (t < 576)
  | .vacc t => decide (t < 576)
  | .vrsum t => decide (t < 576)
  | .vrmax t => decide (t < 576)
  | .vrmin t => decide (t < 576)
  | .vdrelu t => decide (t < 576)
  | .vdlrelu t => decide (t < 576)
  | .vdsigm t => decide (t < 576)
  | .vdtanh t => decide (t < 576)
  | .vdelu t => decide (t < 576)
  | .vdsoftp t => decide (t < 576)
  | .vdexp t => decide (t < 576)
  | .vld t => decide (t < 576)
  | .vst t => decide (t < 576)
  | .tilSeqCommit t _ _ => decide (t < 576)
  | .packetRoute _ _ => true
  | .d2dFrame n frame => decide (n < 134 ∧ frame.length = 768)
  | .pfbPenReq _ _ => true
  | .rd _ _ _ => true
  | .wr _ => true
  | .atom _ _ _ => true
  | .snrd _ _ _ => true
  | .snwr _ => true
  | .credit _ => true
  | .arrive _ => true
  | .nodeArrive _ => true
  | .nodeRelease _ => true
  | .nodeArriveResend h => decide (h < 1024)
  | .timeReq _ => true
  | .timeRsp _ => true
  | .rdata _ => true
  | .ack _ => true
  | .err _ => true
  | .decline _ => true
  | .refresh pc _ => decide (pc < 512)
  | .stackCalibration k => decide (k < 8)
  | .forcedCalibration s => decide (s < 8)
  | .patrolScrub pc _ _ => decide (pc < 512)
  | .portSaturation p => decide (p < 32)
  | .memMapCommit _ _ => true
  | .memPenReq _ _ => true
  | .hurdleRelease h => decide (h < 1024)
  | .synTallyWrite i _ _ => decide (i < 131072)
  | .synHcommit _ _ => true
  | .synTreeCommit _ _ => true
  | .synDesigCommit _ _ => true
  | .synQwinCommit _ _ => true
  | .tsyncEdge => true
  | .tsyncLost => true
  | .timeExchange => true
  | .qwinOpen k => decide (k < 8)
  | .qwinClose k => decide (k < 8)
  | .holtimFrame p frame => decide (p < 16 ∧ frame.length = 1280)
  | .assign p node plane => decide (p < 16 ∧ node < 65536 ∧ plane < 256)
  | .linkDown p => decide (p < 16)
  | .linkUp p => decide (p < 16)
  | .requestTimeout p tag => decide (p < 16 ∧ tag < 65536)
  | .holtimSaturation p l => decide (p < 16 ∧ l < 2)
  | .hfiPlaneCommit _ _ => true
  | .hfiWinCommit _ _ => true
  | .hfiTmo _ _ => true
  | .rv64Instruction c => decide (c < 64)
  | .speculativeRead c _ => decide (c < 64)
  | .interrupt c => decide (c < 64)
  | .mtip c => decide (c < 64)
  | .postedError c => decide (c < 64)
  | .tcred c => decide (c < 64)
  | .tcredC c => decide (c < 64)
  | .coreTwait c => decide (c < 64)
  | .coreHarr c => decide (c < 64)
  | .coreHwait c => decide (c < 64)
  | .coreHarrw c => decide (c < 64)
  | .pamo c => decide (c < 64)
  | .clean c => decide (c < 64)
  | .lvcfg c => decide (c < 64)
  | .lvxAdd c => decide (c < 64)
  | .lvxSub c => decide (c < 64)
  | .lvxMul c => decide (c < 64)
  | .lvxMulh c => decide (c < 64)
  | .lvxMin c => decide (c < 64)
  | .lvxMax c => decide (c < 64)
  | .lvxMinu c => decide (c < 64)
  | .lvxMaxu c => decide (c < 64)
  | .lvxAnd c => decide (c < 64)
  | .lvxOr c => decide (c < 64)
  | .lvxXor c => decide (c < 64)
  | .lvxSll c => decide (c < 64)
  | .lvxSrl c => decide (c < 64)
  | .lvxSra c => decide (c < 64)
  | .lvxCmpeq c => decide (c < 64)
  | .lvxCmplt c => decide (c < 64)
  | .lvxCmpltu c => decide (c < 64)
  | .lvxMerge c => decide (c < 64)
  | .lvxMove c => decide (c < 64)
  | .lvxFcvt c => decide (c < 64)
  | .lvxFadd c => decide (c < 64)
  | .lvxFsub c => decide (c < 64)
  | .lvxFmul c => decide (c < 64)
  | .lvxFdiv c => decide (c < 64)
  | .lvxFmacc c => decide (c < 64)
  | .lvxFnmsac c => decide (c < 64)
  | .lvxFmin c => decide (c < 64)
  | .lvxFmax c => decide (c < 64)
  | .lvxFsqrt c => decide (c < 64)
  | .lvxFcmpeq c => decide (c < 64)
  | .lvxFcmplt c => decide (c < 64)
  | .lvxFcmple c => decide (c < 64)
  | .lvxLoadUnit c _ => decide (c < 64)
  | .lvxLoadStrided c _ => decide (c < 64)
  | .lvxLoadFirstFault c _ => decide (c < 64)
  | .lvxLoadIndexed c _ => decide (c < 64)
  | .lvxStoreUnit c _ => decide (c < 64)
  | .lvxStoreStrided c _ => decide (c < 64)
  | .lvxStoreIndexed c _ => decide (c < 64)
  | .lvxRsum c => decide (c < 64)
  | .lvxRmin c => decide (c < 64)
  | .lvxRmax c => decide (c < 64)
  | .lvxRminu c => decide (c < 64)
  | .lvxRmaxu c => decide (c < 64)
  | .frsumOrd c => decide (c < 64)
  | .frsumTree c => decide (c < 64)
  | .frmin c => decide (c < 64)
  | .frmax c => decide (c < 64)
  | .pand c => decide (c < 64)
  | .por c => decide (c < 64)
  | .pxor c => decide (c < 64)
  | .pandn c => decide (c < 64)
  | .pnot c => decide (c < 64)
  | .ppopc c => decide (c < 64)
  | .pfirst c => decide (c < 64)
  | .ptov c => decide (c < 64)
  | .vtop c => decide (c < 64)
  | .prcStartCommit _ _ => true
  | .prcPmaCommit _ _ => true
  | .pmaApply => true
  | .prcAperCommit _ _ => true
  | .msiWrite _ c _ _ => decide (c < 64)
  | .marNop e => decide (e < 16)
  | .solve e => decide (e < 16)
  | .solveFinish e => decide (e < 16)
  | .marLate e => decide (e < 16)
  | .marTwait e => decide (e < 16)
  | .marHarr e => decide (e < 16)
  | .marHwait e => decide (e < 16)
  | .marHarrw e => decide (e < 16)
  | .marCredit e => decide (e < 16)
  | .copy e => decide (e < 16)
  | .jump e => decide (e < 16)
  | .stop e => decide (e < 16)
  | .marStartCommit e _ _ => decide (e < 16)
  | .eagerCopyComplete => true
  | .pageCopyOut page => decide (page < 8388608)
  | .shearPage => true
  | .ckpCutCommit _ _ => true
  | .restoreJob _ _ => true
  | .restoreComplete => true
  | .ckpLaunchCommit _ _ => true
  | .ckpLaunchSend _ _ => true
  | .launchStall => true
  | .ethernetFrame k _ => decide (k < 4)
  | .ethLinkUp k => decide (k < 4)
  | .ethLinkDown k => decide (k < 4)
  | .init k _ => decide (k < 4)
  | .finishMsg k _ => decide (k < 4)
  | .close k _ => decide (k < 4)
  | .handshakeTimeout _ => true
  | .dataMsg k _ => decide (k < 4)
  | .crookAck k _ => decide (k < 4)
  | .retransmit slot _ => decide (slot < 16)
  | .sessionIdleTimeout slot => decide (slot < 16)
  | .readMsg slot q => decide (slot < 16 ∧ q < 8)
  | .writeMsg slot q => decide (slot < 16 ∧ q < 8)
  | .regrd slot q => decide (slot < 16 ∧ q < 8)
  | .regwr slot q => decide (slot < 16 ∧ q < 8)
  | .crookCredit slot q => decide (slot < 16 ∧ q < 8)
  | .doorbell slot q => decide (slot < 16 ∧ q < 8)
  | .launchMsg slot q => decide (slot < 16 ∧ q < 8)
  | .dumpRead slot q => decide (slot < 16 ∧ q < 8)
  | .flashRead slot q => decide (slot < 16 ∧ q < 8)
  | .flashErase slot q => decide (slot < 16 ∧ q < 8)
  | .flashProgram slot q => decide (slot < 16 ∧ q < 8)
  | .flashOpDone => true
  | .crookResetMsg slot q => decide (slot < 16 ∧ q < 8)
  | .crookReset => true
  | .shearAck slot q => decide (slot < 16 ∧ q < 8)
  | .eventSink slot q => decide (slot < 16 ∧ q < 8)
  | .hecEvtPost _ _ => true
  | .hecDbPop _ => true
  | .vstbyRising => true
  | .rstN _ => true
  | .powerGoodFail _ _ => true
  | .pwrOkRise => true
  | .watchdogExpiry => true
  | .brcWdogKick _ _ => true
  | .thermalTrip sensor _ => decide (sensor < 31)
  | .thermalAlert sensor _ => decide (sensor < 31)
  | .glitchDetect _ => true
  | .resetHoldEnd _ => true
  | .thermalWaitEnd => true
  | .bootP0Done => true
  | .bootP1Done _ => true
  | .bootP2Done _ => true
  | .bootP3Done _ _ _ => true
  | .bootP4Done => true
  | .bootP5Done => true
  | .bootPhaseTimeout => true
  | .hotJoin => true
  | .entdaa _ => true
  | .rstdaa => true
  | .enec _ => true
  | .disec _ => true
  | .getpid => true
  | .getbcr => true
  | .getdcr => true
  | .getstatus => true
  | .getmwl => true
  | .getmrl => true
  | .rstact _ => true
  | .i3cTargetReset => true
  | .i3cRegrd _ => true
  | .i3cRegwr _ _ => true
  | .i3cFlashErase _ => true
  | .i3cFlashProgram _ _ => true
  | .jobChange _ _ => true
  | .jobChangeComplete => true
  | .aksQuote _ _ => true
  | .quoteComplete => true
  | .peerLoad _ _ => true
  | .debugToken _ _ => true
  | .akmPenCmd _ _ => true
  | .undertakenCredit _ => true
  | .marginAlarm t _ => decide (t < 576)
  | .ageingMeasurement k _ => decide (k < 8)
  | .marginAdjustment k => decide (k < 8)
  | .dailyAgeingRecord f => decide (f < 16)
  | .telemetrySample _ _ => true
  | .fatalError _ => true
  | .freezeComplete => true
  | .dumpComplete => true
  | .freezeTimeout => true
  | .dumpTimeout => true
  | .holdExpiry => true
  | .powerComparison _ => true
  | .pwrCap _ _ => true
  | .tapReset => true
  | .samplePreload => true
  | .extest => true
  | .extestPulse => true
  | .extestTrain => true
  | .tapClamp => true
  | .highz => true
  | .tapBypass => true
  | .coreDebug _ => true
  | .internalScan _ => true
  | .registerWrite _ _ _ => true
  | .akmMemoryUe => true
  | .vstbyFalling => true
  | .signatureComplete => true

end Sys2Proof
end

