-- ==== Sys2Proof/Laws/PerInstr.lean ====
section
/-! SUPPORT. For every command: its range check holds exactly where each of its operands lies in the range the spec
gives it. -/

namespace Sys2Proof.Laws.WellFormed

/-- The ranges of a command's operands, as a proposition. -/
def InRange : Instr → Prop
  | .dispatch t => t < 576
  | .nop t => t < 576
  | .loop t => t < 576
  | .call t => t < 576
  | .ret t => t < 576
  | .agset t => t < 576
  | .agstride t => t < 576
  | .agadd t => t < 576
  | .endProg t => t < 576
  | .tileIdle t => t < 576
  | .instructionComplete t _ _ => t < 576
  | .preread t _ => t < 576
  | .twait t => t < 576
  | .tallyWaitComplete a => a < 656
  | .harr t => t < 576
  | .hwait t => t < 576
  | .harrw t => t < 576
  | .load t => t < 576
  | .xpose t => t < 576
  | .store t => t < 576
  | .atomi t => t < 576
  | .atoms t => t < 576
  | .mmul t => t < 576
  | .bankFinal t _ => t < 576
  | .mdrain t => t < 576
  | .mldb t => t < 576
  | .vadd t => t < 576
  | .vsub t => t < 576
  | .vmul t => t < 576
  | .vmulh t => t < 576
  | .vaddsat t => t < 576
  | .vsubsat t => t < 576
  | .vmulsat t => t < 576
  | .vmin t => t < 576
  | .vmax t => t < 576
  | .vabs t => t < 576
  | .vneg t => t < 576
  | .vfma t => t < 576
  | .vsll t => t < 576
  | .vsrl t => t < 576
  | .vsra t => t < 576
  | .vsllsat t => t < 576
  | .vand t => t < 576
  | .vor t => t < 576
  | .vxor t => t < 576
  | .vnot t => t < 576
  | .vcmpeq t => t < 576
  | .vcmplt t => t < 576
  | .vcmple t => t < 576
  | .vsel t => t < 576
  | .vexp2 t => t < 576
  | .vlog2 t => t < 576
  | .vrcp t => t < 576
  | .vrsqrt t => t < 576
  | .vsinpi t => t < 576
  | .vcospi t => t < 576
  | .vcvt t => t < 576
  | .vqmul t => t < 576
  | .vacc t => t < 576
  | .vrsum t => t < 576
  | .vrmax t => t < 576
  | .vrmin t => t < 576
  | .vdrelu t => t < 576
  | .vdlrelu t => t < 576
  | .vdsigm t => t < 576
  | .vdtanh t => t < 576
  | .vdelu t => t < 576
  | .vdsoftp t => t < 576
  | .vdexp t => t < 576
  | .vld t => t < 576
  | .vst t => t < 576
  | .tilSeqCommit t _ _ => t < 576
  | .packetRoute _ _ => True
  | .d2dFrame n frame => n < 134 ∧ frame.length = 768
  | .pfbPenReq _ _ => True
  | .rd _ _ _ => True
  | .wr _ => True
  | .atom _ _ _ => True
  | .snrd _ _ _ => True
  | .snwr _ => True
  | .credit _ => True
  | .arrive _ => True
  | .nodeArrive _ => True
  | .nodeRelease _ => True
  | .nodeArriveResend h => h < 1024
  | .timeReq _ => True
  | .timeRsp _ => True
  | .rdata _ => True
  | .ack _ => True
  | .err _ => True
  | .decline _ => True
  | .refresh pc _ => pc < 512
  | .stackCalibration k => k < 8
  | .forcedCalibration s => s < 8
  | .patrolScrub pc _ _ => pc < 512
  | .portSaturation p => p < 32
  | .memMapCommit _ _ => True
  | .memPenReq _ _ => True
  | .hurdleRelease h => h < 1024
  | .synTallyWrite i _ _ => i < 131072
  | .synHcommit _ _ => True
  | .synTreeCommit _ _ => True
  | .synDesigCommit _ _ => True
  | .synQwinCommit _ _ => True
  | .tsyncEdge => True
  | .tsyncLost => True
  | .timeExchange => True
  | .qwinOpen k => k < 8
  | .qwinClose k => k < 8
  | .holtimFrame p frame => p < 16 ∧ frame.length = 1280
  | .assign p node plane => p < 16 ∧ node < 65536 ∧ plane < 256
  | .linkDown p => p < 16
  | .linkUp p => p < 16
  | .requestTimeout p tag => p < 16 ∧ tag < 65536
  | .holtimSaturation p l => p < 16 ∧ l < 2
  | .hfiPlaneCommit _ _ => True
  | .hfiWinCommit _ _ => True
  | .hfiTmo _ _ => True
  | .rv64Instruction c => c < 64
  | .speculativeRead c _ => c < 64
  | .interrupt c => c < 64
  | .mtip c => c < 64
  | .postedError c => c < 64
  | .tcred c => c < 64
  | .tcredC c => c < 64
  | .coreTwait c => c < 64
  | .coreHarr c => c < 64
  | .coreHwait c => c < 64
  | .coreHarrw c => c < 64
  | .pamo c => c < 64
  | .clean c => c < 64
  | .lvcfg c => c < 64
  | .lvxAdd c => c < 64
  | .lvxSub c => c < 64
  | .lvxMul c => c < 64
  | .lvxMulh c => c < 64
  | .lvxMin c => c < 64
  | .lvxMax c => c < 64
  | .lvxMinu c => c < 64
  | .lvxMaxu c => c < 64
  | .lvxAnd c => c < 64
  | .lvxOr c => c < 64
  | .lvxXor c => c < 64
  | .lvxSll c => c < 64
  | .lvxSrl c => c < 64
  | .lvxSra c => c < 64
  | .lvxCmpeq c => c < 64
  | .lvxCmplt c => c < 64
  | .lvxCmpltu c => c < 64
  | .lvxMerge c => c < 64
  | .lvxMove c => c < 64
  | .lvxFcvt c => c < 64
  | .lvxFadd c => c < 64
  | .lvxFsub c => c < 64
  | .lvxFmul c => c < 64
  | .lvxFdiv c => c < 64
  | .lvxFmacc c => c < 64
  | .lvxFnmsac c => c < 64
  | .lvxFmin c => c < 64
  | .lvxFmax c => c < 64
  | .lvxFsqrt c => c < 64
  | .lvxFcmpeq c => c < 64
  | .lvxFcmplt c => c < 64
  | .lvxFcmple c => c < 64
  | .lvxLoadUnit c _ => c < 64
  | .lvxLoadStrided c _ => c < 64
  | .lvxLoadFirstFault c _ => c < 64
  | .lvxLoadIndexed c _ => c < 64
  | .lvxStoreUnit c _ => c < 64
  | .lvxStoreStrided c _ => c < 64
  | .lvxStoreIndexed c _ => c < 64
  | .lvxRsum c => c < 64
  | .lvxRmin c => c < 64
  | .lvxRmax c => c < 64
  | .lvxRminu c => c < 64
  | .lvxRmaxu c => c < 64
  | .frsumOrd c => c < 64
  | .frsumTree c => c < 64
  | .frmin c => c < 64
  | .frmax c => c < 64
  | .pand c => c < 64
  | .por c => c < 64
  | .pxor c => c < 64
  | .pandn c => c < 64
  | .pnot c => c < 64
  | .ppopc c => c < 64
  | .pfirst c => c < 64
  | .ptov c => c < 64
  | .vtop c => c < 64
  | .prcStartCommit _ _ => True
  | .prcPmaCommit _ _ => True
  | .pmaApply => True
  | .prcAperCommit _ _ => True
  | .msiWrite _ c _ _ => c < 64
  | .marNop e => e < 16
  | .solve e => e < 16
  | .solveFinish e => e < 16
  | .marLate e => e < 16
  | .marTwait e => e < 16
  | .marHarr e => e < 16
  | .marHwait e => e < 16
  | .marHarrw e => e < 16
  | .marCredit e => e < 16
  | .copy e => e < 16
  | .jump e => e < 16
  | .stop e => e < 16
  | .marStartCommit e _ _ => e < 16
  | .eagerCopyComplete => True
  | .pageCopyOut page => page < 8388608
  | .shearPage => True
  | .ckpCutCommit _ _ => True
  | .restoreJob _ _ => True
  | .restoreComplete => True
  | .ckpLaunchCommit _ _ => True
  | .ckpLaunchSend _ _ => True
  | .launchStall => True
  | .ethernetFrame k _ => k < 4
  | .ethLinkUp k => k < 4
  | .ethLinkDown k => k < 4
  | .init k _ => k < 4
  | .finishMsg k _ => k < 4
  | .close k _ => k < 4
  | .handshakeTimeout _ => True
  | .dataMsg k _ => k < 4
  | .crookAck k _ => k < 4
  | .retransmit slot _ => slot < 16
  | .sessionIdleTimeout slot => slot < 16
  | .readMsg slot q => slot < 16 ∧ q < 8
  | .writeMsg slot q => slot < 16 ∧ q < 8
  | .regrd slot q => slot < 16 ∧ q < 8
  | .regwr slot q => slot < 16 ∧ q < 8
  | .crookCredit slot q => slot < 16 ∧ q < 8
  | .doorbell slot q => slot < 16 ∧ q < 8
  | .launchMsg slot q => slot < 16 ∧ q < 8
  | .dumpRead slot q => slot < 16 ∧ q < 8
  | .flashRead slot q => slot < 16 ∧ q < 8
  | .flashErase slot q => slot < 16 ∧ q < 8
  | .flashProgram slot q => slot < 16 ∧ q < 8
  | .flashOpDone => True
  | .crookResetMsg slot q => slot < 16 ∧ q < 8
  | .crookReset => True
  | .shearAck slot q => slot < 16 ∧ q < 8
  | .eventSink slot q => slot < 16 ∧ q < 8
  | .hecEvtPost _ _ => True
  | .hecDbPop _ => True
  | .vstbyRising => True
  | .rstN _ => True
  | .powerGoodFail _ _ => True
  | .pwrOkRise => True
  | .watchdogExpiry => True
  | .brcWdogKick _ _ => True
  | .thermalTrip sensor _ => sensor < 31
  | .thermalAlert sensor _ => sensor < 31
  | .glitchDetect _ => True
  | .resetHoldEnd _ => True
  | .thermalWaitEnd => True
  | .bootP0Done => True
  | .bootP1Done _ => True
  | .bootP2Done _ => True
  | .bootP3Done _ _ _ => True
  | .bootP4Done => True
  | .bootP5Done => True
  | .bootPhaseTimeout => True
  | .hotJoin => True
  | .entdaa _ => True
  | .rstdaa => True
  | .enec _ => True
  | .disec _ => True
  | .getpid => True
  | .getbcr => True
  | .getdcr => True
  | .getstatus => True
  | .getmwl => True
  | .getmrl => True
  | .rstact _ => True
  | .i3cTargetReset => True
  | .i3cRegrd _ => True
  | .i3cRegwr _ _ => True
  | .i3cFlashErase _ => True
  | .i3cFlashProgram _ _ => True
  | .jobChange _ _ => True
  | .jobChangeComplete => True
  | .aksQuote _ _ => True
  | .quoteComplete => True
  | .peerLoad _ _ => True
  | .debugToken _ _ => True
  | .akmPenCmd _ _ => True
  | .undertakenCredit _ => True
  | .marginAlarm t _ => t < 576
  | .ageingMeasurement k _ => k < 8
  | .marginAdjustment k => k < 8
  | .dailyAgeingRecord f => f < 16
  | .telemetrySample _ _ => True
  | .fatalError _ => True
  | .freezeComplete => True
  | .dumpComplete => True
  | .freezeTimeout => True
  | .dumpTimeout => True
  | .holdExpiry => True
  | .powerComparison _ => True
  | .pwrCap _ _ => True
  | .tapReset => True
  | .samplePreload => True
  | .extest => True
  | .extestPulse => True
  | .extestTrain => True
  | .tapClamp => True
  | .highz => True
  | .tapBypass => True
  | .coreDebug _ => True
  | .internalScan _ => True
  | .registerWrite _ _ _ => True
  | .akmMemoryUe => True
  | .vstbyFalling => True
  | .signatureComplete => True

/-- The range check and the ranges agree. -/
def Statement (i : Instr) : Prop := i.wf = true ↔ InRange i

theorem dispatch (t : Nat) : Statement (.dispatch t) := decide_eq_true_iff
theorem nop (t : Nat) : Statement (.nop t) := decide_eq_true_iff
theorem loop (t : Nat) : Statement (.loop t) := decide_eq_true_iff
theorem call (t : Nat) : Statement (.call t) := decide_eq_true_iff
theorem ret (t : Nat) : Statement (.ret t) := decide_eq_true_iff
theorem agset (t : Nat) : Statement (.agset t) := decide_eq_true_iff
theorem agstride (t : Nat) : Statement (.agstride t) := decide_eq_true_iff
theorem agadd (t : Nat) : Statement (.agadd t) := decide_eq_true_iff
theorem endProg (t : Nat) : Statement (.endProg t) := decide_eq_true_iff
theorem tileIdle (t : Nat) : Statement (.tileIdle t) := decide_eq_true_iff
theorem instructionComplete (t : Nat) (u : TileUnit) (n : Nat) : Statement (.instructionComplete t u n) := decide_eq_true_iff
theorem preread (t : Nat) (n : Nat) : Statement (.preread t n) := decide_eq_true_iff
theorem twait (t : Nat) : Statement (.twait t) := decide_eq_true_iff
theorem tallyWaitComplete (a : Nat) : Statement (.tallyWaitComplete a) := decide_eq_true_iff
theorem harr (t : Nat) : Statement (.harr t) := decide_eq_true_iff
theorem hwait (t : Nat) : Statement (.hwait t) := decide_eq_true_iff
theorem harrw (t : Nat) : Statement (.harrw t) := decide_eq_true_iff
theorem load (t : Nat) : Statement (.load t) := decide_eq_true_iff
theorem xpose (t : Nat) : Statement (.xpose t) := decide_eq_true_iff
theorem store (t : Nat) : Statement (.store t) := decide_eq_true_iff
theorem atomi (t : Nat) : Statement (.atomi t) := decide_eq_true_iff
theorem atoms (t : Nat) : Statement (.atoms t) := decide_eq_true_iff
theorem mmul (t : Nat) : Statement (.mmul t) := decide_eq_true_iff
theorem bankFinal (t : Nat) (b : Bool) : Statement (.bankFinal t b) := decide_eq_true_iff
theorem mdrain (t : Nat) : Statement (.mdrain t) := decide_eq_true_iff
theorem mldb (t : Nat) : Statement (.mldb t) := decide_eq_true_iff
theorem vadd (t : Nat) : Statement (.vadd t) := decide_eq_true_iff
theorem vsub (t : Nat) : Statement (.vsub t) := decide_eq_true_iff
theorem vmul (t : Nat) : Statement (.vmul t) := decide_eq_true_iff
theorem vmulh (t : Nat) : Statement (.vmulh t) := decide_eq_true_iff
theorem vaddsat (t : Nat) : Statement (.vaddsat t) := decide_eq_true_iff
theorem vsubsat (t : Nat) : Statement (.vsubsat t) := decide_eq_true_iff
theorem vmulsat (t : Nat) : Statement (.vmulsat t) := decide_eq_true_iff
theorem vmin (t : Nat) : Statement (.vmin t) := decide_eq_true_iff
theorem vmax (t : Nat) : Statement (.vmax t) := decide_eq_true_iff
theorem vabs (t : Nat) : Statement (.vabs t) := decide_eq_true_iff
theorem vneg (t : Nat) : Statement (.vneg t) := decide_eq_true_iff
theorem vfma (t : Nat) : Statement (.vfma t) := decide_eq_true_iff
theorem vsll (t : Nat) : Statement (.vsll t) := decide_eq_true_iff
theorem vsrl (t : Nat) : Statement (.vsrl t) := decide_eq_true_iff
theorem vsra (t : Nat) : Statement (.vsra t) := decide_eq_true_iff
theorem vsllsat (t : Nat) : Statement (.vsllsat t) := decide_eq_true_iff
theorem vand (t : Nat) : Statement (.vand t) := decide_eq_true_iff
theorem vor (t : Nat) : Statement (.vor t) := decide_eq_true_iff
theorem vxor (t : Nat) : Statement (.vxor t) := decide_eq_true_iff
theorem vnot (t : Nat) : Statement (.vnot t) := decide_eq_true_iff
theorem vcmpeq (t : Nat) : Statement (.vcmpeq t) := decide_eq_true_iff
theorem vcmplt (t : Nat) : Statement (.vcmplt t) := decide_eq_true_iff
theorem vcmple (t : Nat) : Statement (.vcmple t) := decide_eq_true_iff
theorem vsel (t : Nat) : Statement (.vsel t) := decide_eq_true_iff
theorem vexp2 (t : Nat) : Statement (.vexp2 t) := decide_eq_true_iff
theorem vlog2 (t : Nat) : Statement (.vlog2 t) := decide_eq_true_iff
theorem vrcp (t : Nat) : Statement (.vrcp t) := decide_eq_true_iff
theorem vrsqrt (t : Nat) : Statement (.vrsqrt t) := decide_eq_true_iff
theorem vsinpi (t : Nat) : Statement (.vsinpi t) := decide_eq_true_iff
theorem vcospi (t : Nat) : Statement (.vcospi t) := decide_eq_true_iff
theorem vcvt (t : Nat) : Statement (.vcvt t) := decide_eq_true_iff
theorem vqmul (t : Nat) : Statement (.vqmul t) := decide_eq_true_iff
theorem vacc (t : Nat) : Statement (.vacc t) := decide_eq_true_iff
theorem vrsum (t : Nat) : Statement (.vrsum t) := decide_eq_true_iff
theorem vrmax (t : Nat) : Statement (.vrmax t) := decide_eq_true_iff
theorem vrmin (t : Nat) : Statement (.vrmin t) := decide_eq_true_iff
theorem vdrelu (t : Nat) : Statement (.vdrelu t) := decide_eq_true_iff
theorem vdlrelu (t : Nat) : Statement (.vdlrelu t) := decide_eq_true_iff
theorem vdsigm (t : Nat) : Statement (.vdsigm t) := decide_eq_true_iff
theorem vdtanh (t : Nat) : Statement (.vdtanh t) := decide_eq_true_iff
theorem vdelu (t : Nat) : Statement (.vdelu t) := decide_eq_true_iff
theorem vdsoftp (t : Nat) : Statement (.vdsoftp t) := decide_eq_true_iff
theorem vdexp (t : Nat) : Statement (.vdexp t) := decide_eq_true_iff
theorem vld (t : Nat) : Statement (.vld t) := decide_eq_true_iff
theorem vst (t : Nat) : Statement (.vst t) := decide_eq_true_iff
theorem tilSeqCommit (t : Nat) (src : Requester) (v : Word) : Statement (.tilSeqCommit t src v) := decide_eq_true_iff
theorem packetRoute (n : Nat) (err : FlitError) : Statement (.packetRoute n err) := ⟨fun _ => trivial, fun _ => rfl⟩
theorem d2dFrame (n : Nat) (frame : List Byte) : Statement (.d2dFrame n frame) := decide_eq_true_iff
theorem pfbPenReq (src : Requester) (v : Word) : Statement (.pfbPenReq src v) := ⟨fun _ => trivial, fun _ => rfl⟩
theorem rd (n : Nat) (ce ue : List Nat) : Statement (.rd n ce ue) := ⟨fun _ => trivial, fun _ => rfl⟩
theorem wr (n : Nat) : Statement (.wr n) := ⟨fun _ => trivial, fun _ => rfl⟩
theorem atom (n : Nat) (ce ue : List Nat) : Statement (.atom n ce ue) := ⟨fun _ => trivial, fun _ => rfl⟩
theorem snrd (n : Nat) (ce ue : List Nat) : Statement (.snrd n ce ue) := ⟨fun _ => trivial, fun _ => rfl⟩
theorem snwr (n : Nat) : Statement (.snwr n) := ⟨fun _ => trivial, fun _ => rfl⟩
theorem credit (n : Nat) : Statement (.credit n) := ⟨fun _ => trivial, fun _ => rfl⟩
theorem arrive (n : Nat) : Statement (.arrive n) := ⟨fun _ => trivial, fun _ => rfl⟩
theorem nodeArrive (n : Nat) : Statement (.nodeArrive n) := ⟨fun _ => trivial, fun _ => rfl⟩
theorem nodeRelease (n : Nat) : Statement (.nodeRelease n) := ⟨fun _ => trivial, fun _ => rfl⟩
theorem nodeArriveResend (h : Nat) : Statement (.nodeArriveResend h) := decide_eq_true_iff
theorem timeReq (n : Nat) : Statement (.timeReq n) := ⟨fun _ => trivial, fun _ => rfl⟩
theorem timeRsp (n : Nat) : Statement (.timeRsp n) := ⟨fun _ => trivial, fun _ => rfl⟩
theorem rdata (n : Nat) : Statement (.rdata n) := ⟨fun _ => trivial, fun _ => rfl⟩
theorem ack (n : Nat) : Statement (.ack n) := ⟨fun _ => trivial, fun _ => rfl⟩
theorem err (n : Nat) : Statement (.err n) := ⟨fun _ => trivial, fun _ => rfl⟩
theorem decline (n : Nat) : Statement (.decline n) := ⟨fun _ => trivial, fun _ => rfl⟩
theorem refresh (pc bank : Nat) : Statement (.refresh pc bank) := decide_eq_true_iff
theorem stackCalibration (k : Nat) : Statement (.stackCalibration k) := decide_eq_true_iff
theorem forcedCalibration (s : Nat) : Statement (.forcedCalibration s) := decide_eq_true_iff
theorem patrolScrub (pc : Nat) (ce ue : List Nat) : Statement (.patrolScrub pc ce ue) := decide_eq_true_iff
theorem portSaturation (p : Nat) : Statement (.portSaturation p) := decide_eq_true_iff
theorem memMapCommit (src : Requester) (v : Word) : Statement (.memMapCommit src v) := ⟨fun _ => trivial, fun _ => rfl⟩
theorem memPenReq (src : Requester) (v : Word) : Statement (.memPenReq src v) := ⟨fun _ => trivial, fun _ => rfl⟩
theorem hurdleRelease (h : Nat) : Statement (.hurdleRelease h) := decide_eq_true_iff
theorem synTallyWrite (i : Nat) (src : Requester) (v : Word) : Statement (.synTallyWrite i src v) := decide_eq_true_iff
theorem synHcommit (src : Requester) (v : Word) : Statement (.synHcommit src v) := ⟨fun _ => trivial, fun _ => rfl⟩
theorem synTreeCommit (src : Requester) (v : Word) : Statement (.synTreeCommit src v) := ⟨fun _ => trivial, fun _ => rfl⟩
theorem synDesigCommit (src : Requester) (v : Word) : Statement (.synDesigCommit src v) := ⟨fun _ => trivial, fun _ => rfl⟩
theorem synQwinCommit (src : Requester) (v : Word) : Statement (.synQwinCommit src v) := ⟨fun _ => trivial, fun _ => rfl⟩
theorem tsyncEdge : Statement (.tsyncEdge) := ⟨fun _ => trivial, fun _ => rfl⟩
theorem tsyncLost : Statement (.tsyncLost) := ⟨fun _ => trivial, fun _ => rfl⟩
theorem timeExchange : Statement (.timeExchange) := ⟨fun _ => trivial, fun _ => rfl⟩
theorem qwinOpen (k : Nat) : Statement (.qwinOpen k) := decide_eq_true_iff
theorem qwinClose (k : Nat) : Statement (.qwinClose k) := decide_eq_true_iff
theorem holtimFrame (p : Nat) (frame : List Byte) : Statement (.holtimFrame p frame) := decide_eq_true_iff
theorem assign (p node plane : Nat) : Statement (.assign p node plane) := decide_eq_true_iff
theorem linkDown (p : Nat) : Statement (.linkDown p) := decide_eq_true_iff
theorem linkUp (p : Nat) : Statement (.linkUp p) := decide_eq_true_iff
theorem requestTimeout (p tag : Nat) : Statement (.requestTimeout p tag) := decide_eq_true_iff
theorem holtimSaturation (p l : Nat) : Statement (.holtimSaturation p l) := decide_eq_true_iff
theorem hfiPlaneCommit (src : Requester) (v : Word) : Statement (.hfiPlaneCommit src v) := ⟨fun _ => trivial, fun _ => rfl⟩
theorem hfiWinCommit (src : Requester) (v : Word) : Statement (.hfiWinCommit src v) := ⟨fun _ => trivial, fun _ => rfl⟩
theorem hfiTmo (src : Requester) (v : Word) : Statement (.hfiTmo src v) := ⟨fun _ => trivial, fun _ => rfl⟩
theorem rv64Instruction (c : Nat) : Statement (.rv64Instruction c) := decide_eq_true_iff
theorem speculativeRead (c : Nat) (a : Word) : Statement (.speculativeRead c a) := decide_eq_true_iff
theorem interrupt (c : Nat) : Statement (.interrupt c) := decide_eq_true_iff
theorem mtip (c : Nat) : Statement (.mtip c) := decide_eq_true_iff
theorem postedError (c : Nat) : Statement (.postedError c) := decide_eq_true_iff
theorem tcred (c : Nat) : Statement (.tcred c) := decide_eq_true_iff
theorem tcredC (c : Nat) : Statement (.tcredC c) := decide_eq_true_iff
theorem coreTwait (c : Nat) : Statement (.coreTwait c) := decide_eq_true_iff
theorem coreHarr (c : Nat) : Statement (.coreHarr c) := decide_eq_true_iff
theorem coreHwait (c : Nat) : Statement (.coreHwait c) := decide_eq_true_iff
theorem coreHarrw (c : Nat) : Statement (.coreHarrw c) := decide_eq_true_iff
theorem pamo (c : Nat) : Statement (.pamo c) := decide_eq_true_iff
theorem clean (c : Nat) : Statement (.clean c) := decide_eq_true_iff
theorem lvcfg (c : Nat) : Statement (.lvcfg c) := decide_eq_true_iff
theorem lvxAdd (c : Nat) : Statement (.lvxAdd c) := decide_eq_true_iff
theorem lvxSub (c : Nat) : Statement (.lvxSub c) := decide_eq_true_iff
theorem lvxMul (c : Nat) : Statement (.lvxMul c) := decide_eq_true_iff
theorem lvxMulh (c : Nat) : Statement (.lvxMulh c) := decide_eq_true_iff
theorem lvxMin (c : Nat) : Statement (.lvxMin c) := decide_eq_true_iff
theorem lvxMax (c : Nat) : Statement (.lvxMax c) := decide_eq_true_iff
theorem lvxMinu (c : Nat) : Statement (.lvxMinu c) := decide_eq_true_iff
theorem lvxMaxu (c : Nat) : Statement (.lvxMaxu c) := decide_eq_true_iff
theorem lvxAnd (c : Nat) : Statement (.lvxAnd c) := decide_eq_true_iff
theorem lvxOr (c : Nat) : Statement (.lvxOr c) := decide_eq_true_iff
theorem lvxXor (c : Nat) : Statement (.lvxXor c) := decide_eq_true_iff
theorem lvxSll (c : Nat) : Statement (.lvxSll c) := decide_eq_true_iff
theorem lvxSrl (c : Nat) : Statement (.lvxSrl c) := decide_eq_true_iff
theorem lvxSra (c : Nat) : Statement (.lvxSra c) := decide_eq_true_iff
theorem lvxCmpeq (c : Nat) : Statement (.lvxCmpeq c) := decide_eq_true_iff
theorem lvxCmplt (c : Nat) : Statement (.lvxCmplt c) := decide_eq_true_iff
theorem lvxCmpltu (c : Nat) : Statement (.lvxCmpltu c) := decide_eq_true_iff
theorem lvxMerge (c : Nat) : Statement (.lvxMerge c) := decide_eq_true_iff
theorem lvxMove (c : Nat) : Statement (.lvxMove c) := decide_eq_true_iff
theorem lvxFcvt (c : Nat) : Statement (.lvxFcvt c) := decide_eq_true_iff
theorem lvxFadd (c : Nat) : Statement (.lvxFadd c) := decide_eq_true_iff
theorem lvxFsub (c : Nat) : Statement (.lvxFsub c) := decide_eq_true_iff
theorem lvxFmul (c : Nat) : Statement (.lvxFmul c) := decide_eq_true_iff
theorem lvxFdiv (c : Nat) : Statement (.lvxFdiv c) := decide_eq_true_iff
theorem lvxFmacc (c : Nat) : Statement (.lvxFmacc c) := decide_eq_true_iff
theorem lvxFnmsac (c : Nat) : Statement (.lvxFnmsac c) := decide_eq_true_iff
theorem lvxFmin (c : Nat) : Statement (.lvxFmin c) := decide_eq_true_iff
theorem lvxFmax (c : Nat) : Statement (.lvxFmax c) := decide_eq_true_iff
theorem lvxFsqrt (c : Nat) : Statement (.lvxFsqrt c) := decide_eq_true_iff
theorem lvxFcmpeq (c : Nat) : Statement (.lvxFcmpeq c) := decide_eq_true_iff
theorem lvxFcmplt (c : Nat) : Statement (.lvxFcmplt c) := decide_eq_true_iff
theorem lvxFcmple (c : Nat) : Statement (.lvxFcmple c) := decide_eq_true_iff
theorem lvxLoadUnit (c : Nat) (stop : Nat) : Statement (.lvxLoadUnit c stop) := decide_eq_true_iff
theorem lvxLoadStrided (c : Nat) (stop : Nat) : Statement (.lvxLoadStrided c stop) := decide_eq_true_iff
theorem lvxLoadFirstFault (c : Nat) (stop : Nat) : Statement (.lvxLoadFirstFault c stop) := decide_eq_true_iff
theorem lvxLoadIndexed (c : Nat) (stop : Nat) : Statement (.lvxLoadIndexed c stop) := decide_eq_true_iff
theorem lvxStoreUnit (c : Nat) (stop : Nat) : Statement (.lvxStoreUnit c stop) := decide_eq_true_iff
theorem lvxStoreStrided (c : Nat) (stop : Nat) : Statement (.lvxStoreStrided c stop) := decide_eq_true_iff
theorem lvxStoreIndexed (c : Nat) (stop : Nat) : Statement (.lvxStoreIndexed c stop) := decide_eq_true_iff
theorem lvxRsum (c : Nat) : Statement (.lvxRsum c) := decide_eq_true_iff
theorem lvxRmin (c : Nat) : Statement (.lvxRmin c) := decide_eq_true_iff
theorem lvxRmax (c : Nat) : Statement (.lvxRmax c) := decide_eq_true_iff
theorem lvxRminu (c : Nat) : Statement (.lvxRminu c) := decide_eq_true_iff
theorem lvxRmaxu (c : Nat) : Statement (.lvxRmaxu c) := decide_eq_true_iff
theorem frsumOrd (c : Nat) : Statement (.frsumOrd c) := decide_eq_true_iff
theorem frsumTree (c : Nat) : Statement (.frsumTree c) := decide_eq_true_iff
theorem frmin (c : Nat) : Statement (.frmin c) := decide_eq_true_iff
theorem frmax (c : Nat) : Statement (.frmax c) := decide_eq_true_iff
theorem pand (c : Nat) : Statement (.pand c) := decide_eq_true_iff
theorem por (c : Nat) : Statement (.por c) := decide_eq_true_iff
theorem pxor (c : Nat) : Statement (.pxor c) := decide_eq_true_iff
theorem pandn (c : Nat) : Statement (.pandn c) := decide_eq_true_iff
theorem pnot (c : Nat) : Statement (.pnot c) := decide_eq_true_iff
theorem ppopc (c : Nat) : Statement (.ppopc c) := decide_eq_true_iff
theorem pfirst (c : Nat) : Statement (.pfirst c) := decide_eq_true_iff
theorem ptov (c : Nat) : Statement (.ptov c) := decide_eq_true_iff
theorem vtop (c : Nat) : Statement (.vtop c) := decide_eq_true_iff
theorem prcStartCommit (src : Requester) (v : Word) : Statement (.prcStartCommit src v) := ⟨fun _ => trivial, fun _ => rfl⟩
theorem prcPmaCommit (src : Requester) (v : Word) : Statement (.prcPmaCommit src v) := ⟨fun _ => trivial, fun _ => rfl⟩
theorem pmaApply : Statement (.pmaApply) := ⟨fun _ => trivial, fun _ => rfl⟩
theorem prcAperCommit (src : Requester) (v : Word) : Statement (.prcAperCommit src v) := ⟨fun _ => trivial, fun _ => rfl⟩
theorem msiWrite (src : Requester) (c : Nat) (sup : Bool) (v : Word) : Statement (.msiWrite src c sup v) := decide_eq_true_iff
theorem marNop (e : Nat) : Statement (.marNop e) := decide_eq_true_iff
theorem solve (e : Nat) : Statement (.solve e) := decide_eq_true_iff
theorem solveFinish (e : Nat) : Statement (.solveFinish e) := decide_eq_true_iff
theorem marLate (e : Nat) : Statement (.marLate e) := decide_eq_true_iff
theorem marTwait (e : Nat) : Statement (.marTwait e) := decide_eq_true_iff
theorem marHarr (e : Nat) : Statement (.marHarr e) := decide_eq_true_iff
theorem marHwait (e : Nat) : Statement (.marHwait e) := decide_eq_true_iff
theorem marHarrw (e : Nat) : Statement (.marHarrw e) := decide_eq_true_iff
theorem marCredit (e : Nat) : Statement (.marCredit e) := decide_eq_true_iff
theorem copy (e : Nat) : Statement (.copy e) := decide_eq_true_iff
theorem jump (e : Nat) : Statement (.jump e) := decide_eq_true_iff
theorem stop (e : Nat) : Statement (.stop e) := decide_eq_true_iff
theorem marStartCommit (e : Nat) (src : Requester) (v : Word) : Statement (.marStartCommit e src v) := decide_eq_true_iff
theorem eagerCopyComplete : Statement (.eagerCopyComplete) := ⟨fun _ => trivial, fun _ => rfl⟩
theorem pageCopyOut (page : Nat) : Statement (.pageCopyOut page) := decide_eq_true_iff
theorem shearPage : Statement (.shearPage) := ⟨fun _ => trivial, fun _ => rfl⟩
theorem ckpCutCommit (src : Requester) (v : Word) : Statement (.ckpCutCommit src v) := ⟨fun _ => trivial, fun _ => rfl⟩
theorem restoreJob (src : Requester) (v : Word) : Statement (.restoreJob src v) := ⟨fun _ => trivial, fun _ => rfl⟩
theorem restoreComplete : Statement (.restoreComplete) := ⟨fun _ => trivial, fun _ => rfl⟩
theorem ckpLaunchCommit (src : Requester) (v : Word) : Statement (.ckpLaunchCommit src v) := ⟨fun _ => trivial, fun _ => rfl⟩
theorem ckpLaunchSend (src : Requester) (v : Word) : Statement (.ckpLaunchSend src v) := ⟨fun _ => trivial, fun _ => rfl⟩
theorem launchStall : Statement (.launchStall) := ⟨fun _ => trivial, fun _ => rfl⟩
theorem ethernetFrame (k : Nat) (frame : List Byte) : Statement (.ethernetFrame k frame) := decide_eq_true_iff
theorem ethLinkUp (k : Nat) : Statement (.ethLinkUp k) := decide_eq_true_iff
theorem ethLinkDown (k : Nat) : Statement (.ethLinkDown k) := decide_eq_true_iff
theorem init (k : Nat) (dg : List Byte) : Statement (.init k dg) := decide_eq_true_iff
theorem finishMsg (k : Nat) (dg : List Byte) : Statement (.finishMsg k dg) := decide_eq_true_iff
theorem close (k : Nat) (dg : List Byte) : Statement (.close k dg) := decide_eq_true_iff
theorem handshakeTimeout (n : Nat) : Statement (.handshakeTimeout n) := ⟨fun _ => trivial, fun _ => rfl⟩
theorem dataMsg (k : Nat) (dg : List Byte) : Statement (.dataMsg k dg) := decide_eq_true_iff
theorem crookAck (k : Nat) (dg : List Byte) : Statement (.crookAck k dg) := decide_eq_true_iff
theorem retransmit (slot seq : Nat) : Statement (.retransmit slot seq) := decide_eq_true_iff
theorem sessionIdleTimeout (slot : Nat) : Statement (.sessionIdleTimeout slot) := decide_eq_true_iff
theorem readMsg (slot q : Nat) : Statement (.readMsg slot q) := decide_eq_true_iff
theorem writeMsg (slot q : Nat) : Statement (.writeMsg slot q) := decide_eq_true_iff
theorem regrd (slot q : Nat) : Statement (.regrd slot q) := decide_eq_true_iff
theorem regwr (slot q : Nat) : Statement (.regwr slot q) := decide_eq_true_iff
theorem crookCredit (slot q : Nat) : Statement (.crookCredit slot q) := decide_eq_true_iff
theorem doorbell (slot q : Nat) : Statement (.doorbell slot q) := decide_eq_true_iff
theorem launchMsg (slot q : Nat) : Statement (.launchMsg slot q) := decide_eq_true_iff
theorem dumpRead (slot q : Nat) : Statement (.dumpRead slot q) := decide_eq_true_iff
theorem flashRead (slot q : Nat) : Statement (.flashRead slot q) := decide_eq_true_iff
theorem flashErase (slot q : Nat) : Statement (.flashErase slot q) := decide_eq_true_iff
theorem flashProgram (slot q : Nat) : Statement (.flashProgram slot q) := decide_eq_true_iff
theorem flashOpDone : Statement (.flashOpDone) := ⟨fun _ => trivial, fun _ => rfl⟩
theorem crookResetMsg (slot q : Nat) : Statement (.crookResetMsg slot q) := decide_eq_true_iff
theorem crookReset : Statement (.crookReset) := ⟨fun _ => trivial, fun _ => rfl⟩
theorem shearAck (slot q : Nat) : Statement (.shearAck slot q) := decide_eq_true_iff
theorem eventSink (slot q : Nat) : Statement (.eventSink slot q) := decide_eq_true_iff
theorem hecEvtPost (src : Requester) (v : Word) : Statement (.hecEvtPost src v) := ⟨fun _ => trivial, fun _ => rfl⟩
theorem hecDbPop (src : Requester) : Statement (.hecDbPop src) := ⟨fun _ => trivial, fun _ => rfl⟩
theorem vstbyRising : Statement (.vstbyRising) := ⟨fun _ => trivial, fun _ => rfl⟩
theorem rstN (lowNs : Nat) : Statement (.rstN lowNs) := ⟨fun _ => trivial, fun _ => rfl⟩
theorem powerGoodFail (cond : PowerCondition) (ns : Nat) : Statement (.powerGoodFail cond ns) := ⟨fun _ => trivial, fun _ => rfl⟩
theorem pwrOkRise : Statement (.pwrOkRise) := ⟨fun _ => trivial, fun _ => rfl⟩
theorem watchdogExpiry : Statement (.watchdogExpiry) := ⟨fun _ => trivial, fun _ => rfl⟩
theorem brcWdogKick (src : Requester) (v : Word) : Statement (.brcWdogKick src v) := ⟨fun _ => trivial, fun _ => rfl⟩
theorem thermalTrip (sensor : Nat) (celsius : Int) : Statement (.thermalTrip sensor celsius) := decide_eq_true_iff
theorem thermalAlert (sensor : Nat) (celsius : Int) : Statement (.thermalAlert sensor celsius) := decide_eq_true_iff
theorem glitchDetect (detail : Nat) : Statement (.glitchDetect detail) := ⟨fun _ => trivial, fun _ => rfl⟩
theorem resetHoldEnd (hot : Bool) : Statement (.resetHoldEnd hot) := ⟨fun _ => trivial, fun _ => rfl⟩
theorem thermalWaitEnd : Statement (.thermalWaitEnd) := ⟨fun _ => trivial, fun _ => rfl⟩
theorem bootP0Done : Statement (.bootP0Done) := ⟨fun _ => trivial, fun _ => rfl⟩
theorem bootP1Done (failed : List Nat) : Statement (.bootP1Done failed) := ⟨fun _ => trivial, fun _ => rfl⟩
theorem bootP2Done (failed : List Nat) : Statement (.bootP2Done failed) := ⟨fun _ => trivial, fun _ => rfl⟩
theorem bootP3Done (tiles cores engines : List Nat) : Statement (.bootP3Done tiles cores engines) := ⟨fun _ => trivial, fun _ => rfl⟩
theorem bootP4Done : Statement (.bootP4Done) := ⟨fun _ => trivial, fun _ => rfl⟩
theorem bootP5Done : Statement (.bootP5Done) := ⟨fun _ => trivial, fun _ => rfl⟩
theorem bootPhaseTimeout : Statement (.bootPhaseTimeout) := ⟨fun _ => trivial, fun _ => rfl⟩
theorem hotJoin : Statement (.hotJoin) := ⟨fun _ => trivial, fun _ => rfl⟩
theorem entdaa (da : BitVec 7) : Statement (.entdaa da) := ⟨fun _ => trivial, fun _ => rfl⟩
theorem rstdaa : Statement (.rstdaa) := ⟨fun _ => trivial, fun _ => rfl⟩
theorem enec (b : Byte) : Statement (.enec b) := ⟨fun _ => trivial, fun _ => rfl⟩
theorem disec (b : Byte) : Statement (.disec b) := ⟨fun _ => trivial, fun _ => rfl⟩
theorem getpid : Statement (.getpid) := ⟨fun _ => trivial, fun _ => rfl⟩
theorem getbcr : Statement (.getbcr) := ⟨fun _ => trivial, fun _ => rfl⟩
theorem getdcr : Statement (.getdcr) := ⟨fun _ => trivial, fun _ => rfl⟩
theorem getstatus : Statement (.getstatus) := ⟨fun _ => trivial, fun _ => rfl⟩
theorem getmwl : Statement (.getmwl) := ⟨fun _ => trivial, fun _ => rfl⟩
theorem getmrl : Statement (.getmrl) := ⟨fun _ => trivial, fun _ => rfl⟩
theorem rstact (b : Byte) : Statement (.rstact b) := ⟨fun _ => trivial, fun _ => rfl⟩
theorem i3cTargetReset : Statement (.i3cTargetReset) := ⟨fun _ => trivial, fun _ => rfl⟩
theorem i3cRegrd (a : Nat) : Statement (.i3cRegrd a) := ⟨fun _ => trivial, fun _ => rfl⟩
theorem i3cRegwr (a : Nat) (v : Word) : Statement (.i3cRegwr a v) := ⟨fun _ => trivial, fun _ => rfl⟩
theorem i3cFlashErase (a : Nat) : Statement (.i3cFlashErase a) := ⟨fun _ => trivial, fun _ => rfl⟩
theorem i3cFlashProgram (a : Nat) (bytes : List Byte) : Statement (.i3cFlashProgram a bytes) := ⟨fun _ => trivial, fun _ => rfl⟩
theorem jobChange (src : Requester) (v : Word) : Statement (.jobChange src v) := ⟨fun _ => trivial, fun _ => rfl⟩
theorem jobChangeComplete : Statement (.jobChangeComplete) := ⟨fun _ => trivial, fun _ => rfl⟩
theorem aksQuote (src : Requester) (v : Word) : Statement (.aksQuote src v) := ⟨fun _ => trivial, fun _ => rfl⟩
theorem quoteComplete : Statement (.quoteComplete) := ⟨fun _ => trivial, fun _ => rfl⟩
theorem peerLoad (src : Requester) (v : Word) : Statement (.peerLoad src v) := ⟨fun _ => trivial, fun _ => rfl⟩
theorem debugToken (src : Requester) (v : Word) : Statement (.debugToken src v) := ⟨fun _ => trivial, fun _ => rfl⟩
theorem akmPenCmd (src : Requester) (v : Word) : Statement (.akmPenCmd src v) := ⟨fun _ => trivial, fun _ => rfl⟩
theorem undertakenCredit (n : Nat) : Statement (.undertakenCredit n) := ⟨fun _ => trivial, fun _ => rfl⟩
theorem marginAlarm (t slack : Nat) : Statement (.marginAlarm t slack) := decide_eq_true_iff
theorem ageingMeasurement (k : Nat) (slacks : List Nat) : Statement (.ageingMeasurement k slacks) := decide_eq_true_iff
theorem marginAdjustment (k : Nat) : Statement (.marginAdjustment k) := decide_eq_true_iff
theorem dailyAgeingRecord (f : Nat) : Statement (.dailyAgeingRecord f) := decide_eq_true_iff
theorem telemetrySample (temps : List Int) (vin : Nat) : Statement (.telemetrySample temps vin) := ⟨fun _ => trivial, fun _ => rfl⟩
theorem fatalError (code : Nat) : Statement (.fatalError code) := ⟨fun _ => trivial, fun _ => rfl⟩
theorem freezeComplete : Statement (.freezeComplete) := ⟨fun _ => trivial, fun _ => rfl⟩
theorem dumpComplete : Statement (.dumpComplete) := ⟨fun _ => trivial, fun _ => rfl⟩
theorem freezeTimeout : Statement (.freezeTimeout) := ⟨fun _ => trivial, fun _ => rfl⟩
theorem dumpTimeout : Statement (.dumpTimeout) := ⟨fun _ => trivial, fun _ => rfl⟩
theorem holdExpiry : Statement (.holdExpiry) := ⟨fun _ => trivial, fun _ => rfl⟩
theorem powerComparison (mean : Nat) : Statement (.powerComparison mean) := ⟨fun _ => trivial, fun _ => rfl⟩
theorem pwrCap (src : Requester) (v : Word) : Statement (.pwrCap src v) := ⟨fun _ => trivial, fun _ => rfl⟩
theorem tapReset : Statement (.tapReset) := ⟨fun _ => trivial, fun _ => rfl⟩
theorem samplePreload : Statement (.samplePreload) := ⟨fun _ => trivial, fun _ => rfl⟩
theorem extest : Statement (.extest) := ⟨fun _ => trivial, fun _ => rfl⟩
theorem extestPulse : Statement (.extestPulse) := ⟨fun _ => trivial, fun _ => rfl⟩
theorem extestTrain : Statement (.extestTrain) := ⟨fun _ => trivial, fun _ => rfl⟩
theorem tapClamp : Statement (.tapClamp) := ⟨fun _ => trivial, fun _ => rfl⟩
theorem highz : Statement (.highz) := ⟨fun _ => trivial, fun _ => rfl⟩
theorem tapBypass : Statement (.tapBypass) := ⟨fun _ => trivial, fun _ => rfl⟩
theorem coreDebug (op : Byte) : Statement (.coreDebug op) := ⟨fun _ => trivial, fun _ => rfl⟩
theorem internalScan (op : Byte) : Statement (.internalScan op) := ⟨fun _ => trivial, fun _ => rfl⟩
theorem registerWrite (src : Requester) (a : Nat) (v : Word) : Statement (.registerWrite src a v) := ⟨fun _ => trivial, fun _ => rfl⟩
theorem akmMemoryUe : Statement (.akmMemoryUe) := ⟨fun _ => trivial, fun _ => rfl⟩
theorem vstbyFalling : Statement (.vstbyFalling) := ⟨fun _ => trivial, fun _ => rfl⟩
theorem signatureComplete : Statement (.signatureComplete) := ⟨fun _ => trivial, fun _ => rfl⟩

end Sys2Proof.Laws.WellFormed
end

