-- ==== Sys2Proof/Laws/Target.lean ====
section
/-! SUPPORT. What taking an arrival does to the node, and what looking ahead to a release does where none is due. -/

namespace Sys2Proof.Machine

/-! ### Taking an arrival -/

theorem noteQueue_frame (ep : Nat) (s : State) : noteQueue ep s = { s with fullSince := (noteQueue ep s).fullSince } := by
  simp only [noteQueue]
  by_cases h1 : ep < 576 ∨ 608 ≤ ep
  · rw [if_pos h1]
  · rw [if_neg h1]
    by_cases h2 : queueFull s ep = true
    · rw [if_pos h2]
      by_cases h3 : (Table.get none s.fullSince (ep - 576)).isNone = true
      · rw [if_pos h3]
      · rw [if_neg h3]
    · rw [if_neg h2]

/-- Noting queues changes nothing but when they became full. -/
theorem noteQueues_frame (l : List Nat) (s : State) :
    forEach l noteQueue s = { s with fullSince := (forEach l noteQueue s).fullSince } := by
  refine forEach_keeps (P := fun t => t = { s with fullSince := t.fullSince }) (fun ep t h => ?_) l s rfl
  rw [noteQueue_frame, h]

/-- Releasing held writes moves them and notes the queues they go to. -/
theorem State.releaseHeld_frame (s : State) : s.releaseHeld = { s with
    delivered := s.releaseHeld.delivered, heldWrites := s.releaseHeld.heldWrites, fullSince := s.releaseHeld.fullSince } := by
  unfold State.releaseHeld
  rw [noteQueues_frame]

/-- Taking an arrival changes the queues of the endpoints and nothing else. -/
theorem taken_frame (n : Nat) (s : State) : taken n s = { s with
    delivered := (taken n s).delivered, heldWrites := (taken n s).heldWrites, fullSince := (taken n s).fullSince } := by
  unfold taken
  split
  · rw [State.releaseHeld_frame, noteQueue_frame]
  · rfl

/-! ### Releases in this tick -/

/-- With no release due of a hurdle that a tile takes part in, looking ahead changes nothing. -/
theorem aheadOfRelease_none {s : State} {t : Nat} (h : ∀ k, releaseDue k s = true → s.inMap k t = false) :
    aheadOfRelease t s = s := by
  have e : (s.hurdles.map (·.1)).filter
      (fun k => releaseDue k s && s.inMap k t && !(s.tile t).early.elem k && !s.akm.frozen) = [] := by
    rw [List.filter_eq_nil_iff]
    intro k _ hk
    simp only [Bool.and_eq_true] at hk
    simp [h k hk.1.1.1] at hk
  unfold aheadOfRelease
  rw [e]
  rfl

/-- With no release due of a hurdle that an engine takes part in, looking ahead changes nothing. -/
theorem aheadEngine_none {s : State} {e : Nat} (h : ∀ k, releaseDue k s = true → s.inMap k (640 + e) = false) :
    aheadEngine e s = s := by
  have l : (s.hurdles.map (·.1)).filter
      (fun k => releaseDue k s && s.inMap k (640 + e) && !(s.engine e).early.elem k && !s.akm.frozen) = [] := by
    rw [List.filter_eq_nil_iff]
    intro k _ hk
    simp only [Bool.and_eq_true] at hk
    simp [h k hk.1.1.1] at hk
  unfold aheadEngine
  rw [l]
  rfl

end Sys2Proof.Machine
end

