-- ==== Sys2Proof/Tests/Slice0.lean ====
section
/-! SUPPORT. The model's own tests: the well-formedness checks refuse an ill-formed command of each kind, and for every
statement with hypotheses a concrete state and operands that meet them, clause by clause at the ends of their ranges; and
the spec's worked examples. -/

namespace Sys2Proof.Tests

open Sys2Proof Sys2Proof.Machine

set_option maxRecDepth 20000
set_option Elab.async false

/-! ### Small states -/

/-- A node whose state is not that of reset only in the registers listed. -/
def withRegs (l : List (Nat × Nat)) : State := l.foldl (fun s r => s.setReg r.1 (BitVec.ofNat 64 r.2)) {}

/-- Tiles 0 to 63 are enabled, and tile 0's program is its first 4 sectors of SRAM. -/
def tileOnRegs : State := withRegs [(regAddr .tilSeqProg 0, 4 * 2 ^ 18), (regAddr .pfbPenMap 0, 0)]

/-- A RUNNING tile 0 whose program, from sector 0 of its SRAM, holds these words. -/
def tileRuns (ws : List Nat) (x : Tile := {}) : State :=
  ((tileOnRegs).setTile 0 { x with state := .running }).writeMem (sramBase 0)
    (ws.flatMap (bytesOf 8))

/-- An instruction word: opcode, wait set, post set, and the low 46 bits. -/
def iw (op waits posts low : Nat) : Nat := op * 2 ^ 56 + waits * 2 ^ 51 + posts * 2 ^ 46 + low

/-- An entry that stands at the head of a unit's queue of tile 0. -/
def headed (u : TileUnit) (e : Entry) (x : Tile := {}) : State :=
  tileOnRegs.setTile 0 { x with state := .running, queues := x.queues.put u [e] }

/-- Whether an outcome is exactly this next state. -/
def answers (o : Host.Outcome State Fault Refusal) (u : State) : Bool :=
  match o with
  | .next v => decide (v = u)
  | _ => false

/-- No hurdle is armed while no register has been written. -/
theorem reset_unarmed : ({} : State).anyArmed = false := by decide +kernel


/-- No hurdle is released while no hurdle has a state of its own. -/
theorem no_release (s : State) (hs : s.hurdles = []) (h : Nat) : releaseDue h s = false := by
  have : s.hurdle h = {} := by simp [State.hurdle, hs, Table.get]
  simp [releaseDue, this]

theorem no_release_of (s : State) (hs : s.hurdles = []) (a : Nat) : ∀ h, releaseDue h s = true → s.inMap h a = false :=
  fun h hd => by rw [no_release s hs h] at hd; exact absurd hd (by decide)

/-! ### Well-formedness -/

theorem test_wf_refuses_tile_units : (Instr.nop 576).wf = false ∧ (Instr.vadd 576).wf = false
    ∧ (Instr.tallyWaitComplete 656).wf = false ∧ (Instr.nop 575).wf = true ∧ (Instr.tallyWaitComplete 655).wf = true := by
  decide

theorem test_wf_refuses_frames : (Instr.d2dFrame 134 (zeros 768)).wf = false ∧ (Instr.d2dFrame 0 (zeros 767)).wf = false
    ∧ (Instr.holtimFrame 16 (zeros 1280)).wf = false ∧ (Instr.holtimFrame 15 (zeros 1279)).wf = false
    ∧ (Instr.holtimFrame 15 (zeros 1280)).wf = true ∧ (Instr.ethernetFrame 4 []).wf = false := by
  decide +kernel

theorem test_wf_refuses_memory_units : (Instr.refresh 512 0).wf = false ∧ (Instr.patrolScrub 512 [] []).wf = false
    ∧ (Instr.stackCalibration 8).wf = false ∧ (Instr.forcedCalibration 8).wf = false ∧ (Instr.portSaturation 32).wf = false
    ∧ (Instr.pageCopyOut 8388608).wf = false ∧ (Instr.pageCopyOut 8388607).wf = true := by
  decide

theorem test_wf_refuses_sync_units : (Instr.hurdleRelease 1024).wf = false ∧ (Instr.nodeArriveResend 1024).wf = false
    ∧ (Instr.qwinOpen 8).wf = false ∧ (Instr.qwinClose 8).wf = false ∧ (Instr.synTallyWrite 131072 .akm 0).wf = false
    ∧ (Instr.synTallyWrite 131071 .akm 0).wf = true := by
  decide

theorem test_wf_refuses_ports : (Instr.assign 16 0 0).wf = false ∧ (Instr.assign 0 65536 0).wf = false
    ∧ (Instr.assign 0 0 256).wf = false ∧ (Instr.requestTimeout 0 65536).wf = false
    ∧ (Instr.holtimSaturation 0 2).wf = false ∧ (Instr.linkDown 16).wf = false ∧ (Instr.assign 15 65535 255).wf = true := by
  decide

theorem test_wf_refuses_cores_and_engines : (Instr.rv64Instruction 64).wf = false ∧ (Instr.lvxAdd 64).wf = false
    ∧ (Instr.msiWrite .akm 64 false 0).wf = false ∧ (Instr.marNop 16).wf = false ∧ (Instr.marStartCommit 16 .akm 0).wf = false
    ∧ (Instr.rv64Instruction 63).wf = true ∧ (Instr.solve 15).wf = true := by
  decide

theorem test_wf_refuses_host_units : (Instr.readMsg 16 0).wf = false ∧ (Instr.readMsg 0 8).wf = false
    ∧ (Instr.retransmit 16 0).wf = false ∧ (Instr.sessionIdleTimeout 16).wf = false ∧ (Instr.init 4 []).wf = false
    ∧ (Instr.readMsg 15 7).wf = true := by
  decide

theorem test_wf_refuses_sensors_and_folds : (Instr.thermalTrip 31 0).wf = false ∧ (Instr.thermalAlert 31 0).wf = false
    ∧ (Instr.marginAlarm 576 0).wf = false ∧ (Instr.ageingMeasurement 8 []).wf = false ∧ (Instr.dailyAgeingRecord 16).wf = false
    ∧ (Instr.thermalTrip 30 (-40)).wf = true := by
  decide

/-- No row of the opcode table gives its command bits. -/
theorem test_no_row_has_bits : decodeTableWord 64 0 = none ∧ decodeTableWord 32 0xFFFFFFFF = none := by decide

/-! ### The block -/

theorem witness_StepKeepsMemoryForm :
    ({ pending := [.tapReset] } : State).memWf = true
    ∧ answers (step { pending := [.tapReset] }) { brc := { tapInstr := 0xFF } } = true := by
  decide +kernel

/-! ### The tile -/

/-- Tile 0 at one word, at its word 3. -/
def atWord (w ext : Nat) (x : Tile := {}) : State := tileRuns [0, 0, 0, w, ext] { x with fetch := 3 }

theorem witness_GeneratorInstructionsFollowTheirFields :
    AtWord (atWord (iw 4 0 0 0 + 7 * 2 ^ 51 + 2 ^ 50) (2 ^ 64 - 1)) 0 0x04
    ∧ AtWord (atWord (iw 4 0 0 0 + 31 * 2 ^ 51) (2 ^ 48)) 0 0x04
    ∧ AtWord (atWord (iw 5 0 0 0 + 31 * 2 ^ 51 + 3 * 2 ^ 49 + 2 ^ 39) 0) 0 0x05
    ∧ AtWord (atWord (iw 6 0 0 0 + 1 * 2 ^ 51 + 2 ^ 40 - 1) 0) 0 0x06
    ∧ inRegion (atWord (iw 4 0 0 0 + 31 * 2 ^ 51) (2 ^ 48)) 0 4 = true
    ∧ bitsOf (word1 (atWord (iw 4 0 0 0 + 31 * 2 ^ 51) (2 ^ 48)) 0) 48 16 ≠ 0 := by
  unfold AtWord; and_intros <;> decide +kernel

/-- An open loop that ends on word 9, and one call that was taken inside it. -/
def loop9 : Loop := ⟨0, 9, 1, 0⟩

theorem witness_LoopsAndCallsNestAndClose :
    AtWord (atWord 0 0) 0 0x00
    ∧ AtWord (atWord (iw 1 0 0 (4 * 2 ^ 32 + 1)) 0 { loops := [loop9, loop9, loop9] }) 0 0x01
    ∧ AtWord (atWord (iw 1 0 0 (9 * 2 ^ 32 + 1)) 0 { loops := [loop9, loop9, loop9, loop9] }) 0 0x01
    ∧ AtWord (atWord (iw 1 0 0 (4 * 2 ^ 32)) 0) 0 0x01
    ∧ AtWord (atWord (iw 1 0 0 (10 * 2 ^ 32 + 1)) 0 { loops := [loop9] }) 0 0x01
    ∧ AtWord (atWord (iw 2 0 0 (2 ^ 20 - 1)) 0 { calls := List.replicate 7 ⟨0, 0⟩ }) 0 0x02
    ∧ AtWord (atWord (iw 2 0 0 0) 0 { calls := List.replicate 8 ⟨0, 0⟩ }) 0 0x02
    ∧ AtWord (atWord (iw 3 0 0 0) 0) 0 0x03
    ∧ AtWord (atWord (iw 3 0 0 0) 0 { calls := [⟨0, 1⟩], loops := [loop9] }) 0 0x03
    ∧ ({ loops := [loop9] } : Tile).shield ≤ ([] : List Loop).length ∧ loop9.left ≠ 0 := by
  unfold AtWord; and_intros <;> decide +kernel

/-- The fields of a VADD of INT32: VD 1, VA 2, VB 3. -/
def vaddWord : Nat := iw 0x60 0 0 (2 * 2 ^ 42 + 1 * 2 ^ 37 + 2 * 2 ^ 32 + 3 * 2 ^ 27)

theorem witness_DispatchAndExceptions :
    AtWord (atWord vaddWord 0) 0 0x60 ∧ unitOf 0x60 = some .vector ∧ legalFields 0x60 vaddWord 0 = true
    ∧ globalLocal {} (namedBy 0x60 vaddWord 0) = false ∧ misaligned {} (namedBy 0x60 vaddWord 0) = none
    ∧ AtWord (atWord (iw 0x20 0 0 (1 * 2 ^ 41 + 2 ^ 20)) 0 { gens := [(1, { base := 31 })] }) 0 0x20
    ∧ misaligned { gens := [(1, { base := 31 })] } (namedBy 0x20 (iw 0x20 0 0 (1 * 2 ^ 41 + 2 ^ 20)) 0) = some 31
    ∧ AtWord (atWord (iw 7 0 0 0) 0) 0 0x07
    ∧ canFetch (tileRuns [] { fetch := 16 }) 0 = true ∧ inRegion (tileRuns [] { fetch := 16 }) 0 16 = false
    ∧ Table.risesFrom 0 (tileRuns []).regs = true ∧ ((tileRuns []).tile 0).state = .running
    ∧ (((tileRuns []).getReg (regAddr .tilExcStatus 0)).toNat = 0 ∧ ((tileRuns []).tile 0).excAt ≠ (tileRuns []).now + 1)
    ∧ (((tileRuns [] { excAt := 1, excSeen := [(17, 0x4FFFFF19, 5, 2 ^ 32 + 4)] }).tile 0).excAt = (tileRuns []).now + 1
      ∧ excCode 17 + (2 ^ 20 - 1) % 2 ^ 20 * 2 ^ 8 + (2 ^ 32 + 4) % 2 ^ 32 * 2 ^ 28 = 0x4FFFFF19
      ∧ ((tileRuns [] { excAt := 1, excSeen := [(17, 0x4FFFFF19, 5, 2 ^ 32 + 4)] }).tile 0).excSeen = [(17, 0x4FFFFF19, 5, 2 ^ 32 + 4)]
      ∧ ((tileRuns [] { excAt := 1 }).tile 0).excOld = 0) := by
  unfold AtWord; and_intros <;> decide +kernel

/-- A LOAD of 2 sectors at dispatch number 5, with addresses, wait set and post set given. -/
def loadEntry (waits posts a b : Nat) : Entry := ⟨5, 3, iw 0x20 waits posts (2 * 2 ^ 20), 0, [⟨a, false⟩, ⟨b, false⟩]⟩

/-- The entry of END. -/
def endEntry : Entry := ⟨9, 4, iw 7 0 0 0, 0, []⟩

def allAtEnd : Queues := ⟨[endEntry], [endEntry], [endEntry], [endEntry], [endEntry]⟩

/-- Tile 0 with run-ahead and a LOAD that waits for credits of the matrix unit alone. -/
def prereadState : State :=
  ((withRegs [(regAddr .tilSeqProg 0, 4 * 2 ^ 18), (regAddr .pfbPenMap 0, 0), (regAddr .tilRunahead 0, 1)]).setTile 0
    { state := .running, queues := { load := [loadEntry 2 0 0x3C0 0] } })

/-- Tile 0 with a STORE of no sectors in flight, whose credit stands at the tile's router. -/
def creditLeaves : State :=
  { tileOnRegs.setTile 0 { inflight := [⟨.store, ⟨5, 3, iw 0x30 0 0 0, 0, []⟩, 0, 0⟩] } with
    requests := [⟨0, 0, .tileCredit 0 5, { opcode := opCREDIT, cls := clsSYNC }, 1⟩],
    flights := [{ pkt := { opcode := opCREDIT, cls := clsSYNC }, src := .tile 0 0, dst := .tile 0 0, stop := .tile 0 0, leg := .source }] }

theorem witness_CompletionsIdleAndPrereads :
    (({ inflight := [⟨.load, loadEntry 0 0x1F 0 0, 0, 7⟩], credits := [(1, 254)] } : Tile).inFlightOf .load)[0]?
        = some ⟨.load, loadEntry 0 0x1F 0 0, 0, 7⟩
    ∧ ({ credits := [(1, 254)] } : Tile).credit 0 1 = 254 ∧ ({ credits := [(1, 255)] } : Tile).credit 0 1 = 255
    ∧ (∀ u, atEnd (allAtEnd.of u) = true)
    ∧ ((tileOnRegs.setTile 0 { state := .running, queues := allAtEnd, credits := [(1, 1)] }).tile 0).state = .running
    ∧ (tileOnRegs.setTile 0 { state := .running, queues := allAtEnd }).tileOn 0 = true
    ∧ (prereadState.tile 0).queues.load[0]? = some (loadEntry 2 0 0x3C0 0) ∧ prereadDue prereadState 0 0 = true
    ∧ (piecesLeft (prereadState.tile 0) (loadEntry 2 0 0x3C0 0) = [(0, 2)] ∧ stagedSectors (prereadState.tile 0) + 2 ≤ 8192)
    ∧ (((creditLeaves.tile 0).inFlightOf .store)[0]? = some ⟨.store, ⟨5, 3, iw 0x30 0 0 0, 0, []⟩, 0, 0⟩
      ∧ Entry.leaves ⟨5, 3, iw 0x30 0 0 0, 0, []⟩ = true ∧ packetStays creditLeaves 0 5 = true
      ∧ packetStays { creditLeaves with flights := [] } 0 5 = false) := by
  refine ⟨by decide, by decide, by decide, fun u => by cases u <;> decide, by decide +kernel, by decide +kernel,
    by decide +kernel, by decide +kernel, by decide +kernel, by decide +kernel⟩

/-- A sync instruction that names hurdle 1023. -/
def syncEntry (op : Nat) (low : Nat := 1023) : Entry := ⟨5, 3, iw op 0 0 low, 0, []⟩

/-- A HARR of tile 0 at hurdle 1023, whose pending bit is set, in the tick in which that hurdle is released. -/
def harrInReleaseTick (x : Tile := { pendingH := [(1023, true)] }) : State :=
  { (headed .sync (syncEntry 0x11) x).setReg (regAddr .synHcfg 1023) 1 |>.setReg (regAddr .synHmap 1023 0) 1 with
    hurdles := [(1023, { trel := some 0 })] }

theorem witness_TileWaitsFollowBitsAndTallies :
    headIs (headed .sync (syncEntry 0x10 (191 * 2 ^ 38 + 2 ^ 31 - 1))) 0 .sync 0x10
        = some (syncEntry 0x10 (191 * 2 ^ 38 + 2 ^ 31 - 1))
    ∧ headIs (headed .sync (syncEntry 0x10 0)) 0 .sync 0x10 = some (syncEntry 0x10 0)
    ∧ headIs (headed .sync (syncEntry 0x11)) 0 .sync 0x11 = some (syncEntry 0x11)
    ∧ fenceOpen (headed .sync (syncEntry 0x11)) 0 (syncEntry 0x11) = true
    ∧ headIs (headed .sync (syncEntry 0x12) { pendingH := [(1023, true)] }) 0 .sync 0x12 = some (syncEntry 0x12)
    ∧ headIs (headed .sync (syncEntry 0x13)) 0 .sync 0x13 = some (syncEntry 0x13)
    ∧ headIs (headed .sync (syncEntry 0x13) { atoms := [4] }) 0 .sync 0x13 = some (syncEntry 0x13)
    ∧ fenceOpen (headed .sync (syncEntry 0x13) { atoms := [4] }) 0 (syncEntry 0x13) = false
    ∧ Unreleased (headed .sync (syncEntry 0x10 0)) 0 ∧ syncWaits ((headed .sync (syncEntry 0x10 0)).tile 0) = false
    ∧ (headIs harrInReleaseTick 0 .sync 0x11 = some (syncEntry 0x11) ∧ fenceOpen harrInReleaseTick 0 (syncEntry 0x11) = true
      ∧ syncWaits (harrInReleaseTick.tile 0) = false ∧ releaseDue 1023 harrInReleaseTick = true
      ∧ harrInReleaseTick.inMap 1023 0 = true ∧ (harrInReleaseTick.tile 0).early.elem 1023 = false
      ∧ Table.risesFrom 0 (harrInReleaseTick.tile 0).pendingH = true)
    ∧ syncWaits ((harrInReleaseTick { wait := some (.hurdle 5 (syncEntry 0x12)) }).tile 0) = true
    ∧ (wrapNat 32 ((5 : Int) - (2 ^ 32 - 1 : Nat)) < 2 ^ 31 ∧ 6 ≤ wrapNat 32 ((5 : Int) - (2 ^ 32 - 1 : Nat)))
    ∧ ((({ tallies := [(191, ⟨3, true⟩)] } : State).setTile 0 { state := .running, wait := some (.tally 191 3 (syncEntry 0x10)) }).tile 0).wait
        = some (.tally 191 3 (syncEntry 0x10))
    ∧ (({ wait := some (.tally 191 4) } : Core).wait = some (.tally 191 4))
    ∧ (({ wait := some (.tally 255 4), state := .running } : Engine).wait = some (.tally 255 4)) := by
  and_intros <;> first | exact no_release_of _ rfl _ | decide +kernel

theorem witness_CopiesAreCutAtKibBoundaries : 0x3E0 % 32 = 0 ∧ pieces 0x3E0 33 = [(0, 1), (32, 32)] := by decide +kernel

/-- A STORE of `n` sectors with a tally word. -/
def storeEntry (n ext : Nat) : Entry := ⟨5, 3, iw 0x30 0 0 (n * 2 ^ 20), ext, [⟨0x3E0, false⟩, ⟨0x80, false⟩]⟩

/-- A tally word that carries a credit of 7 to this node's tally 9. -/
def creditWord : Nat := 2 ^ 62 + 9 * 2 ^ 29 + 7

/-- An atomic of opcode `op`: OP 4, signed, 64 bits. -/
def atomEntry (op : Nat) : Entry := ⟨5, 3, iw op 0 0 (4 * 2 ^ 43 + 2 ^ 42 + 2 ^ 41), 2 ^ 64 - 2, [⟨0x8000, false⟩, ⟨0x80, false⟩]⟩

theorem witness_TileCopiesSendTheirRequests :
    headIs (headed .load (loadEntry 0 0 0x3E0 0x5FFFE0)) 0 .load 0x20 = some (loadEntry 0 0 0x3E0 0x5FFFE0)
    ∧ headIs (headed .load (loadEntry 0 0 0 0) { staged := [⟨5, 0, 2, some (zeros 64), false⟩] }) 0 .load 0x20 = some (loadEntry 0 0 0 0)
    ∧ pieces 0 2 = [(0, 2)]
    ∧ headIs (headed .store (storeEntry 2 creditWord)) 0 .store 0x30 = some (storeEntry 2 creditWord)
    ∧ headIs (headed .store (storeEntry 0 creditWord)) 0 .store 0x30 = some (storeEntry 0 creditWord)
    ∧ headIs (headed .store (storeEntry 0 0)) 0 .store 0x30 = some (storeEntry 0 0)
    ∧ headIs (headed .store (atomEntry 0x34)) 0 .store 0x34 = some (atomEntry 0x34)
    ∧ headIs (headed .store (atomEntry 0x35)) 0 .store 0x35 = some (atomEntry 0x35)
    ∧ (zeros 32).length = 32 ∧ Table.risesFrom 0 tileOnRegs.regs = true
    ∧ inProgram (headed .load (loadEntry 0 0 0 0)) 0 3 = true ∧ inProgram (headed .load (loadEntry 0 0 0 0)) 0 4 = false
    ∧ Table.get none ({ tags := [(4, some 0), (5, some 1)] } : Tile).tags 5 = some 1
    ∧ Unreleased tileOnRegs 0 := by
  and_intros <;> first | exact no_release_of _ rfl _ | decide +kernel

/-- An MMUL into bank 0 with the given fields: formats, PS, OPEN, CONT, K; M = N = 2. -/
def mmulEntry (seed ca cb ps op cont k : Nat) : Entry :=
  ⟨5, 3, iw 0x40 0 0 (seed * 2 ^ 43 + ca * 2 ^ 39 + cb * 2 ^ 35 + ps * 2 ^ 29 + op * 2 ^ 28 + cont * 2 ^ 27 + k),
    1 * 2 ^ 57 + 1 * 2 ^ 50, [⟨0x1000, false⟩, ⟨0x2000, false⟩, ⟨0, false⟩, ⟨0, false⟩, ⟨0, false⟩]⟩

/-- A bank with an open FP32 chain of PS 1, M = N = 2. -/
def openBank : Bank := { kind := .b32, chain := some ⟨8, 8, 1, 2, 2, [[1], [2]], [[3], [4]]⟩ }

theorem witness_MatrixProductsAndDots :
    (headIs (headed .matrix (mmulEntry 0 5 5 0 0 0 4)) 0 .matrix 0x40 = some (mmulEntry 0 5 5 0 0 0 4)
      ∧ mxuReady (headed .matrix (mmulEntry 0 5 5 0 0 0 4)) 0 (mmulEntry 0 5 5 0 0 0 4) = true
      ∧ (mmulOf (mmulEntry 0 5 5 0 0 0 4)).ca ≤ 6 ∧ (mmulOf (mmulEntry 0 5 5 0 0 0 4)).seed ≠ 2
      ∧ (mmulOf (mmulEntry 2 5 5 0 0 0 4)).seed = 2)
    ∧ (headIs (headed .matrix (mmulEntry 0 8 8 1 1 0 4)) 0 .matrix 0x40 = some (mmulEntry 0 8 8 1 1 0 4)
      ∧ mxuReady (headed .matrix (mmulEntry 0 8 8 1 1 0 4)) 0 (mmulEntry 0 8 8 1 1 0 4) = true
      ∧ (mmulOf (mmulEntry 0 8 8 1 1 0 4)).isOpen = true)
    ∧ (headIs (headed .matrix (mmulEntry 0 8 8 1 0 1 4) { bank0 := openBank }) 0 .matrix 0x40 = some (mmulEntry 0 8 8 1 0 1 4)
      ∧ mxuReady (headed .matrix (mmulEntry 0 8 8 1 0 1 4) { bank0 := openBank }) 0 (mmulEntry 0 8 8 1 0 1 4) = true
      ∧ continues openBank (mmulOf (mmulEntry 0 8 8 1 0 1 4)) = true
      ∧ continues {} (mmulOf (mmulEntry 0 8 8 1 0 1 4)) = false)
    ∧ ([128, 127].length = [255, 1].length ∧ ∀ x ∈ [128, 127, 255, 1], x < 256) := by
  and_intros <;> decide +kernel

/-- An XPOSE of one brick of 4-bit elements. -/
def xposeEntry : Entry := ⟨5, 3, iw 0x21 0 0 (1 * 2 ^ 16), 0, [⟨0x5FFE00, false⟩, ⟨0x400, false⟩]⟩

/-- An MDRAIN of bank 0 in a format, to the last bytes that fit. -/
def drainEntry (fmt : Nat) : Entry := ⟨5, 3, iw 0x48 0 0 (fmt * 2 ^ 41), 0, [⟨0x600000 - 16 * 4096, false⟩, ⟨0, false⟩]⟩

/-- An MLDB of a source and fraction 48. -/
def mldbEntry (src : Nat) : Entry := ⟨5, 3, iw 0x49 0 0 (src * 2 ^ 43 + 48 * 2 ^ 37), 0, [⟨0x1000, false⟩]⟩

theorem witness_MatrixMovesBetweenBankAndSram :
    headIs (headed .load xposeEntry) 0 .load 0x21 = some xposeEntry
    ∧ (zeros 512).length = 128 * 4
    ∧ (headIs (headed .matrix (drainEntry 8)) 0 .matrix 0x48 = some (drainEntry 8)
      ∧ powerReady (headed .matrix (drainEntry 8)) = true
      ∧ computesFinal ((headed .matrix (drainEntry 8)).tile 0) (drainEntry 8) = true ∧ drainLegal {} 8 false = true
      ∧ drainLegal {} 9 false = false ∧ (0x600000 - 16 * 4096) + 16 * (128 * codeWidth 8) ≤ 0x600000
      ∧ progSectors ({} : State) 0 = 0)
    ∧ computesFinal ({ bank0 := { finals := [⟨4, 9, false⟩] } } : Tile) (drainEntry 8) = false
    ∧ headIs (headed .matrix (mldbEntry 2)) 0 .matrix 0x49 = some (mldbEntry 2)
    ∧ mxuReady (headed .matrix (mldbEntry 2)) 0 (mldbEntry 2) = true
    ∧ (∃ p ∈ (({ bank1 := { finals := [⟨4, 9, false⟩] } } : Tile).bank true).finals, p.due ≤ 9)
    ∧ Unreleased (headed .matrix (drainEntry 8)) 0 := by
  and_intros <;> first | exact no_release_of _ rfl _ | decide +kernel

/-- A vector instruction of an opcode at INT32: VD 1, VA 2, VB 3. -/
def vrEntry (op : Nat) : Entry := ⟨5, 3, iw op 0 0 (2 * 2 ^ 42 + 1 * 2 ^ 37 + 2 * 2 ^ 32 + 3 * 2 ^ 27), 0, []⟩

theorem witness_VectorInstructionsWriteElementwise : ∀ r ∈ vrRows,
    headIs (headed .vector (vrEntry r.2.1) { vregs := [(2, 5), (3, 2 ^ 4096 - 1)] }) 0 .vector r.2.1 = some (vrEntry r.2.1) := by
  simp only [vrRows, List.forall_mem_cons]
  and_intros <;> first | decide +kernel | simp

theorem witness_IntegerResultsAndNanOperands :
    (tyIntQ 0xC = true ∧ (2 ^ 31 : Nat) < 2 ^ tyWidth 0xC ∧ (2 ^ 32 - 1 : Nat) < 2 ^ tyWidth 0xC)
    ∧ (tyIntQ 4 = true ∧ (255 : Nat) < 2 ^ tyWidth 4)
    ∧ (tyFloat 0xA = true ∧ (⟨0xA, 0, .rne, 0x7F800001, 0, 0⟩ : VArgs).xa.isNan = true)
    ∧ (tyFloat 8 = true ∧ (⟨8, 0, .rne, 0, 0xFFFF, 0⟩ : VArgs).xb.isNan = true) := by
  and_intros <;> decide +kernel

/-- A vector instruction of an opcode with the given low bits, at SRAM offset 0x1000. -/
def vEntry (op low : Nat) : Entry := ⟨5, 3, iw op 0 0 low, 0, [⟨0x1000, false⟩]⟩

theorem witness_VectorMovesConversionsReductionsAndBricks :
    headIs (headed .vector (vEntry 0x88 (0xA * 2 ^ 27 + 0x10 * 2 ^ 22))) 0 .vector 0x88 = some (vEntry 0x88 (0xA * 2 ^ 27 + 0x10 * 2 ^ 22))
    ∧ (powerReady (headed .vector (vEntry 0x88 0)) = true
      ∧ ((headed .vector (vEntry 0x88 0) { vxuFree := 5 }).tile 0).vxuFree ≤ ({ headed .vector (vEntry 0x88 0) with now := 5 } : State).now)
    ∧ (headIs (headed .vector (vEntry 0x88 (0xA * 2 ^ 27 + 4 * 2 ^ 19))) 0 .vector 0x88 = some (vEntry 0x88 (0xA * 2 ^ 27 + 4 * 2 ^ 19))
      ∧ bitsOf (vEntry 0x88 (0xA * 2 ^ 27 + 4 * 2 ^ 19)).word 19 3 = 4 ∧ ((vEntry 0x88 0).addr 0).val % 32 = 0
      ∧ (({ vEntry 0x88 0 with addrs := [⟨0x1001, false⟩] } : Entry).addr 0).val % 32 ≠ 0)
    ∧ headIs (headed .vector (vEntry 0x90 (124 * 2 ^ 30 + 3 * 2 ^ 28))) 0 .vector 0x90 = some (vEntry 0x90 (124 * 2 ^ 30 + 3 * 2 ^ 28))
    ∧ headIs (headed .vector (vEntry 0x90 (126 * 2 ^ 30 + 1 * 2 ^ 26))) 0 .vector 0x90 = some (vEntry 0x90 (126 * 2 ^ 30 + 1 * 2 ^ 26))
    ∧ headIs (headed .vector (vEntry 0x90 (127 * 2 ^ 30 + 2 * 2 ^ 26))) 0 .vector 0x90 = some (vEntry 0x90 (127 * 2 ^ 30 + 2 * 2 ^ 26))
    ∧ headIs (headed .vector (vEntry 0x90 (127 * 2 ^ 30 + 3 * 2 ^ 26))) 0 .vector 0x90 = some (vEntry 0x90 (127 * 2 ^ 30 + 3 * 2 ^ 26))
    ∧ computesFinal {} (vEntry 0x90 0) = true
    ∧ headIs (headed .vector (vEntry 0xB0 (24 * 2 ^ 37 + 7 * 2 ^ 27 + 2 ^ 26))) 0 .vector 0xB0 = some (vEntry 0xB0 (24 * 2 ^ 37 + 7 * 2 ^ 27 + 2 ^ 26))
    ∧ headIs (headed .vector (vEntry 0xB1 (31 * 2 ^ 37))) 0 .vector 0xB1 = some (vEntry 0xB1 (31 * 2 ^ 37))
    ∧ headIs (headed .vector (vEntry 0x98 (2 * 2 ^ 42 + 31 * 2 ^ 27))) 0 .vector 0x98 = some (vEntry 0x98 (2 * 2 ^ 42 + 31 * 2 ^ 27))
    ∧ headIs (headed .vector (vEntry 0x99 (0xA * 2 ^ 42))) 0 .vector 0x99 = some (vEntry 0x99 (0xA * 2 ^ 42))
    ∧ headIs (headed .vector (vEntry 0x9A (0xD * 2 ^ 42))) 0 .vector 0x9A = some (vEntry 0x9A (0xD * 2 ^ 42))
    ∧ (zeros 4096).length = 4096 := by
  and_intros <;> decide +kernel

/-! ### Fabric, requests and responses -/

/-- A request of class REQ from tile 0. -/
def reqPkt (op offset n : Nat) (data : List Byte := []) : Packet := { opcode := op, offset := offset, nsect := n, data := data }

theorem witness_PacketHeaderRoundTrip :
    Packet.fits {
      opcode := 255, cls := 3, mcast := 3, dstEp := 1023, srcEp := 1023, nsect := 63, dstNode := 65535, srcNode := 65535,
      jid := 65535, offset := 2 ^ 48 - 1, window := 255, status := 255, tally := 2 ^ 17 - 1, credit := 65535, seq := 65535,
      mask := 2 ^ 36 - 1, vc := true, pf := true, terr := true, rsvd := 3 } := by
  unfold Packet.fits; decide

theorem witness_RingHopsTakeTheShorterWay :
    Stop.west 0 ∈ ringStops (.row 0) ∧ Stop.tile 12 0 ∈ ringStops (.row 0) ∧ Stop.west 0 ≠ Stop.tile 12 0
    ∧ 2 * ringDistance (.row 0) (.west 0) (.tile 12 0) ≤ (ringStops (.row 0)).length
    ∧ 2 * ringDistance (.row 2) (.east 2) (.tile 0 2) = 2 := by
  and_intros <;> decide +kernel

/-- A flight from tile 0 to tile 5 of row 0, and the states it is the first flight of. -/
def rowFlight (leg : Leg) (stop : Stop) : Flight :=
  { pkt := reqPkt opRD (sramBase 5) 1, src := .tile 0 0, dst := .tile 5 0, stop := stop, leg := leg }

def flies (f : Flight) : State := { tileOnRegs with flights := [f] }

/-- The link from tile 0 to tile 1 of row 0, VC 0 of class REQ, and a packet that waits at tile 0 to go over it. -/
def eastLink : Buf := .link (.row 0) (.tile 0 0) (.tile 1 0) 4

/-- The same packet of another class. -/
def rowFlightOf (cls : Nat) : Flight :=
  { rowFlight .second (.tile 0 0) with pkt := { reqPkt opRD (sramBase 5) 1 with cls := cls } }

/-- The packet behind another of class SYNC, and behind four flits in its link's buffer. -/
def contended : State := { tileOnRegs with flights := [rowFlightOf clsREQ, rowFlightOf clsSYNC] }
def linkTaken : State :=
  { tileOnRegs with flights := [rowFlightOf clsREQ, { rowFlight .second (.tile 1 0) with held := [(eastLink, 4)] }] }

/-- A flight from tile 0 to tile 5 of row 3, which turns at tile 5 of row 0. -/
def turnFlight (leg : Leg) (stop : Stop) : Flight :=
  { pkt := reqPkt opRD (sramBase 77) 1, src := .tile 0 0, dst := .tile 5 3, stop := stop, leg := leg }

/-- A multicast packet of endpoint 656 to tiles 0 and 1 of rows 0 and 1, or to tiles of row 0 or column 0. -/
def castPkt (mcast mask : Nat) : Packet :=
  { opcode := opWR, cls := clsREQ, mcast := mcast, srcEp := 656, dstEp := 0, nsect := 1, mask := mask, data := zeros 32 }

def castFlight (mcast mask : Nat) (leg : Leg) (stop dst : Stop) : Flight :=
  { pkt := castPkt mcast mask, src := .west 0, dst := dst, stop := stop, leg := leg }

/-- A row packet at tile 11, which crosses to the other half of the die over link 0, whose end holds no credit of VC 4. -/
def atSeam : Flight := { rowFlight .second (.tile 11 0) with dst := .tile 13 0, pkt := { reqPkt opRD (sramBase 13) 1 with cls := clsREQ } }
def noCredits : State := { flies atSeam with d2d := [(0, { credits := List.replicate 8 0 })] }

theorem witness_PacketsMoveStopByStop :
    mayMove (flies (rowFlight .source (.tile 0 0))) 0 (rowFlight .source (.tile 0 0)) = true
    ∧ injectionStopped (flies (rowFlight .source (.tile 0 0))) (rowFlight .source (.tile 0 0)) = false
    ∧ decodeRoute (flies (rowFlight .source (.tile 0 0))) (rowFlight .source (.tile 0 0)) = .go 5 0 (reqPkt opRD (sramBase 5) 1)
    ∧ decodeRoute {} { rowFlight .source (.tile 0 0) with pkt := reqPkt opRD 0x8000000000 1 } = .answer errUNMAPPED
    ∧ mayMove (flies (rowFlight .second (.tile 0 0))) 0 (rowFlight .second (.tile 0 0)) = true
    ∧ routeOf false (.tile 0 0) (.tile 5 0) = [(.row 0, .tile 5 0)]
    ∧ (ready contended 1 (rowFlightOf clsSYNC) = true ∧ (∃ o ∈ outputsOf (rowFlightOf clsREQ), o ∈ outputsOf (rowFlightOf clsSYNC))
      ∧ mayMove contended 0 (rowFlightOf clsREQ) = false)
    ∧ (eastLink ∈ nextBufs (rowFlightOf clsREQ) ∧ (crossing (.row 0) (.tile 0 0) (.tile 1 0)).isSome = false
      ∧ 4 ≤ occupied linkTaken eastLink)
    ∧ mayMove (flies (rowFlight .second (.tile 5 0))) 0 (rowFlight .second (.tile 5 0)) = true
    ∧ untaken (rowFlight .second (.tile 5 0)).pkt = false
    ∧ (mayMove (flies (turnFlight .first (.tile 4 0))) 0 (turnFlight .first (.tile 4 0)) = true
      ∧ mayMove (flies (turnFlight .first (.tile 5 0))) 0 (turnFlight .first (.tile 5 0)) = true
      ∧ mayMove (flies (turnFlight .second (.tile 5 0))) 0 (turnFlight .second (.tile 5 0)) = true
      ∧ routeOf false (.tile 0 0) (.tile 5 3) = [(.row 0, .tile 5 0), (.col 5, .tile 5 3)]
      ∧ routeOf true (.tile 0 0) (.tile 5 3) = [(.col 0, .tile 0 3), (.row 3, .tile 5 3)])
    ∧ ((castPkt 1 0xC3).spreads = true
      ∧ mayMove (flies (castFlight 1 0xC3 .first (.tile 0 0) (.tile 0 0))) 0 (castFlight 1 0xC3 .first (.tile 0 0) (.tile 0 0)) = true
      ∧ mayMove (flies (castFlight 1 0xC3 .foldRow (.tile 0 0) (.tile 0 0))) 0 (castFlight 1 0xC3 .foldRow (.tile 0 0) (.tile 0 0)) = true
      ∧ mayMove (flies (castFlight 1 0xC3 .foldCol (.tile 1 0) (.tile 0 0))) 0 (castFlight 1 0xC3 .foldCol (.tile 1 0) (.tile 0 0)) = true
      ∧ mayMove (flies (castFlight 1 0xC3 .foldCol (.tile 1 1) (.tile 0 0))) 0 (castFlight 1 0xC3 .foldCol (.tile 1 1) (.tile 0 0)) = true
      ∧ (bitOf 0xC3 (6 * 1 + 0) = true ∧ bitOf 0xC3 1 = true ∧ bitOf 0xC3 (6 * 1 + 1) = true ∧ bitOf 0xC3 (6 * 2 + 1) = false)
      ∧ mayMove (flies (castFlight 2 3 (.line 0) (.tile 1 0) (.west 0))) 0 (castFlight 2 3 (.line 0) (.tile 1 0) (.west 0)) = true
      ∧ mayMove (flies (castFlight 3 3 (.line 1) (.tile 0 1) (.tile 0 0))) 0 (castFlight 3 3 (.line 1) (.tile 0 1) (.tile 0 0)) = true
      ∧ (castFlight 2 3 (.line 0) (.west 0) (.west 0)).stop ∈ ringStops (treeRing (castFlight 2 3 (.line 0) (.west 0) (.west 0))))
    ∧ (Buf.link (.row 0) (.tile 11 0) (.tile 12 0) 4 ∈ nextBufs atSeam ∧ crossing (.row 0) (.tile 11 0) (.tile 12 0) = some 0
      ∧ posOn (.row 0) (.tile 12 0) = (posOn (.row 0) (.tile 11 0) + 1) % (ringStops (.row 0)).length
      ∧ (noCredits.link (2 * 0)).credit 4 = 0 ∧ ((flies atSeam).link 0).credit 4 = 32) := by
  and_intros <;> decide +kernel

/-- A die-to-die frame of zeros with its CRC. -/
def goodFrame : List Byte := zeros 760 ++ bytesOf 8 (crc64 (zeros 760))

/-- A frame of number `n` that carries nothing, and a link whose peer has taken the frame 4095. -/
def emptyFrame (n : Nat) : Frame := { seq := n, ack := 0, nak := false, credits := [], slots := [] }

def replaying (retries : Nat) : D2d :=
  { acked := 4095, store := [emptyFrame 4095, emptyFrame 0], failing := some 0, retries := retries }

theorem witness_D2dFramesAreTakenInSequence :
    goodFrame.length = 768 ∧ (withRegs [(regAddr .pfbD2dStatus 133, 1)]).bit .pfbD2dStatus 133 0 = true
    ∧ crc64 (goodFrame.take 760) = natOf (slice goodFrame 760 8) ∧ natOf (slice goodFrame 645 2) % 4096 = 0
    ∧ bitOf (natOf (slice goodFrame 647 2)) 12 = false ∧ (1 :: zeros 767).length = 768
    ∧ crc64 ((1 :: zeros 767).take 760) ≠ natOf (slice (1 :: zeros 767) 760 8)
    ∧ (bitOf (2 + 5 * 2 ^ 3 : Nat) 1 = true ∧ bitOf (2 + 5 * 2 ^ 3 : Nat) 2 = false)
    ∧ framesAfter (replaying 15).acked (replaying 15).store = [emptyFrame 0]
    ∧ (Table.risesFrom 0 ({ d2d := [(267, replaying 15)] } : State).d2d = true
      ∧ (if (replaying 15).failing = some (emptyFrame 0).seq then (replaying 15).retries + 1 else 1) = 16
      ∧ (if (replaying 16).failing = some (emptyFrame 0).seq then (replaying 16).retries + 1 else 1) = 17)
    ∧ (otherEnd 266 = 267 ∧ otherEnd 267 = 266)
    ∧ ((emptyFrame 4095).msg = [] ∧ (emptyFrame 4095).slots.length ≤ 5
      ∧ ∀ x ∈ List.replicate 5 (⟨true, true, 7, false, zeros 128⟩ : Slot), x.bytes.length = 128) := by
  and_intros <;> decide +kernel

/-- A node at which one packet has arrived; tile 0 to 63 enabled, no pseudo-channel penned. -/
def arrived (ep : Nat) (p : Packet) : State := { tileOnRegs with delivered := [{ ep := ep, pkt := p }] }

theorem witness_ReadsAnswerWholeOrFail :
    (Serves (arrived 576 (reqPkt opRD 0 32)) 0 opRD { ep := 576, pkt := reqPkt opRD 0 32 }
      ∧ heldBy (arrived 576 (reqPkt opRD 0 32)) 576 0 32 = true
      ∧ reserveDenied (arrived 576 (reqPkt opRD 0 32)) (reqPkt opRD 0 32) = false
      ∧ NoDirtyLine (arrived 576 (reqPkt opRD 0 32)) 0 32
      ∧ ∀ i, i < 32 → (arrived 576 (reqPkt opRD 0 32)).wrongAt (32 * i) = 0)
    ∧ (({ arrived 576 (reqPkt opRD 0 1) with wrong := [(0, 1)] } : State).wrongAt 0 = 1
      ∧ Serves { arrived 576 (reqPkt opRD 0 1) with wrong := [(0, 1)] } 0 opRD { ep := 576, pkt := reqPkt opRD 0 1 })
    ∧ Serves (arrived 5 { reqPkt opSNRD (sramBase 5) 1 with cls := clsSNAP }) 0 opSNRD
        { ep := 5, pkt := { reqPkt opSNRD (sramBase 5) 1 with cls := clsSNAP } }
    ∧ (Serves (arrived 576 (reqPkt opRD 0 1)) 0 opRD { ep := 576, pkt := reqPkt opRD 0 1 }
      ∧ heldBy (arrived 576 (reqPkt opRD 0 1)) 576 0 1 = true ∧ (arrived 576 (reqPkt opRD 0 1)).memWf = true
      ∧ Table.risesFrom 0 (arrived 576 (reqPkt opRD 0 1)).regs = true
      ∧ Table.risesFrom 0 (arrived 576 (reqPkt opRD 0 1)).poison = true
      ∧ Table.risesFrom 0 ({ arrived 576 (reqPkt opRD 0 1) with wrong := [(0, 1)] } : State).wrong = true
      ∧ (arrived 576 (reqPkt opRD 0 1)).pcPenned ((arrived 576 (reqPkt opRD 0 1)).pcOf 0).1 = false) := by
  unfold Serves NoDirtyLine; and_intros <;> decide +kernel

/-- A narrow store of a core: 8 bytes. -/
def narrowPkt : Packet := { reqPkt opWR 0x8 1 (List.replicate 8 7) with srcEp := 608 }

/-- A 64-bit atomic of OP 5, signed. -/
def atomPkt (offset : Nat) : Packet := { reqPkt opATOM offset 1 (List.replicate 8 0xFF ++ zeros 24) with status := 29 }

/-- A write-back of a sector of which a core wrote the first byte alone. -/
def keptPkt : Packet := { reqPkt opWR 0 1 (zeros 32) with srcEp := 608, keep := 2 ^ 32 - 2 }

theorem witness_WritesAndAtomicsStoreTheirBytes :
    (Serves (arrived 576 (reqPkt opWR 0 1 (zeros 32))) 0 opWR { ep := 576, pkt := reqPkt opWR 0 1 (zeros 32) }
      ∧ (reqPkt opWR 0 1 (zeros 32)).narrow = false
      ∧ isHeld (arrived 576 (reqPkt opWR 0 1 (zeros 32))) { ep := 576, pkt := reqPkt opWR 0 1 (zeros 32) } = false)
    ∧ (Serves (arrived 576 narrowPkt) 0 opWR { ep := 576, pkt := narrowPkt } ∧ narrowPkt.narrow = true
      ∧ heldBy (arrived 576 narrowPkt) 576 (0x8 / 32 * 32) 1 = true ∧ NoDirtyLine (arrived 576 narrowPkt) (0x8 / 32 * 32) 1)
    ∧ isHeld { arrived 576 (reqPkt opWR 0 1 (zeros 32)) with snap := [(0, true)] } { ep := 576, pkt := reqPkt opWR 0 1 (zeros 32) } = true
    ∧ (Serves (arrived 5 (reqPkt opWR (sramBase 5) 1 (zeros 32))) 0 opWR { ep := 5, pkt := reqPkt opWR (sramBase 5) 1 (zeros 32) }
      ∧ heldBy {} 5 (sramBase 5) 1 = true ∧ placeOf (sramBase 5) = .sram 5 0
      ∧ Unreleased (arrived 5 (reqPkt opWR (sramBase 5) 1 (zeros 32))) 5)
    ∧ (Serves (arrived 576 keptPkt) 0 opWR { ep := 576, pkt := keptPkt } ∧ keptPkt.narrow = false
      ∧ isHeld (arrived 576 keptPkt) { ep := 576, pkt := keptPkt } = false ∧ reserveDenied (arrived 576 keptPkt) keptPkt = false
      ∧ heldBy (arrived 576 keptPkt) 576 0 1 = true ∧ NoDirtyLine (arrived 576 keptPkt) 0 1)
    ∧ taggedByOther (({} : State).setTile 5 { tags := [(0, some 7)] }) 5 0 1 0 = true
    ∧ (inProgram (tileRuns []) 0 3 = true ∧ ((tileRuns []).tile 0).state ≠ .idle)
    ∧ ((arrived 576 narrowPkt).wrongAt 0x8 < 2 ∧ (arrived 576 narrowPkt).memWf = true
      ∧ Table.risesFrom 0 (arrived 576 narrowPkt).wrong = true)
    ∧ (Serves (arrived 576 (atomPkt 0x18)) 0 opATOM { ep := 576, pkt := atomPkt 0x18 }
      ∧ heldBy (arrived 576 (atomPkt 0x18)) 576 0 1 = true ∧ NoDirtyLine (arrived 576 (atomPkt 0x18)) 0 1
      ∧ (arrived 576 (atomPkt 0x18)).wrongAt 0x18 = 0 ∧ (atomPkt 0x18).poison = []
      ∧ pieceCode (arrived 576 (atomPkt 0x18)) 0 1 = 0 ∧ placeOf 0x18 = .stacked)
    ∧ pieceCode { poison := [(0, true)] } 0 1 = errMEM_UE
    ∧ Serves (arrived 5 (atomPkt (sramBase 5))) 0 opATOM { ep := 5, pkt := atomPkt (sramBase 5) } := by
  unfold Serves NoDirtyLine; and_intros <;> first | exact no_release_of _ rfl _ | decide +kernel

/-- A credit of 65,535 with TERR to the last tally of tile 0. -/
def creditPkt : Packet := { opcode := opCREDIT, cls := clsSYNC, tally := 191, credit := 65535, terr := true }

theorem witness_CreditsAddToTheirTally :
    Serves (arrived 0 creditPkt) 0 opCREDIT { ep := 0, pkt := creditPkt } ∧ tallyEp creditPkt.tally = 0
    ∧ (arrived 0 creditPkt).tallyOwnerOff 191 = false ∧ Table.risesFrom 0 (arrived 0 creditPkt).tallies = true
    ∧ tallyEp 131071 = 659 ∧ ({} : State).tallyOwnerOff 131071 = false
    ∧ conflictCredit { ep := 0, pkt := creditPkt } (arrived 0 creditPkt) = false := by
  unfold Serves; and_intros <;> decide +kernel

/-- Tile 0 with a request outstanding and its response arrived. -/
def answeredState (r : Request) (p : Packet) (x : Tile) : State :=
  ({ tileOnRegs with requests := [r], delivered := [{ ep := 0, pkt := p }] } : State).setTile 0 x

def loadRequest : Request := ⟨0, 0, .tileLoad 0 5 0x80 1, reqPkt opRD 0x8000 1, 1⟩
def storeRequest : Request := ⟨0, 0, .tileStore 0 5, reqPkt opWR 0x8000 1 (zeros 32), 1⟩
def preRequest : Request := ⟨0, 0, .tilePre 0 5 0x80 1, { reqPkt opRD 0x8000 1 with pf := true }, 1⟩
def rspPkt (op status n : Nat) : Packet := { opcode := op, cls := clsRSP, status := status, nsect := n, data := zeros (32 * n) }
def loadTile : Tile := { inflight := [⟨.load, loadEntry 0 0 0x8000 0x80, 1, 0⟩] }
def preTile : Tile := { loadTile with staged := [⟨5, 0x80, 1, none, false⟩] }
def storeTile (left credit : Nat) : Tile := { stores := [⟨5, 3, left, false, none, 9, credit, false, ⟨0x8000, false⟩, 32⟩] }

/-- A credit to tile 5, and one that tile 3's STORE 9 sends to tile 0, at which a write of that STORE met a WRITE_CONFLICT. -/
def portCredit : Packet := { creditPkt with tally := 5 * 192 }
def markedCredit : Packet := { creditPkt with srcEp := 3 }
def credited : State :=
  (arrived 0 markedCredit).setTile 0 { conflicts := [(3, 8), (3, 9)] } |> fun s =>
    { s with requests := [⟨3, 0, .tileCredit 3 9, markedCredit, 1⟩] }

theorem witness_ResponsesAndRefusedCredits :
    (Serves (arrived 608 { creditPkt with tally := 110592 }) 0 opCREDIT { ep := 608, pkt := { creditPkt with tally := 110592 } }
      ∧ tallyEp 110592 = 608
      ∧ State.tallyOwnerOff (withRegs [(regAddr .prcCoreStatus, 1)]) 110592 = true)
    ∧ ((arrived 5 portCredit).delivered[0]? = some { ep := 5, pkt := portCredit } ∧ tallyEp portCredit.tally = 5 ∧ portCredit.tally < 131072
      ∧ wellFormedPacket portCredit = true
      ∧ State.tallyOwnerOff { ({} : State) with delivered := [{ ep := 5, inPort := true, pkt := portCredit }] } portCredit.tally = true
      ∧ conflictCredit { ep := 5, inPort := true, pkt := portCredit } ({} : State) = false)
    ∧ (Serves credited 0 opCREDIT { ep := 0, pkt := markedCredit } ∧ tallyEp markedCredit.tally = 0
      ∧ credited.tallyOwnerOff markedCredit.tally = false ∧ Table.risesFrom 0 credited.tiles = true
      ∧ markedCredit.srcNode = credited.nodeId ∧ copyOf credited 0 markedCredit = some 9
      ∧ (markedCredit.srcNode * 1024 + markedCredit.srcEp, 9) ∈ (credited.tile 0).conflicts ∧ markedCredit.credit ≠ 0)
    ∧ (({ ({} : State) with delivered := [{ ep := 5, pkt := reqPkt opRD (sramBase 5) 1 }] } : State).tileOn 5 = false
      ∧ (reqPkt opRD (sramBase 5) 1).pf = false
      ∧ mustWait { ({} : State) with delivered := [{ ep := 5, pkt := reqPkt opRD (sramBase 5) 1 }] } 0
          { ep := 5, pkt := reqPkt opRD (sramBase 5) 1 } = false)
    ∧ (Matches (answeredState loadRequest (rspPkt opRDATA 0 1) loadTile) 0 opRDATA { ep := 0, pkt := rspPkt opRDATA 0 1 } loadRequest
      ∧ (answeredState loadRequest (rspPkt opRDATA 0 1) loadTile).tileOn 0 = true
      ∧ (rspPkt opRDATA 0 1).nsect = loadRequest.pkt.nsect ∧ (rspPkt opERR 8 0).status ≠ 0
      ∧ loadTile.flying .load 5 = some (loadEntry 0 0 0x8000 0x80))
    ∧ Matches (answeredState loadRequest (rspPkt opERR 8 0) loadTile) 0 opERR { ep := 0, pkt := rspPkt opERR 8 0 } loadRequest
    ∧ Matches (answeredState storeRequest (rspPkt opACK 0 0) (storeTile 2 7)) 0 opACK { ep := 0, pkt := rspPkt opACK 0 0 } storeRequest
    ∧ Matches (answeredState storeRequest (rspPkt opACK 0 0) (storeTile 1 7)) 0 opACK { ep := 0, pkt := rspPkt opACK 0 0 } storeRequest
    ∧ Matches (answeredState storeRequest (rspPkt opACK 0 0) (storeTile 1 0)) 0 opACK { ep := 0, pkt := rspPkt opACK 0 0 } storeRequest
    ∧ (Matches (answeredState storeRequest (rspPkt opERR 8 0) (storeTile 2 7)) 0 opERR { ep := 0, pkt := rspPkt opERR 8 0 } storeRequest
      ∧ Matches (answeredState storeRequest (rspPkt opERR 8 0) (storeTile 1 7)) 0 opERR { ep := 0, pkt := rspPkt opERR 8 0 } storeRequest
      ∧ Matches (answeredState storeRequest (rspPkt opERR 8 0) (storeTile 1 0)) 0 opERR { ep := 0, pkt := rspPkt opERR 8 0 } storeRequest)
    ∧ (Matches (answeredState preRequest (rspPkt opRDATA 0 1) preTile) 0 opRDATA { ep := 0, pkt := rspPkt opRDATA 0 1 } preRequest
      ∧ Matches (answeredState preRequest (rspPkt opERR 8 0) preTile) 0 opERR { ep := 0, pkt := rspPkt opERR 8 0 } preRequest
      ∧ preTile.flying .load 5 = some (loadEntry 0 0 0x8000 0x80) ∧ preTile.staged = [⟨5, 0x80, 1, none, false⟩]
      ∧ (answeredState preRequest (rspPkt opERR 8 0) preTile).tileOn 0 = true)
    ∧ (Matches (answeredState preRequest (rspPkt opDECLINE 0 0) { staged := [⟨5, 0x80, 1, none, false⟩] }) 0 opDECLINE
        { ep := 0, pkt := rspPkt opDECLINE 0 0 } preRequest
      ∧ ({ staged := [⟨5, 0x80, 1, none, false⟩] } : Tile).flying .load 5 = none)
    ∧ (∀ r ∈ ({} : State).requests, r.ep = 0 → r.seq ≠ 0)
    ∧ 7 < 8 * 1 := by
  unfold Matches Serves; and_intros <;> first | decide +kernel | simp

/-! ### Hurdles, time, windows, memory -/

theorem witness_EmptyQueueStepIsOneTick :
    (({} : State).pending = [] ∧ ({} : State).hec.rx = [] ∧ (∀ x ∈ ({} : State).hec.ring, x.sent = true)
      ∧ ({} : State).hec.resetAt = none ∧ ({} : State).ckp.relays = [] ∧ ({} : State).ckp.launching = false
      ∧ ({} : State).ckp.restore = none ∧ ({} : State).penDue = [] ∧ bitOf ({} : State).aplicM.domaincfg 8 = false
      ∧ bitOf ({} : State).aplicS.domaincfg 8 = false ∧ Table.risesFrom 0 ({} : State).tiles = true ∧ Table.risesFrom 0 ({} : State).cores = true
      ∧ ({} : State).brc.off = false ∧ ({} : State).brc.hold = none ∧ slewDue {} = false)
    ∧ (slewDue { tstate := { slew := -1 }, now := 2048 } = true ∧ slewDue { tstate := { rate := 1 }, now := 2048000000 } = true)
    ∧ (({ ({} : State) with brc := { hold := some [] } } : State).brc.hold.isSome = true ∧ ({ brc := { off := true } } : State).brc.off = true)
    ∧ (inPhase (withRegs [(regAddr .brcBootStatus, 5)]) 5 = true
      ∧ ({ withRegs [(regAddr .brcBootStatus, 5)] with now := 18749999999 } : State).brc.phaseStart + phaseLimit 5
        ≤ ({ withRegs [(regAddr .brcBootStatus, 5)] with now := 18749999999 } : State).now + 1)
    ∧ (((tileOnRegs.setTile 0 { startAt := some 1 }).tile 0).startAt = some 1 ∧ 1 ≤ tileOnRegs.now + 1
      ∧ tileOnRegs.tileOn 0 = true ∧ ((tileOnRegs.setTile 0 { startAt := some 1 }).tile 0).state = .idle
      ∧ tileOnRegs.field .tilSeqProg 0 0 18 18 ≠ 0 ∧ tileOnRegs.akm.frozen = false) := by
  and_intros <;> first | decide +kernel | simp

/-- Hurdle 1023 armed, with participants tile 0 and core 0, with or without the cross-node bit; and a tree. -/
def hurdleRegs (xnode root : Nat) : State :=
  withRegs [(regAddr .synHcfg 1023, 1 + 2 * xnode + 512 * 2 ^ 8), (regAddr .synHmap 1023 0, 1), (regAddr .synHmap 1023 9, 1),
    (regAddr .synTree, 7 + 9 * 2 ^ 16 + 1 * 2 ^ 32 + root * 2 ^ 37), (regAddr .synChild 0, 5), (regAddr .pfbPenMap 0, 0),
    (regAddr .hfiNodeId, 3)]

def hurdleState (xnode root : Nat) (x : Hurdle) : State := { hurdleRegs xnode root with time := 1000, hurdles := [(1023, x)] }

/-- Hurdle 1023 armed with an empty map, in a round that began at tick 1. -/
def emptyRound (regs : List (Nat × Nat)) (x : Ckp) : State :=
  { withRegs ((regAddr .synHcfg 1023, 1) :: regs) with time := 1000, hurdles := [(1023, { began := 1 })], ckp := x }

theorem witness_ReleaseTickFollowsCompletion :
    (hurdleState 0 0 { arrived := [0, 576], children := [5] }).armed 1023 = true
    ∧ (hurdleState 0 0 { arrived := [0, 576], children := [5] }).xnode 1023 = false
    ∧ localDone 1023 (hurdleState 0 0 { arrived := [0, 576], children := [5] }) = true
    ∧ (∀ c ∈ (hurdleState 1 1 { arrived := [0, 576], children := [5] }).children, c ∈ [5])
    ∧ (hurdleState 1 1 { arrived := [0, 576], children := [5] }).xnode 1023 = true
    ∧ (hurdleState 1 1 { arrived := [0, 576], children := [5] }).isRoot = true
    ∧ ({ withRegs [(regAddr .synHcfg 1023, 1)] with hurdles := [(1023, { began := 1 })] } : State).participants 1023 = []
    ∧ localDone 1023 { withRegs [(regAddr .synHcfg 1023, 1)] with hurdles := [(1023, { began := 1 })] } = true
    ∧ 1023 ≠ (withRegs [(regAddr .synHcfg 1023, 1)]).launchHurdle
    ∧ (let s := emptyRound [(regAddr .synDesig, 1023), (regAddr .ckpLaunchStatus, 1)] { readyAt := 7 }
      s.armed 1023 = true ∧ s.participants 1023 = [] ∧ localDone 1023 s = true ∧ 1023 = s.launchHurdle
        ∧ (s.hurdle 1023).began < s.ckp.readyAt)
    ∧ (let s := emptyRound [(regAddr .synDesig, 1023 * 2 ^ 20 + 1), (regAddr .ckpCutCfg, 1)] { endedAt := 7 }
      s.armed 1023 = true ∧ localDone 1023 s = true ∧ 1023 = s.cutHurdle ∧ willCut s = true ∧ 1023 ≠ s.launchHurdle)
    ∧ ({ hurdleState 1 0 { arrived := [0, 576], children := [5] } with akm := { frozen := true } } : State).akm.frozen = true
    ∧ (hurdleState 1 0 { arrived := [0, 576], children := [5] }).isRoot = false
    ∧ localDone 1023 (hurdleState 1 0 { arrived := [0, 576], children := [5] }) = true := by
  and_intros <;> decide +kernel

/-- ARRIVE of core 0 at hurdle 1023. -/
def arrivePkt : Packet := { opcode := opARRIVE, cls := clsSYNC, tally := 1023, srcEp := 608 }

theorem witness_HubAcceptsAndReleasesRounds :
    (Serves { hurdleState 0 0 { arrived := [0] } with delivered := [{ ep := 659, pkt := arrivePkt }] } 0 opARRIVE { ep := 659, pkt := arrivePkt }
      ∧ arrivingAgent arrivePkt = some 576 ∧ (hurdleState 0 0 { arrived := [0] }).inMap 1023 576 = true
      ∧ 576 ∉ ((hurdleState 0 0 { arrived := [0] }).hurdle 1023).arrived)
    ∧ 576 ∈ ((hurdleState 0 0 { arrived := [0, 576] }).hurdle 1023).arrived
    ∧ (releaseDue 1023 (hurdleState 0 0 { arrived := [0, 576], trel := some 768, relAt := 768 }) = true
      ∧ Table.risesFrom 0 (hurdleState 0 0 {}).regs = true
      ∧ ((hurdleState 0 0 { trel := some 768 }).hurdle 1023).trel = some 768)
    ∧ (({ wait := some (.hurdle 1023) } : Core).wait = some (.hurdle 1023))
    ∧ (Table.risesFrom 0 ({ pendingH := [(1023, true)] } : Tile).pendingH = true ∧ ({} : Tile).early.elem 1023 = false) := by
  unfold Serves; and_intros <;> decide +kernel

/-- NODE_ARRIVE of child 5, and NODE_RELEASE of parent 9, in round 65,535. -/
def nodeArrivePkt : Packet := { opcode := opNODE_ARRIVE, cls := clsSYNC, tally := 1023, credit := 65535, srcNode := 5 }
def nodeReleasePkt (t : Nat) : Packet := { opcode := opNODE_RELEASE, cls := clsSYNC, tally := 1023, credit := 65535, srcNode := 9, offset := t }

theorem witness_NodeMessagesAndRebuiltTicks :
    (Serves { hurdleState 1 0 { round := 65535 } with delivered := [{ ep := 659, pkt := nodeArrivePkt }] } 0 opNODE_ARRIVE { ep := 659, pkt := nodeArrivePkt }
      ∧ (hurdleState 1 0 { round := 65535 }).armed 1023 = true ∧ 5 ∈ (hurdleState 1 0 {}).children)
    ∧ (Serves { hurdleState 1 0 { round := 65535, sent := true } with delivered := [{ ep := 659, pkt := nodeReleasePkt 1128 }] } 0 opNODE_RELEASE
        { ep := 659, pkt := nodeReleasePkt 1128 }
      ∧ (hurdleState 1 0 {}).isRoot = false ∧ (hurdleState 1 0 {}).parent = 9
      ∧ nearestTime 1000 1128 = 1000 + 128 ∧ nearestTime 1000 1127 < 1000 + 128)
    ∧ (resendDue 1023 { hurdleState 1 0 { resend := some 4096 } with now := 4096 } = true)
    ∧ (nearestTime (2 ^ 48 + 5) (2 ^ 48 - 1) = 2 ^ 48 - 1 ∧ nearestTime (2 ^ 49 - 1) 0 = 2 ^ 49) := by
  unfold Serves; and_intros <;> decide +kernel

def timeReqPkt : Packet := { opcode := opTIME_REQ, cls := clsSYNC, nsect := 1, data := zeros 32 }
def timeRspPkt (t1 t2 t3 : Nat) : Packet :=
  { opcode := opTIME_RSP, cls := clsSYNC, nsect := 1, data := padTo 32 (bytesOf 8 t1 ++ bytesOf 8 t2 ++ bytesOf 8 t3) }

/-- A node of the tree that is joined to node 7, with an exchange outstanding, when its answer arrives at time 1000. -/
def exchanging (p : Packet) (x : TimeState) : State := { hurdleRegs 0 0 with
  time := 1000, tstate := x, delivered := [{ ep := 659, pkt := p }],
  requests := [⟨659, 0, .timeReq, timeReqPkt, 1⟩] }

theorem witness_TimeMessagesMeasureAndSteer :
    Serves (exchanging timeReqPkt {}) 0 opTIME_REQ { ep := 659, pkt := timeReqPkt }
    ∧ (joinedTree (exchanging timeReqPkt { joined := true }) = true ∧ (exchanging timeReqPkt { joined := true }).tstate.t1 = none
      ∧ (exchanging timeReqPkt { joined := true }).tstate.missed < 4 ∧ timeReqPkt.poison = [])
    ∧ (withRegs [(regAddr .hfiNodeId, 3 + 2 ^ 16)]).nodeValid = true
    ∧ (Serves (exchanging (timeRspPkt 7900 7950 7950) { t1 := some 7900, good := 1 }) 0 opTIME_RSP { ep := 659, pkt := timeRspPkt 7900 7950 7950 }
      ∧ (∃ r ∈ (exchanging (timeRspPkt 7900 7950 7950) {}).requests, r.purpose = .timeReq ∧ r.seq = 0)
      ∧ natOf (slice (timeRspPkt 7900 7950 7950).data 24 8) = 0 ∧ (exchanging timeReqPkt {}).isRoot = false
      ∧ (((7900 : Int) - 7950) + (8000 - 7950)).tdiv 2 = 0)
    ∧ (Serves (exchanging (timeRspPkt 7900 7900 7960) { t1 := some 7900, joining := true, joined := true }) 0 opTIME_RSP { ep := 659, pkt := timeRspPkt 7900 7900 7960 }
      ∧ (((7900 : Int) - 7900) + (8000 - 7960)).tdiv 2 = 20)
    ∧ (withRegs [(regAddr .synHcfg 0, 1)]).anyArmed = true ∧ ({} : State).anyArmed = false
    ∧ ({} : State).bit .synTimeStatus 0 1 = false ∧ (withRegs [(regAddr .synTimeStatus, 2)]).bit .synTimeStatus 0 1 = true
    ∧ joinedTree {} = false ∧ (∀ t, (some 0 : Option Nat) = some t → t + 1125000 ≤ 1125000) ∧ (0 : Nat) + 2500000 ≤ 2500000
    ∧ (let s : State := { tstate := { edgeAt := some 0, rose := some 0 }, now := 1124999 }
      s.working = true ∧ s.tstate.edgeAt = some 0 ∧ s.now < 0 + 1125000 ∧ Table.risesFrom 0 s.regs = true)
    ∧ (let s : State := { tstate := { edgeAt := some 0, rose := some 1125000 }, now := 1125124 }
      s.working = true ∧ 0 + 1125000 ≤ s.now ∧ s.now < 1125000 + 125)
    ∧ (let s : State := { tstate := { edgeAt := some 0, rose := some 1125000 }, now := 1125125 }
      s.working = true ∧ 1125000 + 125 ≤ s.now ∧ s.bit .synTimeStatus 0 1 = false)
    ∧ (let s : State := { tstate := { edgeAt := some 0 }, now := 2500000 }
      s.working = true ∧ s.tstate.edgeAt.getD 0 + 2500000 ≤ s.now ∧ s.bit .synTimeStatus 0 2 = false) := by
  unfold Serves; and_intros <;> first | with_reducible exact reset_unarmed | decide +kernel | simp

/-- Window 7 enabled from 512 to 1,791 ticks of step phase, opportunity calibration in it; P4 done. -/
def windowState (phase : Nat) (bits : Nat) : State :=
  { withRegs [(regAddr .synQwin 7, 1 + 2 * 2 ^ 8 + 5 * 2 ^ 32 + 2 ^ 48), (regAddr .brcBootStatus, 4), (regAddr .memPenMap 0, 0)] with
    time := phase, qwins := bits, now := 2000000 }

theorem witness_QuietWindowsAndMemoryUpkeep :
    (bitOf ((windowState 512 0).getReg (regAddr .synQwin 7)).toNat 0 = true ∧ bitOf (windowState 512 0).qwins 7 = false)
    ∧ bitOf (windowState 1792 128).qwins 7 = true
    ∧ (4 ≤ (windowState 512 128).bootPhase ∧ calibrationDue (windowState 512 128) 7 = true
      ∧ nextStack (windowState 512 128) 7 = some 0 ∧ calibrating (windowState 512 128) = false
      ∧ (windowState 512 128).pcPenned 63 = false)
    ∧ (windowState 512 128).working = true
    ∧ (let s : State := { withRegs [(regAddr .memScrub, 1), (regAddr .brcBootStatus, 4)] with now := 256 }
      s.field .memScrub 0 0 0 16 ≠ 0 ∧ Table.get 0 s.scrubAt 511 + 256 * s.field .memScrub 0 0 0 16 ≤ s.now
        ∧ stackCalibrates s (511 / 64) = false ∧ sectorBusy s (576 + 511 / 16) (scrubLpa s 511) 8 false = false
        ∧ ∀ i, i < 8 → s.wrongAt (scrubLpa s 511 + 32 * i) = 0)
    ∧ (Table.get 0 (windowState 512 128).calAt 7 + 1250000 ≤ 1250000)
    ∧ Table.get none ({ fullSince := [(31, some 0)] } : State).fullSince 31 = some 0 := by
  and_intros <;> decide +kernel

/-! ### Register space -/

theorem witness_RegisterSpaceRefusesOutsiders :
    IsRegisterCommand (.hfiTmo (.tile 0) 0) (.tile 0) 0 0 0 false ∧ mayAddress (.tile 0) = false
    ∧ mayAddress (.core 63 true) = false ∧ mayAddress (.core 63 false) = true
    ∧ (Requester.core 63 false ≠ .akm ∧ ∀ p, Requester.core 63 false ≠ .hec p)
    ∧ State.reset.tallyOwnerOff 0 = true ∧ tileOnRegs.tallyOwnerOff 0 = false
    ∧ (withRegs [(regAddr .pfbPenMap 0, 0), (regAddr .aksJob, 7)]).jid ≠ 0 := by
  unfold IsRegisterCommand; and_intros <;> first | decide +kernel | simp

/-- A bit of a written value. -/
def bitWord (k : Nat) : Word := BitVec.ofNat 64 (2 ^ k)

theorem witness_CommitsFollowTheirSafePoints :
    (mayAddress .akm = true ∧ Table.risesFrom 0 tileOnRegs.regs = true ∧ tileOnRegs.tileOn 0 = true
      ∧ bitOf (bitWord 0).toNat 0 = true ∧ bitOf (bitWord 10).toNat 10 = true ∧ bitOf (bitWord 8).toNat 8 = true
      ∧ bitOf (bitWord 4).toNat 4 = true)
    ∧ seqBad 0 tileOnRegs = false ∧ seqBad 0 (tileRuns []) = true ∧ mapBad {} = false
    ∧ ((withRegs [(regAddr .synHcfg 1, 1)]).armed (withRegs [(regAddr .synHcfg 1, 1)]).stepHurdle = true
      ∧ (withRegs [(regAddr .synHcfg 1, 1)]).bit .synQwinCommit 0 1 = false)
    ∧ (({} : State).armed ({} : State).stepHurdle = false ∧ ∀ e ∈ ({} : State).captured, e.1 ∉ qwinAddrs)
    ∧ cutBad ({} : State).getShadow {} = false
    ∧ ((withRegs [(regAddr .prcPmaCommit, 0x20)]).bit .prcPmaCommit 0 5 = true
      ∧ coreNamed (withRegs [(regAddr .prcPmaCommit, 0x20)]) = false
      ∧ coreNamed (withRegs [(regAddr .prcPmaCommit, 0x20), (regAddr .synHcfg 0, 1), (regAddr .synHmap 0 9, 1)]) = true) := by
  and_intros <;> first | decide +kernel | simp

/-- A node that holds an earlier rejected commit and has had another of hurdle 5's group in this tick. -/
def rejectedNow : State :=
  (withRegs [(regAddr .brcCommitReject, 2 ^ 63)]).rejectCommit .synHcommit 0 12 3 2 5

theorem witness_RegisterWritesFollowTheirAccess :
    (mayAddress (.hec 0) = true ∧ aiaFrame (regAddr .synTimeCfg) = none
      ∧ (lookupReg (regAddr .synTimeCfg)).isSome = true ∧ hasOwnEffect .synTimeCfg = false)
    ∧ ((lookupReg (regAddr .tilSeqProg 0)).map (fun r => (r.1.name, r.2.1))) = some (RegName.tilSeqProg, 0)
    ∧ blockOf (regAddr .tilSeqProg 0) = 0 ∧ tileOnRegs.tileOn 0 = true
    ∧ (tileOnRegs.tallyOwnerOff 0 = false ∧ tileOnRegs.jid = 0 ∧ ({} : State).tallyOwnerOff 131071 = false)
    ∧ Table.risesFrom 0 ({} : State).cores = true ∧ ({} : State).hec.ring.length < 4096
    ∧ 4096 ≤ (List.replicate 4096 (⟨0, 0, 1, 0, [], false⟩ : Event)).length
    ∧ bitOf (bitWord 16).toNat 16 = true
    ∧ (({} : State).inPennedBlock (regAddr .synTimeCfg) = false ∧ Table.risesFrom 0 ({} : State).shadow = true)
    ∧ (((tileRuns [] { excAt := 1, excSeen := [(17, 12, 5, 0)] }).tile 0).excAt = 0 + 1
      ∧ (∃ x ∈ ((tileRuns [] { excAt := 1, excSeen := [(17, 12, 5, 0)] }).tile 0).excSeen, x.1 < 18))
    ∧ (bitOf (Table.get 0 rejectedNow.raised (regAddr .brcCommitReject)) 63 = true
      ∧ rejectedNow.bit .brcCommitReject 0 63 = true ∧ rejectedNow.brc.rejection ≠ rejectedNow.getReg (regAddr .brcCommitReject)
      ∧ hasOwnEffect .brcCommitReject = false ∧ aiaFrame (regAddr .brcCommitReject) = none) := by
  and_intros <;> decide +kernel

/-! ### Holtim -/

/-- A node with port 15 trained and assigned to plane 15. -/
def portState (x : Port) : State := { withRegs [(regAddr .hfiNodeId, 3 + 2 ^ 16)] with ports := [(15, x)] }

/-- A request that has waited in port 15 since tick 0. -/
def portReq (sent : Option Nat) : PortReq := { tag := 65535, ep := 0, seq := 4, node := 9, sentAt := sent, limit := 1250, pkt := reqPkt opWR 0 0 }

/-- A Holtim frame of zeros with its CRC. -/
def goodHoltim : List Byte := zeros 1272 ++ bytesOf 8 (crc64 (zeros 1272))

theorem witness_HoltimLinksComeUpAndGoDown :
    (Table.risesFrom 0 (portState { trained := true }).regs = true ∧ portUsable (portState { trained := true }) 15 = true
      ∧ (portState { trained := true }).nodeValid = true ∧ (portState { trained := true }).nodeId = 3)
    ∧ portUsable (withRegs [(regAddr .hfiPortStatus 15, 4)]) 15 = false
    ∧ (({} : State).port 15).trained = false ∧ ({} : State).brc.tapDrive = false
    ∧ 5 ≤ (withRegs [(regAddr .brcBootStatus, 5)]).bootPhase
    ∧ ((portState { trained := true, reqs := [portReq none, portReq (some 0)] }).port 15).trained = true := by
  and_intros <;> decide +kernel

theorem witness_HoltimFramesRequestsAndTimeouts :
    (goodHoltim.length = 1280 ∧ crc64 (goodHoltim.take 1272) = natOf (slice goodHoltim 1272 8)
      ∧ natOf (slice goodHoltim 1161 2) % 4096 = 0)
    ∧ (1 :: zeros 1279).length = 1280 ∧ crc64 ((1 :: zeros 1279).take 1272) ≠ natOf (slice (1 :: zeros 1279) 1272 8)
    ∧ goodArrival (portState {}) { opcode := 0x7F } = false
    ∧ windowCheck (portState {}) (reqPkt opRD 0 1) = errNO_WINDOW
    ∧ (goodArrival ((portState {}).setReg (regAddr .hfiWinAttr 0) (BitVec.ofNat 64 (1 + 2 ^ 28 + 2 ^ 32)))
          { reqPkt opRD 0 32 with dstNode := 3, jid := 7, srcNode := 9 } = true
      ∧ windowCheck (withRegs [(regAddr .hfiWinBase 0, 7 * 2 ^ 48), (regAddr .hfiWinAttr 0, 1 + 2 ^ 28 + 2 ^ 32), (regAddr .aksJob, 7)])
          { reqPkt opRD 3072 32 with jid := 7 } = 0
      ∧ windowNoPrefetch {} (reqPkt opRD 3072 32) = false ∧ (({ trained := true } : Port).trained = true))
    ∧ expired { portState { reqs := [portReq (some 0)] } with now := 1250 } 15 65535 = some (portReq (some 0))
    ∧ Table.get none ({ stall := [(7, some 0)] } : Port).stall 7 = some 0 := by
  and_intros <;> decide +kernel

/-! ### Cores -/

/-- Core 0 about to execute a word that stands in commons SRAM, in a node with these registers. -/
def coreIn (regs : List (Nat × Nat)) (w : Nat) (x : Core := {}) : State :=
  ((withRegs regs).setCore 0 { x with held := false, pc := 0x20000000000 }).writeMem commonsBase (bytesOf 4 w)

/-- The same in a node whose region 0 is UNCACHED. -/
def coreAt (w : Nat) (x : Core := {}) : State := coreIn [(regAddr .prcPma 0, 1)] w x

/-- The state its fetch leaves. -/
def fetched (s : State) : State := (fetchInstr 0 s).1.modCore 0 (fun x => { x with wfi := false })

/-- A word of `n` bytes is at the head of core 0. -/
def fetchesIn (s : State) (w n : Nat) : Bool := coreRuns s 0 && decide ((fetchInstr 0 s).2 = .word w n)

def fetches (w : Nat) (x : Core := {}) : Bool := fetchesIn (coreAt w x) w 4

theorem atFetchIn (s : State) (w n : Nat) (h : fetchesIn s w n = true) : AtInstr s (fetched s) 0 w n := by
  rw [fetchesIn, Bool.and_eq_true, decide_eq_true_eq] at h
  exact ⟨h.1, (fetchInstr 0 s).1, by rw [← h.2], rfl⟩

theorem atFetch (w : Nat) (x : Core) (h : fetches w x = true) : AtInstr (coreAt w x) (fetched (coreAt w x)) 0 w 4 :=
  atFetchIn _ _ _ h

theorem runsAs (s : State) (w : Nat) (h : (fetchesIn s w 4 && !customWord w) = true) : RunsAs s (fetched s) 0 w 4 := by
  rw [Bool.and_eq_true, Bool.not_eq_true'] at h
  exact .inl ⟨atFetchIn _ _ _ h.1, h.2, rfl⟩

theorem lineGood_of (u : State) (pa : Nat) (h : (u.lineAt pa).all (fun l => !l.bad) = true) : lineGood u pa := by
  intro l hl
  simpa [hl] using h

/-- An R-type word, an I-type word and a store. -/
def rWord (op f3 f7 rd rs1 rs2 : Nat) : Nat := op + rd * 2 ^ 7 + f3 * 2 ^ 12 + rs1 * 2 ^ 15 + rs2 * 2 ^ 20 + f7 * 2 ^ 25
def iWord (op f3 rd rs1 imm : Nat) : Nat := op + rd * 2 ^ 7 + f3 * 2 ^ 12 + rs1 * 2 ^ 15 + imm * 2 ^ 20
def sWord (op f3 rs1 rs2 : Nat) : Nat := rWord op f3 0 0 rs1 rs2

/-- One word of each row of the base, M, Zb and Zicsr instructions, whose destination is x31 or x0 and whose sources are x1, x2. -/
def riscvWords : List Nat :=
  ([(0, 0), (0x20, 0), (0, 7), (0, 6), (0, 4), (0, 2), (0, 3), (0, 1), (0, 5), (0x20, 5), (1, 0), (1, 1), (1, 4), (1, 6), (1, 7), (0x20, 7),
      (0x10, 4)].flatMap (fun r => [rWord 0x33 r.2 r.1 31 1 2, rWord 0x33 r.2 r.1 0 1 1]))
  ++ [rWord 0x3B 0 0 31 1 2, rWord 0x3B 0 0x20 31 1 2, iWord 0x1B 0 31 1 0xFFF, 0x80008013, 0x7FF08F93, 0xFFFFFFB7, 0xFFFFFF97, 0x800000EF,
    0x100F, 0x2F, 0xF8000FAF]
  ++ [4, 6, 7, 2, 3].map (fun f3 => iWord 0x13 f3 31 1 0x800)
  ++ [iWord 0x13 1 31 1 63, iWord 0x13 5 31 1 63, iWord 0x13 5 31 1 (0x400 + 63), iWord 0x67 0 1 1 0xFFF]
  ++ [0, 1, 4, 5, 6, 7].map (fun f3 => rWord 0x63 f3 0x40 0 1 2)
  ++ [1, 2, 3, 5, 6, 7].map (fun f3 => iWord 0x73 f3 31 1 0x340)

/-- Words of F and D: single and double, add to fused multiply-add. -/
def floatWords : List Nat :=
  [0, 1].flatMap (fun d => [rWord 0x53 0 d 31 1 2, rWord 0x53 0 (4 + d) 31 1 2, rWord 0x53 0 (8 + d) 31 1 2, rWord 0x53 0 (12 + d) 31 1 2,
    rWord 0x53 0 (0x2C + d) 31 1 0, rWord 0x53 1 (0x14 + d) 31 1 2, rWord 0x53 0 (0x68 + d) 31 1 2, rWord 0x53 0 (0x60 + d) 31 1 2,
    rWord 0x53 2 (0x50 + d) 31 1 2, rWord 0x43 0 (3 * 4 + d) 31 1 2])

/-- Each width of load and of store, to and from x1's address. -/
def loadWords : List Nat := [0, 1, 2, 3, 4, 5, 6].map (fun f3 => iWord 0x03 f3 31 1 0) ++ [2, 3].map (fun f3 => iWord 0x07 f3 31 1 0)
def storeWords : List Nat := [0, 1, 2, 3].map (fun f3 => sWord 0x23 f3 1 2) ++ [2, 3].map (fun f3 => sWord 0x27 f3 1 2)

/-- A core with FS Initial, and x1 an address. -/
def withFs (a : Word) : Core := { x := [(1, a), (2, 7)], csr := { mstatus := 2 ^ 13 } }

/-- What an access of core 0 reaches: the state its walk leaves, and the physical address or the exception. -/
def reaches (s : State) (va : Nat) (k : AccessKind) : Option (State × Option Nat × Nat) :=
  (reach 0 va k (fetched s)).map (fun r => (r.1, match r.2 with
    | .ok pa => (some pa, 0)
    | .error e => (none, e)))

/-- A node whose region 0 is SHARED, and one with aperture 15, or in which the first stack calibrates. -/
def sharedRegs : List (Nat × Nat) := [(regAddr .prcPma 0, 2), (regAddr .memPenMap 0, 0)]
def ldWord : Nat := iWord 0x03 3 31 1 0
def sdWord : Nat := sWord 0x23 3 1 2
def cachedAt (l : List (Nat × Option Line)) (w : Nat) : State := { coreIn sharedRegs w (withFs 0x48) with lines := l }
def ownLine : Line := { shared := true, data := zeros 64, mask := 0, writer := 0, holders := [0], l3 := true }
def apertureAt (w : Nat) : State := coreIn [(regAddr .prcAper 15, 2 ^ 24 + 9)] w (withFs (BitVec.ofNat 64 (2 ^ 55 + 15 * 2 ^ 40)))
def registerAt (w : Nat) : State := coreIn [] w (withFs (BitVec.ofNat 64 (regAddr .synTimeCfg)))
def calibratingAt (w : Nat) (x : Core) : State := { coreAt w x with calAt := [(0, 1)], time := 1000 }

/-- A core whose data accesses are those of S mode, with a table at page 0 and PMP entry 0 open to all. -/
def walking : Core := { withFs 0x40 with csr := {
  mstatus := 2 ^ 17 + 2 ^ 13 + 2 ^ 11, satp := 9 * 2 ^ 60, pmpcfg := [(0, 0x1F)], pmpaddr := [(0, 2 ^ 54 - 1)] } }

/-- A core in U mode that PMP entry 0 lets fetch. -/
def userCore : Core := { priv := 0, csr := { pmpcfg := [(0, 0x1F)], pmpaddr := [(0, 2 ^ 54 - 1)] } }

/-- Core 0 waits for the load of x31 that its answer brings. -/
def coreLoadRequest : Request := ⟨608, 0, .coreLoad 0 0x48 ⟨false, 31, 8, true⟩, reqPkt opRD 0x40 1, 1⟩
def coreAnswered (p : Packet) : State :=
  ({ withRegs [(regAddr .memPenMap 0, 0)] with requests := [coreLoadRequest], delivered := [{ ep := 608, pkt := p }] } : State).setCore 0
    { wait := some .load }

theorem witness_RiscvInstructionsRetire :
    (∀ w ∈ riscvWords ++ floatWords, RunsAs (coreAt w) (fetched (coreAt w)) 0 w 4)
    ∧ (∀ w ∈ floatWords ++ loadWords ++ storeWords,
        RunsAs (coreAt w (withFs 0x20000000020)) (fetched (coreAt w (withFs 0x20000000020))) 0 w 4)
    ∧ (Table.risesFrom 0 (coreAt 0).cores = true ∧ (coreAt 0).wrong = [] ∧ (coreAt 0).lines = [])
    ∧ ((fetched (coreAt (rWord 0x33 4 1 31 1 2) { x := [(2, 5)] })).core 0).getX 2 ≠ 0
    ∧ ((fetched (coreAt (rWord 0x33 4 1 31 1 2))).core 0).getX 2 = 0
    ∧ (fetchesIn (coreIn [] 0x00010085) 0x85 2 = true ∧ (expandC 0x85).isSome = true)
    ∧ (fetchesIn (coreAt (iWord 0x73 1 31 1 0x340) userCore) (iWord 0x73 1 31 1 0x340) 4 = true)
    ∧ ((fetched (coreAt 0 (withFs 0))).core 0).fs ≠ 0
    ∧ (IsLoad (withFs 0) ldWord ⟨false, 31, 8, true⟩ ∧ IsLoad (withFs 0) (iWord 0x03 6 31 1 0) ⟨false, 31, 4, false⟩
      ∧ IsLoad (withFs 0) (iWord 0x07 2 31 1 0) ⟨true, 31, 4, false⟩)
    ∧ (0x20000000021 % 2 ≠ 0 ∧ 0x20000000020 % 8 = 0)
    ∧ (reaches (calibratingAt ldWord walking) 0x40 .load).isNone = true
    ∧ (reaches (calibratingAt sdWord walking) 0x40 .store).isNone = true
    ∧ ((reaches (coreAt ldWord) 0x40000000 .load).map (·.2)) = some (none, 5)
    ∧ ((reaches (coreAt sdWord) 0x40000000 .store).map (·.2)) = some (none, 7)
    ∧ (reaches (coreAt ldWord (withFs 0x20000000020)) 0x20000000020 .load).any (fun r => decide (r.2.1 = some 0x20000000020)
        && decide (r.1.attrOf 0x20000000020 = .uncached) && !r.1.loadWaits 0x20000000020 && decide (r.1.readCode 0x20000000020 = 0)
        && decide (r.1.wrongAt 0x20000000020 = 0) && (r.1.lineAt 0x20000000020).isNone && Table.risesFrom 0 r.1.cores) = true
    ∧ (reaches { coreAt ldWord (withFs 0x20000000020) with poison := [(0x20000000020 / 32, true)] } 0x20000000020 .load).any (fun r =>
        decide (r.2.1 = some 0x20000000020) && !r.1.loadWaits 0x20000000020 && decide (r.1.readCode 0x20000000020 ≠ 0)) = true
    ∧ (reaches (calibratingAt ldWord (withFs 0x40)) 0x40 .load).any (fun r => decide (r.2.1 = some 0x40) && r.1.loadWaits 0x40) = true
    ∧ (reaches (cachedAt [(1, some ownLine)] ldWord) 0x48 .load).any (fun r => decide (r.2.1 = some 0x48) && (r.1.attrOf 0x48).cached
        && decide (r.1.lineAt 0x48 = some ownLine) && !r.1.stale 0x48 && ownLine.holders.elem 0 && decide (ownLine.data.length = 64)) = true
    ∧ (reaches (cachedAt [] ldWord) 0x48 .load).any (fun r => decide (r.2.1 = some 0x48) && (r.1.attrOf 0x48).cached
        && (r.1.lineAt 0x48).isNone && !r.1.fillWaits 0x48 && decide (r.1.fillCode 0x48 = 0) && decide (r.1.wrongAt 0x40 = 0)
        && decide (r.1.wrongAt 0x60 = 0) && Table.risesFrom 0 r.1.lines) = true
    ∧ (reaches (apertureAt ldWord) (2 ^ 55 + 15 * 2 ^ 40) .load).any (fun r => decide (r.2.1 = some (2 ^ 55 + 15 * 2 ^ 40))
        && decide (r.1.attrOf (2 ^ 55 + 15 * 2 ^ 40) = .aperture 15)) = true
    ∧ (reaches (registerAt ldWord) (regAddr .synTimeCfg) .load).any (fun r => decide (r.2.1 = some (regAddr .synTimeCfg))
        && decide (r.1.attrOf (regAddr .synTimeCfg) = .io) && decide (aiaFrame (regAddr .synTimeCfg) = none)
        && decide ((fetchRegister (.core 0 false) (regAddr .synTimeCfg) r.1).answer.1 = 0)) = true
    ∧ (reaches (coreAt sdWord (withFs 0x20000000020)) 0x20000000020 .store).any (fun r => decide (r.2.1 = some 0x20000000020)
        && decide (r.1.attrOf 0x20000000020 = .uncached) && !r.1.storeWaits 0x20000000020 && !r.1.portWaits 0x20000000020 1 true
        && decide (r.1.writeCode 0x20000000020 8 = 0) && decide (r.1.wrongAt 0x20000000020 = 0)
        && decide (placeOf 0x20000000020 = .commons)) = true
    ∧ (reaches { coreAt sdWord (withFs 0x20000000020) with poison := [(0x20000000020 / 32, true)] } 0x20000000020 .store).any (fun r =>
        decide (r.2.1 = some 0x20000000020) && decide (r.1.writeCode 0x20000000020 8 ≠ 0) && decide ((r.1.core 0).posted = none)) = true
    ∧ (reaches (cachedAt [(1, some ownLine)] sdWord) 0x48 .store).any (fun r => decide (r.2.1 = some 0x48) && (r.1.attrOf 0x48).cached
        && (r.1.lineAt 0x48).all (fun l => !l.bad) && !r.1.fillWaits 0x48 && !r.1.stale 0x48) = true
    ∧ (reaches (cachedAt [] sdWord) 0x48 .store).any (fun r => decide (r.2.1 = some 0x48) && (r.1.lineAt 0x48).isNone
        && !r.1.fillWaits 0x48 && decide (r.1.fillCode 0x48 = 0) && !r.1.stale 0x48) = true
    ∧ (reaches (apertureAt sdWord) (2 ^ 55 + 15 * 2 ^ 40) .store).any (fun r => decide (r.2.1 = some (2 ^ 55 + 15 * 2 ^ 40))) = true
    ∧ (reaches (registerAt sdWord) (regAddr .synTimeCfg) .store).any (fun r => decide (r.2.1 = some (regAddr .synTimeCfg))
        && decide ((writeRegister (.core 0 false) (regAddr .synTimeCfg) 7 r.1).answer.1 = 0)) = true
    ∧ (((coreAt 0).core 0).dataPriv = 3 ∧ (walking.dataPriv = 1))
    ∧ (Matches (coreAnswered (rspPkt opRDATA 0 1)) 0 opRDATA { ep := 608, pkt := rspPkt opRDATA 0 1 } coreLoadRequest
      ∧ Matches (coreAnswered (rspPkt opERR 8 0)) 0 opERR { ep := 608, pkt := rspPkt opERR 8 0 } coreLoadRequest
      ∧ (coreAnswered (rspPkt opERR 8 0)).corePenned 0 = false ∧ ((coreAnswered (rspPkt opERR 8 0)).core 0).wait = some .load)
    ∧ (∀ h ∈ [0x85, 0x4085, 0x808A, 0x908A, 0x6082, 0xE000], (expandC h).isSome = true) := by
  have h : (riscvWords ++ floatWords).all (fun w => fetchesIn (coreAt w) w 4 && !customWord w) = true := by decide +kernel
  have g : (floatWords ++ loadWords ++ storeWords).all
      (fun w => fetchesIn (coreAt w (withFs 0x20000000020)) w 4 && !customWord w) = true := by decide +kernel
  unfold Matches IsLoad
  refine ⟨fun w hw => runsAs _ _ (List.all_eq_true.mp h w hw), fun w hw => runsAs _ _ (List.all_eq_true.mp g w hw), ?_⟩
  and_intros <;>
    first
      | decide +kernel
      | exact Or.inl ⟨by decide +kernel, 3, by decide +kernel⟩
      | exact Or.inl ⟨by decide +kernel, 2, by decide +kernel⟩

/-- Core 0 with the machine timer interrupt enabled and pending. -/
def timerState (x : Core) : State :=
  { (withRegs [(regAddr .prcMtimecmp 0, 9)]).setCore 0 { x with held := false } with time := 9 }

theorem witness_TrapsSaveAndRestoreTheCore :
    AtInstr (coreAt 0x73) (fetched (coreAt 0x73)) 0 0x73 4
    ∧ (AtInstr (coreAt 0x30200073) (fetched (coreAt 0x30200073)) 0 0x30200073 4
      ∧ ((fetched (coreAt 0x30200073)).core 0).priv = 3)
    ∧ ((timerState { csr := { mstatus := 8, mie := 128 } }).takable 0 = some 7
      ∧ ((timerState { csr := { mstatus := 8, mie := 128 } }).core 0).wait = none)
    ∧ (timerState { csr := { mstatus := 8, mie := 128 }, wait := some (.hurdle 5) }).takable 0 = some 7
    ∧ (tallyWaitReady 576 (timerState { csr := { mstatus := 8, mie := 128 }, wait := some (.hurdle 5) }) = false
      ∧ releaseDue 5 (timerState { csr := { mstatus := 8, mie := 128 }, wait := some (.hurdle 5) }) = false)
    ∧ (tallyWaitReady 576 { timerState { csr := { mstatus := 8, mie := 128 }, wait := some (.tally 191 1) } with
          tallies := [(110592 + 191, ⟨1, false⟩)] } = true
      ∧ (timerState { csr := { mstatus := 8, mie := 128 }, wait := some (.tally 191 1) }).takable 0 = some 7)
    ∧ (timerState {}).takable 0 = none
    ∧ ((timerState { posted := some 0x40 }).core 0).posted = some 0x40
    ∧ (((timerState { wfi := true }).getReg (regAddr .prcMtimecmp 0)).toNat ≤ 9 ∧ bitOf (128 : Nat) 7 = true) := by
  refine ⟨atFetch _ _ ?_, ⟨atFetch _ _ ?_, ?_⟩, ?_, ?_, ?_, ?_, ?_, ?_, ?_⟩ <;> decide +kernel

/-- A custom-2 word: function 4 of a sync or atomic operation of core 0, with rs1 = x1 and rs2 = x2. -/
def syncWord (f7 rd : Nat) : Nat := rWord 0x5B 4 f7 rd 1 2

/-- x1 and x2. -/
def withX (a b : Word) : Core := { x := [(1, a), (2, b)] }

/-- A node whose core 0 alone holds the SHARED line 0x40, dirty or clean. -/
def holdsLine (dirty : Bool) : State :=
  { withRegs [(regAddr .prcPma 0, 2), (regAddr .memPenMap 0, 0)] with
    lines := [(1, some { shared := true, data := zeros 64, mask := if dirty then 1 else 0, writer := 0, holders := [0], l3 := true })] }

theorem witness_CoreSyncAtomicsAndSpeculation :
    (AtInstr (coreAt (syncWord 0 0) (withX 5 7)) (fetched (coreAt (syncWord 0 0) (withX 5 7))) 0 (syncWord 0 0) 4
      ∧ iOp (syncWord 0 0) = 0x5B ∧ iF3 (syncWord 0 0) = 4 ∧ iRd (syncWord 0 0) = 0
      ∧ postedBy (fetched (coreAt (syncWord 0 0) (withX 5 7))) 0 = false)
    ∧ postedBy { requests := [⟨608, 0, .coreWrite 0 8, {}, 1⟩] } 0 = true
    ∧ AtInstr (coreAt (syncWord 2 0) (withX 191 1)) (fetched (coreAt (syncWord 2 0) (withX 191 1))) 0 (syncWord 2 0) 4
    ∧ AtInstr (coreAt (syncWord 2 0) (withX 192 1)) (fetched (coreAt (syncWord 2 0) (withX 192 1))) 0 (syncWord 2 0) 4
    ∧ AtInstr (coreAt (syncWord 7 0)) (fetched (coreAt (syncWord 7 0))) 0 (syncWord 7 0) 4
    ∧ (AtInstr (coreAt (syncWord 6 0x1D) (withX 0x20000000018 1)) (fetched (coreAt (syncWord 6 0x1D) (withX 0x20000000018 1))) 0 (syncWord 6 0x1D) 4
      ∧ (reaches (coreAt (syncWord 6 0x1D)) 0x20000000018 .store).map (·.2) = some (some 0x20000000018, 0)
      ∧ (fetched (coreAt (syncWord 6 0x1D))).routeCode opATOM 0x20000000018 = 0
      ∧ (fetched (coreAt (syncWord 6 0x1D))).attrOf 0x20000000018 = .uncached
      ∧ (fetched (coreAt (syncWord 6 0x1D))).readCode 0x20000000018 = 0 ∧ placeOf 0x20000000018 = .commons)
    ∧ placeOf (sramBase 0) = .sram 0 0
    ∧ ((withRegs [(regAddr .prcAper 15, 2 ^ 24)]).attrOf (2 ^ 55 + 15 * 2 ^ 40) = .aperture 15)
    ∧ ((withRegs [(regAddr .prcPma 0, 2)]).attrOf 0x40 = .shared ∧ (withRegs [(regAddr .prcPma 0, 2)]).lineAt 0x40 = none
      ∧ (withRegs [(regAddr .prcPma 0, 2), (regAddr .memPenMap 0, 0)]).fillCode 0x40 = 0
      ∧ (withRegs [(regAddr .prcPma 0, 2), (regAddr .memPenMap 0, 0)]).fillWaits 0x40 = false)
    ∧ (AtInstr (coreAt (syncWord 4 0) { x := [(1, 5)], pendingH := [(5, true)] }) (fetched (coreAt (syncWord 4 0) { x := [(1, 5)], pendingH := [(5, true)] })) 0 (syncWord 4 0) 4
      ∧ Table.get false ({ pendingH := [(5, true)] } : Core).pendingH 5 = true)
    ∧ (let t := fetched (coreAt (syncWord 6 0x1D) (withX 0x20000000018 1))
      t.snap = [] ∧ t.portWaits 0x20000000000 1 true = false ∧ atomicWaits t 0x20000000018 = false
        ∧ (t.core 0).posted = none ∧ t.wrongAt 0x20000000018 = 0)
    ∧ (fetchesIn (calibratingAt (syncWord 6 0x1D) walking) (syncWord 6 0x1D) 4 = true
      ∧ (reaches (calibratingAt (syncWord 6 0x1D) walking) 0x40 .store).isNone = true
      ∧ (reaches (coreAt (syncWord 6 0x1D)) 0x40000000 .store).map (·.2) = some (none, 7)
      ∧ atomicWaits { fetched (coreAt (syncWord 6 0x1D)) with delivered := List.replicate 256 { ep := 576, pkt := reqPkt opRD 0 1 } } 0x8 = true)
    ∧ (readsAhead { holdsLine true with akm := { frozen := true } } 0 = false ∧ (0x40 : Word).toNat < 2 ^ 63
      ∧ readsAhead (holdsLine true |>.setCore 0 { held := false }) 0 = true)
    ∧ (({} : State).attrOf 0x20000000018 = .uncached ∧ placeOf 0x20000000018 = .commons ∧ ({} : State).memWf = true
      ∧ ({} : State).poisoned 0x20000000000 = false ∧ lineGood {} 0x20000000018)
    ∧ (cleaning {} 0 = false ∧ cleaning { requests := [⟨608, 0, .coreClean 0 64, {}, 1⟩] } 0 = true
      ∧ Table.risesFrom 0 ({} : State).lines = true)
    ∧ (∀ d : Bool, ((holdsLine d).attrOf 0x40).cached = true ∧ ((holdsLine d).lineAt 0x40).map (·.dirty) = some d
      ∧ ((holdsLine d).lineAt 0x40).map (fun l => (l.holders, l.writer)) = some ([0], 0)
      ∧ Table.risesFrom 0 (holdsLine d).lines = true ∧ (holdsLine d).sectorDenied 0x40 = 0 ∧ (holdsLine d).sectorDenied 0x60 = 0
      ∧ (holdsLine d).portWaits 0x40 1 true = false ∧ (holdsLine d).portWaits 0x60 1 true = false
      ∧ (holdsLine d).portWaits 0x40 2 false = false ∧ (holdsLine d).fillCode 0x40 = 0
      ∧ (holdsLine d).marked 0 = false ∧ (holdsLine d).unitOn 1 0 = true ∧ (holdsLine d).penIsDue 1 0 = false) := by
  refine ⟨⟨atFetch _ _ ?_, ?_⟩, ?_, atFetch _ _ ?_, atFetch _ _ ?_, atFetch _ _ ?_, ⟨atFetch _ _ ?_, ?_⟩, ?_, ?_, ?_, ⟨atFetch _ _ ?_, ?_⟩, ?_,
    ?_, ?_, ⟨?_, ?_, ?_, ?_, lineGood_of _ _ ?_⟩, ?_, ?_⟩ <;> decide +kernel

/-! ### LVX -/

/-- A core with FS Initial, SEW 32, one register in a group, vl 8; x1 an address in commons SRAM, x2 a stride. -/
def lvxCore : Core :=
  { csr := { mstatus := 0x2000 }, sew := 2, vl := 8, v := [(1, 0x3F80000040000000), (2, 2 ^ 1024 - 1), (3, 12 * 2 ^ 32)],
    x := [(1, 0x20000001000), (2, 4)], p := [(1, 2 ^ 7)] }

/-- An LVX arithmetic word from v1 and v2: OP, long or short form, operand 2 scalar, destination, predicate; MOVE has no
vs1, FSQRT no vs2, and FCVT and FSQRT no scalar form. -/
def arithWord (op long imm rd pd : Nat) : Nat :=
  0x0B + rd * 2 ^ 7 + pd * 2 ^ 12 + (if op = 0x12 then 0 else 2 ^ 15) + (if op = 0x1C then 0 else 2 * 2 ^ 20) + long * 2 ^ 25
    + op * 2 ^ 26 + (if op = 0x13 ∨ op = 0x1C then 0 else imm * 2 ^ 31)

/-- An LVX memory word at x1 with x2 (or v2): MOP, long or short form, predicate, data register, register 2. -/
def vmemWord (mop long pd rd r2 : Nat) : Nat :=
  0x2B + rd * 2 ^ 7 + 2 ^ 15 + r2 * 2 ^ 20 + pd * 2 ^ 25 + long * 2 ^ 28 + mop * 2 ^ 29

/-- Of each OP a word whose form is legal, both forms, vector and scalar operand 2. -/
theorem witness_LvxArithmeticAndIntegerResults :
    (LvxArithCommand (.lvxAdd 0) 0 0 ∧ LvxArithCommand (.lvxFcmple 0) 0 0x1F)
    ∧ (∀ op, op < 32 → ∀ w ∈ [arithWord op 1 0 6 1, arithWord op 0 1 6 0],
      AtInstr (coreAt w lvxCore) (fetched (coreAt w lvxCore)) 0 w 4 ∧ isArith op w = true
      ∧ arithIllegal ((fetched (coreAt w lvxCore)).core 0) (lvxKind op) w = false)
    ∧ lvxCore.sew < 4 ∧ Table.risesFrom 0 lvxCore.v = true ∧ Table.risesFrom 0 lvxCore.p = true
    ∧ (AtInstr (coreAt (arithWord 0 1 0 6 1)) (fetched (coreAt (arithWord 0 1 0 6 1))) 0 (arithWord 0 1 0 6 1) 4
      ∧ arithIllegal ((fetched (coreAt (arithWord 0 1 0 6 1))).core 0) (lvxKind 0) (arithWord 0 1 0 6 1) = true)
    ∧ (0 < 64 ∧ 2 ^ 64 - 1 < 2 ^ 64 ∧ 2 ^ 63 < 2 ^ 64) := by
  have h : (List.range 32).all (fun op => [arithWord op 1 0 6 1, arithWord op 0 1 6 0].all (fun w =>
      fetches w lvxCore && isArith op w && !arithIllegal ((fetched (coreAt w lvxCore)).core 0) (lvxKind op) w)) = true := by
    decide +kernel
  refine ⟨by simp [LvxArithCommand], fun op ho w hw => ?_, ?_, ?_, ?_, ⟨atFetch _ _ ?_, ?_⟩, ?_⟩
  · have := List.all_eq_true.mp (List.all_eq_true.mp h op (List.mem_range.mpr ho)) w hw
    simp only [Bool.and_eq_true, Bool.not_eq_true'] at this
    exact ⟨atFetch _ _ this.1.1, this.1.2, this.2⟩
  all_goals decide +kernel

/-- An element of a vector memory word of core 0 that lies in readable uncached memory outside SRAM. -/
def plainAt (x : Core) (w mop e : Nat) : Bool :=
  let t := fetched (coreAt w x)
  let y := t.core 0
  let a := vAddress y mop w e
  decide (a % (y.sewBits / 8) = 0) && decide ((translate t 0 a (if mop < 4 then .load else .store)).toOption = some a)
    && decide (t.attrOf a = .uncached) && decide (t.readCode a = 0) && decide (t.writeCode a (y.sewBits / 8) = 0)
    && decide (placeOf a = .commons) && !t.portWaits (a / 32 * 32) 1 (decide (4 ≤ mop)) && decide (t.wrongAt a = 0)
    && (t.lineAt a).all (fun l => !l.bad)

/-- What a vector memory word of core 0 needs beside its elements to run. -/
def vmemRuns (x : Core) (w mop : Nat) : Bool :=
  let t := fetched (coreAt w x)
  let y := t.core 0
  fetches w x && isVMem mop w && !vMemIllegal y mop w && decide (t.takable 0 = none) && !vLoading t 0 && decide (y.loadErr = none)
    && decide (y.sew < 4) && Table.risesFrom 0 y.v && Table.risesFrom 0 t.cores && decide (t.snap = []) && decide (y.priv = 3)
    && decide (y.ms 17 1 = 0) && t.memWf && !vWaits t 0 (if mop < 4 then .load else .store) (vAddress y mop w) (vElems y w)
    && decide (vReach t 0 (if mop < 4 then .load else .store) (vAddress y mop w) (vElems y w) = some t)
    && decide (y.vl ≤ 1024 * 2 ^ y.group / y.sewBits)

/-- The lvxCore whose offsets in v4 are 0 and 4. -/
def gatherCore : Core := { lvxCore with v := [(4, 4 * 2 ^ 32)], vl := 2 }

/-- The lvxCore with another address in x1 and another p1. -/
def edgeCore (x1 : Nat) (p : Nat := 0) : Core := { lvxCore with x := [(1, BitVec.ofNat 64 x1), (2, 4)], p := [(1, p)] }

/-- The state the fetch of a vector memory word leaves while the first stack, with the page table of page 0, calibrates. -/
def slowFetched (x : Core) (m : Nat) : State := fetched (calibratingAt (vmemWord m 1 0 3 2) x)
def walkingLvx : Core := { walking with sew := 2, vl := 1 }

theorem witness_LvxMemoryAccessesItsElements :
    (∀ m ∈ [0, 1, 4, 5], ∀ f ∈ [0, 1], vmemRuns lvxCore (vmemWord m f 0 3 2) m = true
      ∧ ∀ e ∈ vElems ((fetched (coreAt (vmemWord m f 0 3 2) lvxCore)).core 0) (vmemWord m f 0 3 2),
          plainAt lvxCore (vmemWord m f 0 3 2) m e = true)
    ∧ (∀ m ∈ [3, 6], vmemRuns gatherCore (vmemWord m 1 0 3 4) m = true
      ∧ ∀ e ∈ vElems ((fetched (coreAt (vmemWord m 1 0 3 4) gatherCore)).core 0) (vmemWord m 1 0 3 4),
          plainAt gatherCore (vmemWord m 1 0 3 4) m e = true)
    ∧ (∀ m ∈ [0, 1, 3, 4, 5, 6], vmemRuns (edgeCore 0x20000001002) (vmemWord m 1 0 3 2) m = true
      ∧ vFault (fetched (coreAt (vmemWord m 1 0 3 2) (edgeCore 0x20000001002))) 0 4
          (vAddress ((fetched (coreAt (vmemWord m 1 0 3 2) (edgeCore 0x20000001002))).core 0) 0 (vmemWord m 1 0 3 2) 0) .load = some 4)
    ∧ (vmemRuns (edgeCore 0x20000001002 2) (vmemWord 2 1 1 3 2) 2 = true
      ∧ (vElems ((fetched (coreAt (vmemWord 2 1 1 3 2) (edgeCore 0x20000001002 2))).core 0) (vmemWord 2 1 1 3 2)).head? = some 1
      ∧ ffEnds (fetched (coreAt (vmemWord 2 1 1 3 2) (edgeCore 0x20000001002 2))) 0 4 (0x20000001002 + 4) = true)
    ∧ (∀ m ∈ [0, 4], vReach (slowFetched walkingLvx m) 0 (if m < 4 then .load else .store) (fun _ => 0x40) [0] = none
      ∧ vMemIllegal ((slowFetched walkingLvx m).core 0) m (vmemWord m 1 0 3 2) = false
      ∧ vElems ((slowFetched walkingLvx m).core 0) (vmemWord m 1 0 3 2) ≠ [])
    ∧ (∀ m ∈ [0, 4], vReach (slowFetched (edgeCore 0x40) m) 0 (if m < 4 then .load else .store) (fun _ => 0x40) [0]
        = some (slowFetched (edgeCore 0x40) m)
      ∧ (vWaits (slowFetched (edgeCore 0x40) 0) 0 .load (fun _ => 0x40) [0] = true))
    ∧ (∃ i, LvxMemCommand i 0 0 0) ∧ (∃ i, LvxMemCommand i 0 0 6)
    ∧ vMemIllegal {} 0 (vmemWord 0 1 0 3 2) = true := by
  refine ⟨?_, ?_, ?_, ⟨?_, ?_, ?_⟩, ?_, ?_, ⟨.lvxLoadUnit 0 0, ?_⟩, ⟨.lvxStoreIndexed 0 0, ?_⟩, ?_⟩
  all_goals first
    | decide +kernel
    | simp [LvxMemCommand]

/-- A word of a reduction, a predicate operation or LVCFG of core 0. -/
def lvxWord (f3 f7 rd rs1 rs2 : Nat) : Nat := rWord 0x5B f3 f7 rd rs1 rs2

theorem witness_LvxReductionsPredicatesAndConfiguration :
    (∀ op ∈ [0, 1, 2, 3, 4, 8, 9, 10, 11], ∀ w ∈ [lvxWord 2 op 6 1 2, lvxWord 3 (op + 16) 0 1 3],
      AtInstr (coreAt w lvxCore) (fetched (coreAt w lvxCore)) 0 w 4 ∧ isReduction op w = true
      ∧ lvxCore.groupBad (decide (iF3 w = 2)) [iRs2 w] = false)
    ∧ (lvxCore.fs ≠ 0 ∧ Table.risesFrom 0 lvxCore.x = true ∧ 2 ≤ lvxCore.sew ∧ (lvxCore.rm 7).isSome = true
      ∧ Table.risesFrom 0 lvxCore.v = true)
    ∧ lvxCore.actives 0 (lvxCore.formCount true) 2 = []
    ∧ (let x : Core := { lvxCore with sew := 3 }
      2 ≤ x.sew ∧ x.groupBad true [2] = false ∧ x.actives 0 (x.formCount true) 0 ≠ [] ∧ 2 ≤ (x.actives 0 (x.formCount true) 0).length)
    ∧ (∀ op ∈ [0, 1, 2, 3, 4, 5, 6, 7, 8], ∀ w ∈ [lvxWord 1 op 7 1 2, lvxWord 1 op 0 1 2],
      AtInstr (coreAt w lvxCore) (fetched (coreAt w lvxCore)) 0 w 4 ∧ isPredicate op w = true)
    ∧ ((∀ e, e < 8 → bitOf (lvxCore.getP 2) e = false) ∧ bitOf (lvxCore.getP 1) 7 = true
      ∧ ∀ d, d < 7 → bitOf (lvxCore.getP 1) d = false)
    ∧ (∀ f7 ∈ [0, 7], AtInstr (coreAt (lvxWord 0 f7 6 1 0) lvxCore) (fetched (coreAt (lvxWord 0 f7 6 1 0) lvxCore)) 0 (lvxWord 0 f7 6 1 0) 4
      ∧ isLvcfg (lvxWord 0 f7 6 1 0) = true)
    ∧ bitsOf (lvxWord 0 7 6 1 0) 28 4 = 0 ∧ bitsOf (lvxWord 0 8 6 1 0) 28 4 ≠ 0 := by
  have h : [0, 1, 2, 3, 4, 8, 9, 10, 11].all (fun op => [lvxWord 2 op 6 1 2, lvxWord 3 (op + 16) 0 1 3].all (fun w =>
      fetches w lvxCore && isReduction op w && !lvxCore.groupBad (decide (iF3 w = 2)) [iRs2 w])) = true := by decide +kernel
  have k : (List.range 9).all (fun op => [lvxWord 1 op 7 1 2, lvxWord 1 op 0 1 2].all (fun w =>
      fetches w lvxCore && isPredicate op w)) = true := by decide +kernel
  refine ⟨fun op ho w hw => ?_, ?_, ?_, ?_, fun op ho w hw => ?_, ?_, fun f7 hf => ?_, ?_, ?_⟩
  · have := List.all_eq_true.mp (List.all_eq_true.mp h op ho) w hw
    simp only [Bool.and_eq_true, Bool.not_eq_true'] at this
    exact ⟨atFetch _ _ this.1.1, this.1.2, this.2⟩
  · decide +kernel
  · decide +kernel
  · decide +kernel
  · have := List.all_eq_true.mp (List.all_eq_true.mp k op ho) w hw
    rw [Bool.and_eq_true] at this
    exact ⟨atFetch _ _ this.1, this.2⟩
  · decide +kernel
  · have g : [0, 7].all (fun f7 => fetches (lvxWord 0 f7 6 1 0) lvxCore && isLvcfg (lvxWord 0 f7 6 1 0)) = true := by decide +kernel
    have := List.all_eq_true.mp g f7 hf
    rw [Bool.and_eq_true] at this
    exact ⟨atFetch _ _ this.1, this.2⟩
  all_goals decide +kernel

/-! ### The Marionette engines -/

/-- A RUNNING engine 0 whose structure memory holds these words from word `at_` on, in a node whose JID is 0. -/
def engineAt (ws : List Nat) (g : Engine := {}) (at_ : Nat := 0) : State :=
  ((withRegs [(regAddr .akmPenUnits, 0)]).setEngine 0 { g with state := .running }).writeMem (engineBase 0 + 8 * at_)
    (ws.flatMap (bytesOf 8))

/-- A command word: opcode and low bits. -/
def mw (op low : Nat) : Nat := op * 2 ^ 56 + low

/-- An engine that waits for the answer to a read of its own, so that its fence is not done. -/
def engineReading (ws : List Nat) : State := { engineAt ws with requests := [⟨624, 0, .marCopyRead 0 0, {}, 1⟩] }

/-- An engine before a HARR at hurdle 1023, whose pending bit is set, in the tick in which that hurdle is released. -/
def engineInReleaseTick : State :=
  { (engineAt [mw 3 1023] { pendingH := [(1023, true)] }).setReg (regAddr .synHcfg 1023) 1 |>.setReg (regAddr .synHmap 1023 10) 1 with
    hurdles := [(1023, { trel := some 0 })] }

/-- A tally word that carries a credit of 65535 to this node's tally 131071. -/
def fullCredit : Nat := 2 ^ 62 + 131071 * 2 ^ 29 + 65535

/-- A COPY of `n` sectors between two addresses. -/
def copyAt (src dst n sg dg tally : Nat) : State := engineAt [mw 7 (n + sg * 2 ^ 16 + dg * 2 ^ 17), src, dst, tally]

theorem goodEngine (s : State) (e : Nat) (h : s.wrong = []) : EngineGood s e := by
  intro a _ _
  simp [State.wrongAt, h, Table.get]

theorem witness_MarionetteCommandsFollowTheirWords :
    (AtCommand (engineAt [mw 0 0]) 0 0 (mw 0 0) ∧ Table.risesFrom 0 (engineAt [mw 0 0]).regs = true ∧ (engineAt [mw 0 0]).memWf = true)
    ∧ (engineReady (engineAt [] { cmd := 512 }) 0 = true ∧ engineReady (engineAt [mw 10 0]) 0 = true
      ∧ bitsOf (structWord (engineAt [mw 10 0]) 0 0) 56 8 = 10)
    ∧ (AtCommand (engineAt [mw 5 (2 ^ 55)]) 0 5 (mw 5 (2 ^ 55)) ∧ bitsOf (mw 5 (2 ^ 55)) 39 17 ≠ 0)
    ∧ (EngineCommand (.marNop 0) 0 0 ∧ EngineCommand (.stop 0) 0 9)
    ∧ (AtCommand (engineAt [mw 0 0] { cmd := 511 } 511) 0 0 (mw 0 0))
    ∧ (AtCommand (engineAt [mw 2 (2 ^ 39 - 1)]) 0 2 (mw 2 (2 ^ 39 - 1)) ∧ bitsOf (mw 2 (2 ^ 39 - 1)) 39 17 = 0)
    ∧ AtCommand (engineAt [mw 2 (255 * 2 ^ 31)]) 0 2 (mw 2 (255 * 2 ^ 31))
    ∧ (AtCommand (engineReading [mw 3 1023]) 0 3 (mw 3 1023) ∧ engineFence (engineReading [mw 3 1023]) 0 = false)
    ∧ (AtCommand (engineAt [mw 5 1023]) 0 5 (mw 5 1023) ∧ engineFence (engineAt [mw 5 1023]) 0 = true
      ∧ Table.get false ((engineAt [mw 5 1023]).engine 0).pendingH 1023 = false
      ∧ Table.risesFrom 0 ((engineAt [mw 5 1023]).engine 0).pendingH = true ∧ EngineUnreleased (engineAt [mw 5 1023]) 0)
    ∧ (AtCommand engineInReleaseTick 0 3 (mw 3 1023) ∧ engineFence engineInReleaseTick 0 = true
      ∧ releaseDue 1023 engineInReleaseTick = true ∧ engineInReleaseTick.inMap 1023 640 = true
      ∧ (engineInReleaseTick.engine 0).early.elem 1023 = false
      ∧ Table.risesFrom 0 (engineInReleaseTick.engine 0).pendingH = true)
    ∧ (AtCommand (engineAt [mw 3 1023] { pendingH := [(1023, true)] }) 0 3 (mw 3 1023)
      ∧ Table.get false ((engineAt [mw 3 1023] { pendingH := [(1023, true)] }).engine 0).pendingH 1023 = true)
    ∧ (AtCommand (engineAt [mw 5 1023] { pendingH := [(1023, true)] }) 0 5 (mw 5 1023)
      ∧ engineFence (engineAt [mw 5 1023] { pendingH := [(1023, true)] }) 0 = true
      ∧ EngineUnreleased (engineAt [mw 5 1023] { pendingH := [(1023, true)] }) 0)
    ∧ AtCommand (engineAt [mw 4 0]) 0 4 (mw 4 0)
    ∧ (AtCommand (engineAt [mw 6 0, fullCredit]) 0 6 (mw 6 0) ∧ legalTally fullCredit = true ∧ carriesCredit fullCredit = true
      ∧ structWord (engineAt [mw 6 0, fullCredit]) 0 8 = fullCredit)
    ∧ (AtCommand (copyAt 16 0 1 0 0 0) 0 7 (mw 7 1) ∧ legalTally 0 = true)
    ∧ (AtCommand (copyAt 0x30000003000 0x30000200000 65535 0 0 fullCredit) 0 7 (mw 7 65535)
      ∧ ownRun 0 0x30000003000 65535 false ∧ ownRun 0 0x30000200000 65535 false)
    ∧ (AtCommand (copyAt 0x30000003000 0x40 1 0 0 0) 0 7 (mw 7 1) ∧ ¬ ownRun 0 0x40 1 false)
    ∧ ¬ ownRun 0 (0x300005FFFE0 + 32) 1 false
    ∧ AtCommand (engineAt [mw 8 511]) 0 8 (mw 8 511)
    ∧ (AtCommand (engineReading [mw 9 0]) 0 9 (mw 9 0) ∧ engineFence (engineReading [mw 9 0]) 0 = false)
    ∧ (AtCommand (engineAt [mw 9 0]) 0 9 (mw 9 0) ∧ engineFence (engineAt [mw 9 0]) 0 = true
      ∧ Table.risesFrom 0 (engineAt [mw 9 0]).engines = true) := by
  unfold AtCommand ownRun EngineUnreleased
  and_intros <;> first
    | exact no_release_of _ rfl _
    | exact goodEngine _ _ (by decide +kernel)
    | decide +kernel
    | simp [EngineCommand]

/-- A valid descriptor of one joint, one row, one group and one target of one iteration, with a deadline. -/
def smallDesc (delta : Nat) : List Nat :=
  [1 + 2 ^ 11 + 2 ^ 24 + 2 ^ 33 + 2 ^ 41 + 2 ^ 49, 0x3000 + 0x3080 * 2 ^ 21 + 0x3100 * 2 ^ 42, delta, 24 * 0x041041041041, 0, 0, 0, 0, 0, 0,
    6, fullCredit, 100, 0, 0, 0]

/-- An engine about to solve its system 63 by the descriptor. -/
def solveState (d : List Nat) : State :=
  (engineAt [mw 1 63]).writeMem (engineBase 0 + 0x1000 + 128 * 63) (d.flatMap (bytesOf 8))

/-- A solve at its last tick. -/
def ending (bad : Bool) (late : Option (Nat × Nat × Nat) := none) (output : Option (Nat × Bool × List Byte) := none) : State :=
  { engineAt [mw 1 63] { solve := some {
      sys := 63, start := 0, len := 256, deadline := 100, desc := [], phases := [], bad := bad, late := late, flags := 16, loc := 0,
      stateWrites := [], output := output, tally := fullCredit, statusAt := 0x30000200000 } } with time := 255, now := 255 }

theorem witness_SolvesTakeTheirTicksAndFinish :
    (AtCommand (solveState (smallDesc 0x4000)) 0 1 (mw 1 63)
      ∧ descBad (descriptor (solveState (smallDesc 0x4000)) 0 63) = false
      ∧ deltaListBad (solveState (smallDesc 0x4000)) 0 (descriptor (solveState (smallDesc 0x4000)) 0 63) = false
      ∧ bitsOf (dResult (smallDesc 0x4000)) 62 2 ≠ 3)
    ∧ deltaListBad (solveState (smallDesc 0)) 0 (descriptor (solveState (smallDesc 0)) 0 63) = true
    ∧ (descBad (descriptor (solveState []) 0 63) = true ∧ bitsOf (dResult (descriptor (solveState []) 0 63)) 62 2 ≠ 3)
    ∧ bitsOf (dResult (descriptor (solveState ((smallDesc 0x4000).take 11 ++ [3 * 2 ^ 62])) 0 63)) 62 2 = 3
    ∧ ((dDeadline (smallDesc 0x4000) = 100 ∧ (solveState (smallDesc 0x4000)).phase < 100
      ∧ 100 < ({ solveState (smallDesc 0x4000) with time := 101 } : State).phase))
    ∧ ((∃ r, ((ending false).engine 0).solve = some r ∧ ({ ending false with now := 254 } : State).now + 1 < r.start + r.len)
      ∧ (zeros 64).length % 32 = 0)
    ∧ (∃ r, solveEnding (ending true) 0 = some r ∧ r.bad = true)
    ∧ (∃ r, solveEnding (ending false) 0 = some r ∧ r.bad = false ∧ r.flags < 32 ∧ r.flags % 2 = 0 ∧ r.output = none)
    ∧ (solveEnding (ending false (some (0, 0, 0)) (some (0x40, false, zeros 64))) 0).map (fun r => (r.late, r.output)) =
        some (some (0, 0, 0), some (0x40, false, zeros 64))
    ∧ (∃ r, ((ending false).engine 0).solve = some r ∧ r.start + r.len = (ending false).now + 1 ∧ r.deadline ≤ (ending false).phase
      ∧ r.late = none ∧ engineOn (ending false) 0 = true)
    ∧ ((ending false).memWf = true ∧ Table.risesFrom 0 (ending false).regs = true) := by
  unfold AtCommand
  refine ⟨⟨⟨?_, goodEngine _ _ ?_, ?_⟩, ?_⟩, ?_, ?_, ?_, ?_, ⟨⟨_, rfl, ?_⟩, ?_⟩, ⟨_, rfl, ?_⟩, ⟨_, rfl, ?_⟩, ?_, ⟨_, rfl, ?_⟩, ?_⟩ <;> decide +kernel

/-! ### Checkpoints, launch images and restores -/

/-- An SNWR of 32 sectors of data. -/
def snwrPkt (offset window : Nat) : Packet := { reqPkt opSNWR offset 32 (zeros 1024) with cls := clsSNAP, window := window }

/-- A node that takes a launch of one chunk through window 7, with the area at 0; the SNWR came through link 0. -/
def launchNode (l : List (Nat × Nat)) (c : Ckp := {}) : State :=
  { withRegs ((regAddr .ckpLaunchCfg, 1 + 7 * 2 ^ 17) :: l) with ckp := { c with launching := true } }

/-- The launch node with the packet arrived at endpoint 576. -/
def snwrAt (p : Packet) (c : Ckp := {}) : State :=
  { launchNode [(regAddr .memPenMap 0, 0)] c with delivered := [{ ep := 576, pkt := p, via := some (0, 0) }] }

def snwrArrival (p : Packet) : Arrival := { ep := 576, pkt := p, via := some (0, 0) }

theorem witness_SnapshotWritesFillTheLaunchImage :
    (Serves (snwrAt (snwrPkt 0 7)) 0 opSNWR (snwrArrival (snwrPkt 0 7)) ∧ (snwrPkt 0 7).narrow = false ∧ (snwrPkt 0 7).poison = []
      ∧ reserveDenied (snwrAt (snwrPkt 0 7)) (snwrPkt 0 7) = false ∧ heldBy (snwrAt (snwrPkt 0 7)) 576 0 32 = true
      ∧ NoDirtyLine (snwrAt (snwrPkt 0 7)) 0 32
      ∧ (∀ i, i < 32 → (snwrAt (snwrPkt 0 7)).pcPenned ((snwrAt (snwrPkt 0 7)).pcOf (32 * i)).1 = false)
      ∧ launchWindow (snwrAt (snwrPkt 0 7)) = 7 ∧ launchArea (snwrAt (snwrPkt 0 7)) = 0 ∧ launchChunks (snwrAt (snwrPkt 0 7)) = 1
      ∧ (snwrAt (snwrPkt 0 7)).chunkHeld 0 = false)
    ∧ Serves (snwrAt (snwrPkt 0 6)) 0 opSNWR (snwrArrival (snwrPkt 0 6))
    ∧ decide (65536 < bitsOf ((launchNode []).getShadow (regAddr .ckpLaunchCfg)).toNat 0 17) = false
    ∧ 65536 < bitsOf (131071 : Nat) 0 17
    ∧ (Table.risesFrom 0 (launchNode []).regs = true ∧ (launchNode []).chunkHeld 0 = false)
    ∧ ((launchNode [(regAddr .ckpLaunchChild 1, 9 * 2 ^ 48)] { pieces := [(65535, 2 ^ 64 - 1)] }).chunkHeld 65535 = true
      ∧ launchChild (launchNode [(regAddr .ckpLaunchChild 1, 9 * 2 ^ 48)]) 7 ≠ 0
      ∧ bitsOf (7 + 65535 * 2 ^ 3 + 2 ^ 20 : Nat) 3 17 = 65535 ∧ bitsOf (7 + 65535 * 2 ^ 3 + 2 ^ 20 : Nat) 20 17 = 1)
    ∧ ({ launchNode [] with now := chunkTmo (launchNode []) } : State).ckp.progressAt + chunkTmo (launchNode []) ≤ chunkTmo (launchNode [])
    ∧ ({} : State).ckp.launching = false
    ∧ (imageWhole { launchNode [] with now := chunkTmo (launchNode []) } = false ∧ (launchNode []).ckp.relays = []
      ∧ imageWhole (launchNode [] { pieces := [(0, 2 ^ 64 - 1)] }) = true ∧ (launchNode []).akm.frozen = false)
    ∧ (snapWaits (launchNode [] { pieces := [(65535, 2 ^ 64 - 1)] }) (0x10000 * 65535) 2048 = false
      ∧ snapWaits { launchNode [] { pieces := [(0, 2 ^ 64 - 1)] } with calAt := (List.range 8).map (fun k => (k, 1)), time := 1 } 0 2048 = true) := by
  unfold Serves NoDirtyLine; and_intros <;> decide +kernel

/-- A destination: kind 1, stage as given. -/
def dest (stage : Nat) : DestRun := { d := 0, kind := 1, node := 9, window := 3, size := 2 ^ 31, stage := stage }

/-- The fleece of a job of one scope page and one state page, to one destination. -/
def fleeceOf (stage : Nat) (awaited : List (Nat × Nat × Nat) := []) (used : Nat := 1) : Fleece :=
  { step := 4, epoch := 1, jid := 0, scopePages := [7], statePages := 1, reserveUsed := used, dests := [dest stage], awaited := awaited }

/-- A checkpoint engine that holds a fleece; its reserve is the GiB at 1; no pseudo-channel is penned. -/
def fleecing (f : Fleece) (at_ : Nat := 0) (asked : List Nat := []) : State :=
  { withRegs (((List.range 8).map (fun k => (regAddr .memPenMap k, 0))) ++ [(regAddr .ckpCutCfg, 2 ^ 23 + 2 ^ 32)]) with
    ckp := { fleece := some f, copyRequests := asked, shearAt := at_ }, snap := [(7, true)] }

/-- Whether every sector of a page is free of wrong symbols and poison, and on an unpenned pseudo-channel. -/
def cleanPage (s : State) (base : Nat) : Bool := (List.range 2048).all (fun i =>
  decide (s.wrongAt (base + 32 * i) = 0) && !s.poisoned (base + 32 * i) && !s.pcPenned (s.pcOf (base + 32 * i)).1)

theorem witness_CutsKeepAndShearTheirPages :
    ((fleecing (fleeceOf 0)).akm.frozen = false ∧ (fleecing (fleeceOf 0)).memWf = true)
    ∧ (({ ({} : State) with ckp := { quiesce := some 4 } } : State).hec.execs = [] ∧ anyCleaning {} = false
      ∧ anyCleaning { requests := [⟨608, 0, .coreClean 0 64, {}, 1⟩] } = true ∧ policyDests ({} : State) = []
      ∧ ({} : State).bit .ckpCutCfg 0 22 = false ∧ (withRegs [(regAddr .ckpCutCfg, 2 ^ 22)]).bit .ckpCutCfg 0 22 = true)
    ∧ ({} : State).ckp.quiesce = none
    ∧ (snapBusy { ({} : State) with ckp := { quiesce := some 4 } } = false ∧ ({} : State).wrong = []
      ∧ slotUnits (1 + 1) ≤ 2 ^ 31)
    ∧ (copyWaits (fleecing (fleeceOf 0) 0 [7]) (fleeceOf 0) 7 = false
      ∧ copyWaits { fleecing (fleeceOf 0) 0 [7] with calAt := (List.range 8).map (fun k => (k, 1)), time := 1 } (fleeceOf 0) 7 = true
      ∧ fleeceWaits (fleecing (fleeceOf 2)) (fleeceOf 2) 0 = false
      ∧ fleeceWaits { fleecing (fleeceOf 2) with calAt := (List.range 8).map (fun k => (k, 1)), time := 1 } (fleeceOf 2) 0 = true)
    ∧ ((fleecing (fleeceOf 0) 0 [7]).ckp.copyRequests.elem 7 = true ∧ (fleecing (fleeceOf 0)).marked 7 = true
      ∧ Table.risesFrom 0 (fleeceOf 0).copied = true ∧ Table.risesFrom 0 (fleeceOf 0).crcs = true
      ∧ (fleecing (fleeceOf 0)).heldWrites.length + (fleecing (fleeceOf 0)).delivered.length ≤ 255
      ∧ cleanPage (fleecing (fleeceOf 0)) (7 * 0x10000) = true
      ∧ cleanPage (fleecing (fleeceOf 0)) ((fleecing (fleeceOf 0)).reservePage 1) = true)
    ∧ ((fleecing (fleeceOf 0) 0 [7]).ckp.copyRequests = [7] ∧ (fleecing (fleeceOf 0)).ckp.copyRequests = []
      ∧ Table.risesFrom 0 (fleecing (fleeceOf 0)).snap = true ∧ 1 < (fleecing (fleeceOf 0)).reservePages
      ∧ (fleecing (fleeceOf 0 [] 16384)).reservePages ≤ 16384)
    ∧ (fleeceOf 0).live = [dest 0]
    ∧ ((fleeceOf 1 [(2, 0, 1)]).live = [dest 1] ∧ (fleeceOf 1 [(2, 0, 1)]).destAwaits 0 = true)
    ∧ ((fleeceOf 2).live = [dest 2] ∧ directWaiting (fleeceOf 2) = none ∧ (fleeceOf 2).nextPage < (fleeceOf 2).pageCount
      ∧ Table.get none (fleeceOf 2).crcs 0 = none ∧ (fleecing (fleeceOf 2) 1).now < (fleecing (fleeceOf 2) 1).ckp.shearAt
      ∧ (fleecing (fleeceOf 2)).ckp.shearAt ≤ (fleecing (fleeceOf 2)).now ∧ (fleecing (fleeceOf 2)).wrong = []
      ∧ (fleecePage (fleecing (fleeceOf 2)) { fleeceOf 2 with direct := [(7, zeros 32)] } 0).1.length % 32 = 0) := by
  and_intros <;> decide +kernel

/-- A node whose restore list of JID 0 stands at LPA 0. -/
def restoreNode (l : List Byte) : State := ({} : State).writeMem 0 l

/-- A node with a restore in hand. -/
def restoring (r : RestoreRun) : State := { ({} : State) with ckp := { restore := some r } }

theorem witness_RestoresStopCheckAndFinish :
    (mayAddress .akm = true ∧ Table.risesFrom 0 (restoreNode []).regs = true ∧ Table.risesFrom 0 (restoreNode []).tiles = true
      ∧ Table.risesFrom 0 (restoreNode []).cores = true ∧ Table.risesFrom 0 (restoreNode []).engines = true)
    ∧ ((restoreNode []).ckp.restore = none ∧ ({} : State).anyArmed = false ∧ listJid ((restoreNode []).readMem 0 32) = (restoreNode []).jid)
    ∧ (withRegs [(regAddr .synHcfg 0, 1)]).anyArmed = true
    ∧ listJid ((restoreNode (bytesOf 2 1)).readMem 0 32) ≠ (restoreNode (bytesOf 2 1)).jid
    ∧ ((List.range 2).all (fun i => decide (({} : State).wrongAt (1024 + 32 * i) = 0) && !({} : State).poisoned (1024 + 32 * i)) = true
      ∧ 1024 + 64 ≤ 0x7F00000000 ∧ 1024 % 1024 = 0
      ∧ (let s := withRegs ((List.range 8).map (fun k => (regAddr .memPenMap k, 0)))
        (List.range 2).all (fun i => !s.pcPenned (s.pcOf (1024 + 32 * i)).1) = true
          ∧ (readOwn 0 32 s).2 = s ∧ listJid (readOwn 0 32 s).1 = s.jid))
    ∧ bitOf (1 : Word).toNat 0 = true
    ∧ (restoring { bytes := zeros 32 }).akm.frozen = false
    ∧ ({ bytes := zeros 32, fail := some (15, 4095) } : RestoreRun).fail = some (15, 4095)
    ∧ ({ bytes := zeros 32, finished := true } : RestoreRun).fail = none
    ∧ ({ bytes := zeros 32, reading := some (0, 0, 1024) } : RestoreRun).reading.isSome = true
    ∧ (jobOutstanding (restoring { bytes := zeros 32 }) = false ∧ (restoring { bytes := zeros 32 }).awaits isRestoreRead = false
      ∧ structureFault (restoring { bytes := zeros 32 }) 0 (zeros 16 ++ [1] ++ zeros 15) = some 0
      ∧ structureFault (restoring { bytes := zeros 32 }) 0 (bytesOf 2 0 ++ bytesOf 2 1 ++ zeros 28 ++ [8] ++ zeros 31) = some 0
      ∧ structureFault (restoring { bytes := zeros 32 }) 0 (bytesOf 2 0 ++ bytesOf 2 2 ++ zeros 28 ++ zeros 32 ++ [8] ++ zeros 31) = some 1)
    ∧ ((Codec.tilePage.put (({} : Tile).kept, List.replicate 192 {}, 0)).length ≤ pageSize
      ∧ (Codec.corePage.put (({} : Core).kept, List.replicate 192 {})).length ≤ pageSize
      ∧ (Codec.enginePage.put (({} : Engine).kept, List.replicate 256 {})).length ≤ pageSize) := by
  and_intros <;> first | with_reducible exact reset_unarmed | decide +kernel

/-! ### The host -/

/-- A READY node whose Ethernet link 0 (mode 1, MAC 06:05:04:03:02:00) is up, with one session in slot 15. -/
def hostNode (x : Option Session := none) : State :=
  let s := withRegs [(regAddr .brcBootStatus, 5 + 8), (regAddr .hecLinkStatus 0, 3 + 0x060504030200 * 2 ^ 16), (regAddr .hecCfg, 4660)]
  match x with
  | some y => s.setSession 15 (some y)
  | none => s

/-- A session of number 7 with fixed keys on link 0. -/
def someSession : Session := { num := 7, link := 0, hostKey := zeros 32, nodeKey := zeros 32, secret := zeros 64 }

/-- A handshake datagram from the host, whole. -/
def shake (type num : Nat) (body : List Byte) : List Byte := handshakeDatagram type num 0 1 9 body

/-- A handshake whose REPLY has been sent. -/
def replied : Handshake := { link := 0, hid := 9, startAt := 0, num := 7, init := zeros 34, reply := some (zeros 8) }

/-- A CLOSE by the host of session 7, its tag zeros. -/
def closing : List Byte := handshakeDatagram 0x04 7 0 1 9 (bytesOf 4 7 ++ zeros 16)

/-- The clauses in which a body passes the checks of its certificate or of its signature have no concrete witness: what
passes is an opaque value of Config. -/
theorem witness_HandshakesOpenAndCloseSessions :
    (Table.risesFrom 0 (hostNode (some someSession)).hec.sessions = true ∧ Table.risesFrom 0 (hostNode (some someSession)).regs = true)
    ∧ crookOn {} 0 = false ∧ crookOn (hostNode) 0 = true ∧ parseHead hostNode 0 (zeros 32) = none
    ∧ (Table.get [] hostNode.hec.rx 0 = [] ∧ Table.get [] ({ hostNode with hec := { rx := [(0, [shake 1 0 []])] } } : State).hec.rx 0 ≠ []
      ∧ DatagramCommand (.close 0 closing) 4 0 closing)
    ∧ (fragmentOf (handshakeDatagram 4 7 0 2 9 (bytesOf 4 7)) = some (0, 2, 9, bytesOf 4 7)
      ∧ fragmentOf (handshakeDatagram 4 7 1 2 9 (someSession.closeTag 0)) = some (1, 2, 9, someSession.closeTag 0)
      ∧ someSession.closing.2 = [] ∧ ({ someSession with closing := (9, [(0, bytesOf 4 7)]) } : Session).closing.1 ≠ 8
      ∧ bytesOf 4 7 ++ someSession.closeTag 0 = bytesOf 4 someSession.num ++ someSession.closeTag 0)
    ∧ ((parseHead hostNode 0 (shake 1 0 (zeros 34))).isSome = true ∧ ((parseHead hostNode 0 (shake 1 0 (zeros 34))).map (·.num)) = some 0
      ∧ fragmentOf (shake 1 0 (zeros 34)) = some (0, 1, 9, zeros 34))
    ∧ ((parseHead hostNode 0 (shake 1 7 [])).map (·.num)) = some 7
    ∧ fragmentOf (handshakeDatagram 1 0 7 8 65535 [1]) = some (7, 8, 65535, [1])
    ∧ ({ ({} : State) with hec := { lastNum := 0xFFFFFFFF } } : State).hec.lastNum = 0xFFFFFFFF
    ∧ (hostNode.hec.sessions.length < 16 ∧ hostNode.hec.lastNum < 0xFFFFFFFF ∧ hostNode.aks.identity = none
      ∧ handshakeOf hostNode 0 9 = none)
    ∧ initKey hostNode (zeros 33) = none
    ∧ (handshakeOf { hostNode with hec := { handshakes := [replied] } } 0 9 = some replied ∧ replied.reply = some (zeros 8)
      ∧ finishSecret hostNode replied (zeros 8) (zeros 1027) = none ∧ freeSlot (hostNode (some someSession)) = some 0)
    ∧ (parseHead (hostNode (some someSession)) 0 closing).map (·.num) = some 7
    ∧ slotOf (hostNode (some someSession)) 0 7 = some 15 ∧ slotOf hostNode 0 7 = none
    ∧ fragmentOf closing = some (0, 1, 9, bytesOf 4 7 ++ zeros 16)
    ∧ (hostNode (some someSession)).session 15 = some someSession ∧ (hostNode (some someSession)).hec.shears = []
    ∧ (someSession.heardAt + (hostNode (some someSession)).idleTmo ≤ (hostNode (some someSession)).now)
    ∧ (({ hostNode with hec := { handshakes := [replied] } } : State).hec.handshakes[0]? = some replied
      ∧ hostNode.hec.handshakes[0]? = none) := by
  and_intros <;> first | decide +kernel | simp [DatagramCommand]

/-- Whether a link's frames carry a tag, and which addresses the image gives it, are opaque values of Config: of the two
clauses on tags each has its frames, and one of them its link. -/
theorem witness_EthernetLinksAndFrames :
    ((∃ f : List Byte, slice f 12 2 = [0x81, 0]) ∧ (∃ f : List Byte, slice f 12 2 ≠ [0x81, 0])
      ∧ (linkTag hostNode 0 = [] ∨ linkTag hostNode 0 ≠ []))
    ∧ (rxBytes hostNode 0 + (shake 1 0 []).length ≤ 0x1000000 ∧ Table.risesFrom 0 hostNode.hec.rx = true
      ∧ rxBytes { hostNode with hec := { rx := [(0, [[1, 2], [3]])] } } 0 = 3 ∧ 0x1000000 < 0x1000000 + (shake 1 0 []).length)
    ∧ (Table.get [] ({ hostNode with hec := { rx := [(0, [shake 1 0 []])] } } : State).hec.rx 0 = [shake 1 0 []]
      ∧ Table.get [] hostNode.hec.rx 0 = [] ∧ crookOn {} 0 = false)
    ∧ ((hostNode.field .hecLinkStatus 0 0 1 2 ≠ 0 ∧ hostNode.bit .hecLinkStatus 0 0 = true ∧ hostNode.brc.tapDrive = false ∧ 5 ≤ hostNode.bootPhase)
      ∧ (withRegs [(regAddr .hecLinkStatus 3, 2), (regAddr .brcBootStatus, 5)]).bit .hecLinkStatus 3 0 = false
      ∧ (withRegs [(regAddr .hecLinkStatus 3, 2), (regAddr .brcBootStatus, 5)]).field .hecLinkStatus 3 0 1 2 ≠ 0
      ∧ (withRegs [(regAddr .hecLinkStatus 3, 2), (regAddr .brcBootStatus, 5)]).bootPhase = 5)
    ∧ ({} : State).bootPhase < 5
    ∧ (Table.risesFrom 0 (hostNode (some someSession)).regs = true ∧ (hostNode (some someSession)).hec.shears = [])
    ∧ ([2, 0, 0, 0, 0, 0] : List Byte) ≠ macBytes hostNode 0
    ∧ ((linkLocal (macBytes hostNode 0)).length = 16 ∧ (linkAddrs hostNode 0).elem (linkLocal (macBytes hostNode 0)) = true)
    ∧ (crookOn hostNode 0 = true ∧ ((shake 1 0 []).getD 1 0).toNat = 1 ∧ 42 + (shake 1 0 []).length + 0 ≤ 9216)
    ∧ DatagramCommand (.init 0 (shake 1 0 [])) 1 0 (shake 1 0 []) := by
  refine ⟨⟨⟨zeros 12 ++ [0x81, 0], by decide⟩, ⟨[], by decide⟩, Classical.em _⟩, ?_⟩
  and_intros <;> first | decide +kernel | simp [DatagramCommand]

/-- A datagram of session 7 from the host, its sealed part left out: type, SEQ, and the tag's bytes. -/
def headOnly (type seq : Nat) : List Byte := crookHeader type 7 seq 0 0 0 ++ zeros 16

/-- A READ message of one sector in queue 3. -/
def readMessage (step : Nat) : List Byte :=
  bytesOf 1 1 ++ bytesOf 1 3 ++ bytesOf 2 5 ++ bytesOf 4 0 ++ bytesOf 8 0x40 ++ bytesOf 8 1 ++ bytesOf 8 step

/-- That message, with STEP 0, sealed with the session's key as its DATA datagram of SEQ 0. -/
def sealedRead : List Byte := bytesOf 80
  0x550b29293d5829c01af8022391a4107b8e3506758ef5a2d1742aa637ca036073189df3bad3c54e476e6b604d3d45a4cf0000002000000000000000000000000000000000000000000000000700001001

/-- A datagram the node has sent. -/
def sentOnce (times : Nat) : Unacked := { seq := 4, datagram := zeros 48, sentAt := 0, times := times, rider := none }

theorem witness_SessionsDeliverEachMessageOnce :
    (crookOn (hostNode (some someSession)) 0 = true ∧ Table.risesFrom 0 (hostNode (some someSession)).hec.sessions = true
      ∧ Table.risesFrom 0 someSession.queues = true)
    ∧ parseHead hostNode 16 (zeros 48) = none
    ∧ ((parseHead hostNode 16 (headOnly 0x10 255)).isSome = true ∧ (parseHead hostNode 16 sealedRead).isSome = true ∧ slotOf hostNode 0 7 = none
      ∧ slotOf (hostNode (some someSession)) 0 7 = some 15)
    ∧ gcmOpen someSession.hostKey (crookNonce 0 0) (crookHeader 0x10 7 0 0 0 0) (zeros 16) = none
    ∧ gcmOpen someSession.hostKey (crookNonce 0 0) (sealedRead.take 32) (sealedRead.drop 32) = some (readMessage 0)
    ∧ ((hostNode (some someSession)).sink = none ∧ someSession.outbox = [] ∧ someSession.unacked = [] ∧ someSession.early = []
      ∧ someSession.ackn + 1 < 2 ^ 32 ∧ someSession.seq + 1 < 2 ^ 32)
    ∧ (goodHeader hostNode (readMessage 0) = true ∧ goodMessage (parseMessage (readMessage 0)) = true
      ∧ hostNode.fatalHold = false ∧ (parseMessage (readMessage 0)).step = 0)
    ∧ (goodHeader hostNode [] = false)
    ∧ ((parseMessage (readMessage 1)).step = 1 ∧ 1 ≤ (withRegs [(regAddr .synStep, 1)]).stepNo)
    ∧ (withRegs [(regAddr .brcBootStatus, 3 * 8)]).fatalHold = true
    ∧ hostNode.field .hecEvtStatus 0 0 32 32 = 0
    ∧ ([sentOnce 1].find? (fun w => decide (w.seq = 4)) = some (sentOnce 1) ∧ hostNode.now < (sentOnce 1).sentAt + (withRegs [(regAddr .hecCfg, 2 ^ 18)]).rto)
    ∧ ((sentOnce 16).sentAt + hostNode.rto ≤ hostNode.now ∧ 16 ≤ (sentOnce 16).times ∧ (sentOnce 15).times < 16) := by
  and_intros <;> decide +kernel

/-- The node with a message at the head of queue 3 of slot 15. -/
def withMessage (m : Message) (l : List (Nat × Nat) := []) : State :=
  { hostNode (some { someSession with queues := [(3, [m])] }) with
    regs := (l.foldl (fun s r => s.setReg r.1 (BitVec.ofNat 64 r.2)) hostNode).regs }

/-- A message of queue 3. -/
def msg (op addr arg : Nat) (data : List Byte := []) : Message :=
  { op := op, queue := 3, fence := false, tag := 5, addr := addr, arg := arg, step := 0, data := data }

/-- The message m is in queue 3 of slot 15 and may begin. -/
def messageReady (m : Message) (l : List (Nat × Nat) := []) : Bool :=
  let s := withMessage m l
  let x : Session := { someSession with queues := [(3, [m])] }
  decide (s.session 15 = some x) && mayBegin s x m

theorem messageAt_of_ready (m : Message) (l : List (Nat × Nat)) (h : messageReady m l = true) :
    MessageAt (withMessage m l) 15 3 { someSession with queues := [(3, [m])] } m [] := by
  rw [messageReady, Bool.and_eq_true, decide_eq_true_eq] at h
  exact ⟨h.1, rfl, by decide, by rfl, rfl, rfl, Nat.le_of_ble_eq_true rfl, Nat.le_of_ble_eq_true rfl⟩

/-- A message that is ready may begin. -/
theorem mayBegin_of_ready (m : Message) (l : List (Nat × Nat)) (h : messageReady m l = true) :
    mayBegin (withMessage m l) { someSession with queues := [(3, [m])] } m = true := by
  rw [messageReady, Bool.and_eq_true] at h
  exact h.2

theorem witness_MessagesReachMemoryAndRegisters :
    (MessageCommand (.readMsg 15 3) 0x01 15 3 ∧ MessageCommand (.eventSink 15 3) 0x0E 15 3)
    ∧ (∀ op ∈ [0x01, 0x02, 0x03, 0x04, 0x05, 0x07, 0x08],
      MessageAt (withMessage (msg op 0 1)) 15 3 { someSession with queues := [(3, [msg op 0 1])] } (msg op 0 1) [])
    ∧ (MessageAt (withMessage (msg 1 0 1) [(regAddr .brcBootStatus, 3 * 8)]) 15 3 { someSession with queues := [(3, [msg 1 0 1])] } (msg 1 0 1) []
      ∧ (withMessage (msg 1 0 1) [(regAddr .brcBootStatus, 3 * 8)]).fatalHold = true)
    ∧ (∀ op ∈ [0x01, 0x02, 0x03, 0x04, 0x05, 0x07, 0x08],
      mayBegin (withMessage (msg op 0 1)) { someSession with queues := [(3, [msg op 0 1])] } (msg op 0 1) = true)
    ∧ mayBegin (withMessage { msg 1 0 1 with step := 1 }) { someSession with queues := [(3, [{ msg 1 0 1 with step := 1 }])] }
        { msg 1 0 1 with step := 1 } = false
    ∧ (({ msg 1 0 1 with step := 1 } : Message).opened = false ∧ ({ msg 1 0 1 with step := 1, opened := true } : Message).step ≠ 0
      ∧ messageReady { msg 1 0 1 with step := 1, opened := true } = true)
    ∧ launchChunks hostNode * 65536 ≤ (msg 7 0 0).addr
    ∧ (hostNode.session 15 = none ∧ Table.get [] someSession.queues 3 = [])
    ∧ (withMessage (msg 1 0 1)).fatalHold = false
    ∧ (Table.risesFrom 0 (withMessage (msg 8 0 1)).akm.dumpRead = true)
    ∧ (messageReady (msg 2 0x40 fullCredit (zeros 1024)) = true ∧ 32 ≤ (msg 2 0x40 fullCredit (zeros 1024)).data.length)
    ∧ launchChunks hostNode = 0
    ∧ (messageReady (msg 7 (65536 - 32) 0 (zeros 32)) [(regAddr .ckpLaunchCfg, 1)] = true
      ∧ launchChunks (withMessage (msg 7 (65536 - 32) 0 (zeros 32)) [(regAddr .ckpLaunchCfg, 1)]) = 1)
    ∧ (carriesCredit 0 = false ∧ carriesCredit fullCredit = true)
    ∧ (1 * regUnit 0 ≤ hostNode.maxData) := by
  have h : [0x01, 0x02, 0x03, 0x04, 0x05, 0x07, 0x08].all (fun op => messageReady (msg op 0 1)) = true := by decide +kernel
  refine ⟨by simp [MessageCommand], fun op ho => messageAt_of_ready _ _ (List.all_eq_true.mp h op ho),
    ⟨messageAt_of_ready _ _ ?_, ?_⟩, fun op ho => mayBegin_of_ready _ _ (List.all_eq_true.mp h op ho), ?_, ?_, ?_, ?_, ?_, ?_, ?_, ?_,
    ?_, ?_, ?_⟩
  all_goals decide +kernel

/-- The node with a flash operation in progress. -/
def flashing (op : FlashOp) : State := { ({} : State) with brc := { flashOp := some op } }

theorem witness_MessagesReachHostQueuesAndFlash :
    (∀ op ∈ [0x06, 0x09, 0x0A, 0x0B, 0x0C, 0x0D, 0x0E],
      MessageAt (withMessage (msg op 0 1)) 15 3 { someSession with queues := [(3, [msg op 0 1])] } (msg op 0 1) [])
    ∧ ((withMessage (msg 6 0 1)).fatalHold = false ∧ Table.risesFrom 0 (withMessage (msg 6 0 1)).regs = true
      ∧ (withMessage (msg 6 0 1)).hec.doorbells.length < 64 ∧ 64 ≤ (List.replicate 64 (0 : Word)).length)
    ∧ (hostNode.hec.shears = [] ∧ (0 : Nat) ≤ 65536 - 1024 ∧ 65536 - 1024 + 1024 ≤ (0 : Nat) + 65536 * bitsOf (2 ^ 32 : Nat) 32 32)
    ∧ (hostNode.brc.flashOp = none ∧ 1 ≤ hostNode.maxData)
    ∧ inOtherSlot hostNode 0xFFFFFFFF 1 = false
    ∧ (∀ op ∈ [0x06, 0x09, 0x0A, 0x0B, 0x0C, 0x0D, 0x0E],
      mayBegin (withMessage (msg op 0 1)) { someSession with queues := [(3, [msg op 0 1])] } (msg op 0 1) = true)
    ∧ (hostNode.hec.resetAsked = false ∧ ({ ({} : State) with hec := { resetAsked := true } } : State).hec.resetAsked = true)
    ∧ (hostNode.sink = none ∧ eventsOf ([(zeros 8, some (Rider.event 7)), (zeros 8, some .reset)].map (·.2)) = [7])
    ∧ (let s : State := { ({} : State) with hec := { resetAt := some 0 }, now := 1125000 }
      s.hec.resetAt = some 0 ∧ 0 + 1125000 ≤ s.now)
    ∧ hostNode.hec.resetAt = none ∧ ({ ({} : State) with hec := { resetAt := some 0 } } : State).hec.resetAt = some 0
    ∧ (({} : State).brc.off = false ∧ ({} : State).memWf = true)
    ∧ (flashing (.erase 0x10000)).brc.eraseSuspended = false
    ∧ (({ flashOp := some (.program 0x100 [0]), flashI3c := true, flashWait := [.erase 0] } : Brc).flashWait.head? = some (.erase 0)
      ∧ ({ flashOp := some (.program 0x100 [0]), hold := some [] } : Brc).hold ≠ none)
    ∧ ({ ({} : State) with brc := { flashOp := some (.erase 0), eraseSuspended := true } } : State).brc.eraseSuspended = true
    ∧ (flashing (.program 0x100 (zeros 257))).brc.flashOp = some (.program 0x100 (zeros 257)) ∧ (flashing (.program 0x100 [0])).brc.hold = none
      ∧ (flashing (.program 0x100 [0])).brc.flashFor = none := by
  have h : [0x06, 0x09, 0x0A, 0x0B, 0x0C, 0x0D, 0x0E].all (fun op => messageReady (msg op 0 1)) = true := by decide +kernel
  and_intros <;> first
    | exact fun op ho => messageAt_of_ready _ _ (List.all_eq_true.mp h op ho)
    | exact fun op ho => mayBegin_of_ready _ _ (List.all_eq_true.mp h op ho)
    | decide +kernel

/-! ### Reset, boot and the I3C target -/

/-- A node whose part of Brc is as given. -/
def brcNode (b : Brc) (l : List (Nat × Nat) := []) : State := { withRegs l with brc := b }

/-- A node in boot phase `p`. -/
def booting (p : Nat) (x : Nat := 0) (now : Nat := 0) : State :=
  { withRegs [(regAddr .brcBootStatus, p + x)] with now := now }

theorem witness_ResetSourcesResetTheNode :
    (Table.risesFrom 0 ({} : State).regs = true ∧ ({} : State).brc.off = false ∧ ({} : State).brc.hold = none
      ∧ ({} : State).brc.pwrOk = true ∧ ({} : State).brc.vstby = true ∧ ({} : State).brc.rstact ≠ some 0)
    ∧ ((withRegs [(regAddr .brcWdog, 1)]).field .brcWdog 0 0 0 16 ≠ 0
      ∧ (withRegs [(regAddr .brcWdog, 1)]).brc.wdogAt ≤ (withRegs [(regAddr .brcWdog, 1)]).now)
    ∧ ({} : State).field .brcWdog 0 0 0 16 = 0
    ∧ (MayRecord {} 0x001F 660 30 ∧ ({} : State).bootState ≠ 2 ∧ (booting 0 16).bootState = 2)
    ∧ (brcNode { rstact := some 0 }).brc.rstact = some 0
    ∧ (({ ({} : State) with hec := { resetAt := some 0 } } : State).hec.resetAt = some 0)
    ∧ ((brcNode { hold := some [] }).brc.hold.isSome = true ∧ (brcNode { hold := some [] }).now = 0
      ∧ bitsOf ((brcNode { hold := some [] } [(regAddr .brcResetCause, 2)]).getReg (regAddr .brcResetCause)).toNat 0 8 ≤ 2
      ∧ 2 < bitsOf ((brcNode { hold := some [] } [(regAddr .brcResetCause, 3)]).getReg (regAddr .brcResetCause)).toNat 0 8)
    ∧ (brcNode { off := true }).brc.off = true ∧ (brcNode { pwrOk := false }).brc.pwrOk = false
    ∧ (29 ∈ (brcNode { hot := [29], hold := some [0x07] }).brc.hot ∧ 29 ∉ ({} : State).brc.hot
      ∧ [29].filter (fun k => decide (k ≠ 29)) = ([] : List Nat) ∧ [4, 29].filter (fun k => decide (k ≠ 29)) ≠ [])
    ∧ (brcNode { vstby := false }).brc.vstby = false
    ∧ (programming (brcNode { hold := some [] }) = false
      ∧ ({ brcNode { hold := some [] } with now := 125000 } : State).brc.holdFrom + 125000 ≤ 125000
      ∧ programming (brcNode { hold := some [], flashOp := some (.program 0 [0]) }) = true
      ∧ (brcNode { hold := some [6] }).brc.hold ≠ some []
      ∧ (brcNode { hold := some [], pinUntil := 1 }).brc.pinUntil + 125000 > 125000) := by
  unfold MayRecord
  and_intros <;> decide +kernel

/-- The clause in which a slot of the flash boots has no concrete witness: its signature is an opaque value of Config. -/
theorem witness_BootPhasesFollowInOrder :
    (∀ p, p < 6 → (booting p 0 (phaseLimit p)).brc.off = false ∧ (booting p 0 (phaseLimit p)).brc.hold = none
      ∧ Table.risesFrom 0 (booting p 0 (phaseLimit p)).regs = true ∧ (booting p 0 (phaseLimit p)).bootState = 0
      ∧ (booting p 0 (phaseLimit p)).bootPhase = p ∧ (booting p 0 (phaseLimit p)).now ≤ (booting p 0 (phaseLimit p)).brc.phaseStart + phaseLimit p)
    ∧ ((booting 0 128).bit .brcBootStatus 0 7 = true ∧ (booting 0).bit .brcBootStatus 0 7 = false)
    ∧ ((booting 0).idFormed = false ∧ (withRegs [(regAddr .brcI3c, 1 * 2 ^ 8)]).idFormed = true)
    ∧ ((booting 0).brc.flashOp = none
      ∧ bootSlot { booting 0 with aks := { (booting 0).aks with serial := Config.nodeSerial.toNat } } = none)
    ∧ (∃ n ∈ [133], n < 134) ∧ (∀ n ∈ [134], 134 ≤ n)
    ∧ ((∀ i, i < 64 → 64 * 7 + i ∈ (List.range 64).map (· + 448)) ∧ ∀ k, k < 8 → ∃ i, i < 64 ∧ 64 * k + i ∉ [511])
    ∧ (bitOf ((withRegs [(regAddr .brcTileEn 8, 0)]).getReg (regAddr .brcTileEn 8)).toNat 63 = false)
    ∧ (booting 4 0 (phaseLimit 4 + 1)).brc.phaseStart + phaseLimit 4 < (booting 4 0 (phaseLimit 4 + 1)).now := by
  refine ⟨by decide +kernel, by decide +kernel, by decide +kernel, by decide +kernel, by decide, by decide, ⟨?_, ?_⟩,
    by decide +kernel, by decide +kernel⟩
  · intro i hi
    exact List.mem_map.mpr ⟨i, List.mem_range.mpr hi, by omega⟩
  · intro k _
    exact ⟨0, by decide, by simp; omega⟩

/-- A node whose target has an address. -/
def addressed (l : List (Nat × Nat) := []) (op : Option FlashOp := none) : State := brcNode { da := some 8, flashOp := op } l

theorem witness_I3cTargetAnswersItsCommands :
    (addressedI3c {} = false ∧ addressedI3c (addressed) = true ∧ Table.risesFrom 0 (addressed).regs = true)
    ∧ (brcNode { off := true }).brc.off = true
    ∧ (let s := withRegs [(regAddr .brcI3c, 1 * 2 ^ 8)]
      s.idFormed = true ∧ s.brc.da = none ∧ bitOf s.brc.i3cEvents 3 = true ∧ s.brc.hotJoinReq = false)
    ∧ ({} : State).idFormed = false
    ∧ (i3cReaches (regAddr .brcPartId) = true ∧ (fetchRegister .akm (regAddr .brcPartId) (addressed)).answer.1 = 0
      ∧ i3cReaches (regAddr .tilSeqProg 0) = false
      ∧ i3cReaches (regAddr .brcPartId + 4) = true ∧ (fetchRegister .akm (regAddr .brcPartId + 4) (addressed)).answer.1 ≠ 0)
    ∧ ((addressed).bootState ≠ 2 ∧ (addressed [(regAddr .brcBootStatus, 16)]).bootState = 2
      ∧ (addressed [(regAddr .brcBootStatus, 16)]).brc.flashOp = none
      ∧ (addressed [] (some (.erase 0))).brc.flashOp.isSome = true)
    ∧ decide (0x3FF0000 % 0x10000 = 0) = true ∧ decide (0x100 % 0x10000 = 0) = false
    ∧ (MayRecord (addressed) 0x0012 608 0 ∧ bitOf (addressed).brc.i3cEvents 0 = true ∧ (addressed).brc.da.isSome = true) := by
  unfold MayRecord
  and_intros <;> decide +kernel

/-! ### Akenavis -/

theorem witness_JobChangesStopAndZeroiseTheNode :
    (hecOrAkm .akm = true ∧ Table.risesFrom 0 tileOnRegs.regs = true ∧ Table.risesFrom 0 ({} : State).shadow = true)
    ∧ (bitOf (BitVec.ofNat 64 (2 ^ 32 + 65535 * 2 ^ 16)).toNat 32 = true ∧ bitsOf (BitVec.ofNat 64 (2 ^ 32 + 65535 * 2 ^ 16)).toNat 16 16 = 65535
      ∧ tileOnRegs.jid ≠ 65535 ∧ tileOnRegs.aks.jobChange = none ∧ tileOnRegs.fatalHold = false)
    ∧ (booting 0 24).fatalHold = true
    ∧ oldJobOutstanding ({ ({} : State) with aks := { jobChange := some 5 } } : State) = false
    ∧ oldJobOutstanding (engineReading []) = true
    ∧ ({ ({} : State) with aks := { jobChange := some 5, debugScope := some 7 } } : State).aks.debugScope = some 7 := by
  and_intros <;> decide +kernel

/-- A node with an identity. -/
def identified (l : List (Nat × Nat × SignFor × List Byte)) : State :=
  { ({} : State) with aks := { identity := some ([1], [2], [3], [4]), signing := l } }

/-- The clauses in which a peer's certificate or a token verifies have no concrete witness: what verifies is an opaque value
of Config. -/
theorem witness_QuotesSignaturesAndTokens :
    (mayAddress .akm = true ∧ Table.risesFrom 0 (identified []).regs = true ∧ Table.risesFrom 0 (identified []).aks.peers = true)
    ∧ (bitOf (1 : Word).toNat 0 = true ∧ (identified []).bit .aksQuoteCtl 0 1 = false ∧ (identified []).aks.identity.isSome = true)
    ∧ (withRegs [(regAddr .aksQuoteCtl, 2)]).bit .aksQuoteCtl 0 1 = true ∧ ({} : State).aks.identity = none
    ∧ (identified [(0, 660, .quote, zeros 1536)]).aks.signing = [(0, 660, .quote, zeros 1536)]
    ∧ handshakeOf { identified [(0, 656, .reply 0 9, zeros 64)] with hec := { handshakes := [{ link := 0, hid := 9, startAt := 0 }] } } 0 9
        = some { link := 0, hid := 9, startAt := 0 }
    ∧ ({} : State).ckp.restore = none ∧ peerKey {} (aksBuffer {} .aksPeerBuf 512) = none
    ∧ (tokenScope {} (aksBuffer {} .aksToken 256) = none ∧ ({} : State).field .aksDebugCtl 0 0 6 2 < 2
      ∧ 2 ≤ (withRegs [(regAddr .aksDebugCtl, 128)]).field .aksDebugCtl 0 0 6 2) := by
  and_intros <;> decide +kernel

/-- AKM_PEN_CMD with GO for a unit. -/
def penWord (kind n : Nat) : Word := BitVec.ofNat 64 (kind + 4 * n + 2 ^ 12)

/-- A node with every unit unpenned that still has a credit undertaken. -/
def undertook : State :=
  { withRegs [(regAddr .pfbPenMap 8, 0), (regAddr .akmPenUnits, 0), (regAddr .prcCoreStatus, 0), (regAddr .memPenMap 7, 0)] with
    akm := { undertaken := [(575, 575, none, 191, 65535)] } }

theorem witness_PenningAndFoldVoltages :
    (Table.risesFrom 0 undertook.regs = true ∧ Table.risesFrom 0 undertook.tiles = true ∧ Table.risesFrom 0 undertook.cores = true
      ∧ Table.risesFrom 0 undertook.engines = true)
    ∧ (undertook.tileOn 575 = true ∧ undertook.corePenned 63 = false ∧ undertook.enginePenned 15 = false ∧ undertook.pcPenned 511 = false
      ∧ (undertook.unitOn 0 575 = true ∧ undertook.unitOn 1 63 = true ∧ undertook.unitOn 2 15 = true ∧ undertook.unitOn 3 511 = true)
      ∧ (undertook.unitOn 1 64 = false ∧ undertook.penDue = []))
    ∧ (bitOf (penWord 3 511).toNat 12 = true ∧ bitsOf (penWord 3 511).toNat 0 2 = 3 ∧ bitsOf (penWord 3 511).toNat 2 10 = 511
      ∧ (withRegs [(regAddr .memPenMap 7, 2 ^ 63)]).pcPenned 511 = true ∧ tileOnRegs.tileOn 575 = false)
    ∧ MayRecord undertook 0x0012 (unitEp 0 575) 575
    ∧ (akmWorks undertook = true ∧ undertook.akm.undertaken[0]? = some (575, 575, none, 191, 65535)
      ∧ undertook.awaits (fun p => decide (p.agent = some 575)) = false)
    ∧ ({ undertook with requests := [⟨575, 0, .tileLoad 575 5 0x80 1, {}, 1⟩] } : State).awaits (fun p => decide (p.agent = some 575)) = true
    ∧ akmWorks { undertook with akm := { frozen := true } } = false
    ∧ (windowServes { withRegs [(regAddr .synQwin 7, 1 + 6 * 2 ^ 48)] with qwins := 128 } 7 1 = true
      ∧ windowServes { withRegs [(regAddr .synQwin 7, 1 + 6 * 2 ^ 48)] with qwins := 128 } 7 2 = true ∧ windowServes {} 7 1 = false)
    ∧ (dailyDue { booting 3 with now := 24 * ticksPerHour } 15 = true
      ∧ dailyDue { booting 3 with brc := { operated := 24 * ticksPerHour } } 15 = true ∧ dailyDue {} 15 = false
      ∧ (recentRecords ({} : State)).length < 64 ∧ 64 ≤ (recentRecords { ({} : State) with akm := { logHour := List.replicate 64 0 } }).length
      ∧ ({} : State).akm.logSeq % 256 = 0) := by
  unfold MayRecord
  and_intros <;> decide +kernel

/-- A node at a stage of a fatal error. -/
def fatalAt (stage : Nat) (at_ now : Nat) : State :=
  { withRegs [(regAddr .akmFatal, 4 + stage * 2 ^ 32), (regAddr .brcBootStatus, 3)] with
    akm := { freezeAt := some at_, dumpAt := some at_, holdUntil := some at_ }, now := now }

theorem witness_FatalErrorsFreezeAndDump :
    (∀ k, k < 4 → fatalStage (fatalAt k 0 0) = k ∧ (fatalAt k 0 0).brc.off = false ∧ (fatalAt k 0 0).brc.hold = none
      ∧ Table.risesFrom 0 (fatalAt k 0 0).regs = true ∧ (fatalAt k 0 0).memWf = true)
    ∧ (3 ≤ (fatalAt 0 0 0).bootPhase ∧ ({} : State).bootPhase < 3 ∧ (fatalAt 0 0 0).bootState ≠ 2 ∧ (booting 3 16).bootState = 2)
    ∧ (freezeOverdue (fatalAt 1 0 12500000) = false ∧ freezeOverdue (fatalAt 1 0 12500001) = true)
    ∧ (dumpOverdue (fatalAt 2 0 2500000000) = false ∧ dumpOverdue (fatalAt 2 0 2500000001) = true)
    ∧ ((fatalAt 3 5 5).akm.holdUntil = some 5 ∧ ({} : State).akm.holdUntil = none)
    ∧ (let s := withRegs ((List.range 8).map (fun k => (regAddr .memPenMap k, 0)))
      s.pcPenned (s.pcOf 0x7F00000000).1 = false ∧ s.pcPenned (s.pcOf 0x7F00000040).1 = false ∧ s.pcPenned (s.pcOf 0x7F00000060).1 = false)
    ∧ MayRecord (fatalAt 2 0 0) 0x0021 660 0 := by
  unfold MayRecord
  and_intros <;> decide +kernel

theorem witness_TelemetryPowerAndTestAccess :
    (Table.risesFrom 0 ({} : State).regs = true ∧ Table.risesFrom 0 ({} : State).ports = true)
    ∧ (telemetryDue { ({} : State) with akm := { telemAt := 1 } } = false ∧ telemetryDue (withRegs [(regAddr .akmTelem, 1)]) = true)
    ∧ ({ ({} : State) with akm := { cmpAt := 1 } } : State).akm.cmpAt = ({} : State).now + 1
    ∧ (comparisonDue {} = true ∧ comparisonDue { ({} : State) with now := 1 } = false)
    ∧ (hecOrAkm .akm = true ∧ ({} : State).bootPhase < 2 ∧ ¬ (booting 2).bootPhase < 2)
    ∧ ((brcNode { pwrOk := false }).brc.pwrOk = false ∧ (brcNode { pgUntil := 1 }).now < (brcNode { pgUntil := 1 }).brc.pgUntil)
    ∧ ((if 1600 < 1601 then Nat.min 63 (63 + 1) else 63) = 63 ∧ Table.risesFrom 0 ({} : State).tiles = true)
    ∧ (({} : State).brc.off = false ∧ ({} : State).brc.pwrOk = true ∧ ({} : State).hec.shears = [])
    ∧ ((withRegs [(regAddr .aksStatus, 6)]).bit .aksStatus 0 1 = true ∧ (withRegs [(regAddr .aksStatus, 6)]).bit .aksStatus 0 2 = true
      ∧ ({} : State).bit .aksStatus 0 1 = false) := by
  and_intros <;> decide +kernel

/-! ### Every command -/

/-- Of each condition of a command that no witness above shows true, a state that meets it. -/
theorem witness_CommandsTakeTheirEffect :
    (idleDue (tileOnRegs.setTile 0 { state := .running, queues := allAtEnd }) 0 = true
      ∧ (({ bank1 := { finals := [⟨4, 9, false⟩] } } : Tile).bank true).finals.any (fun p => decide (p.due ≤ 9)) = true
      ∧ tallyWaitReady 576 { withRegs [] with tallies := [(110592 + 191, ⟨1, false⟩)], cores := [(0, { held := false, wait := some (.tally 191 1) })] } = true)
    ∧ (coreRuns (coreAt 0x0001) 0 = true ∧ (fetchInstr 0 (coreAt 0x0001)).2 = .word 1 2 ∧ (expandC 1).isSome = true)
    ∧ (interruptible (timerState { csr := { mstatus := 8, mie := 128 } }) 0 = true
      ∧ timerPending (timerState { csr := { mie := 128 }, wfi := true }) 0 = true)
    ∧ (∀ op, op < 10 → commandLegal op (mw op 0) 0 = true) ∧ engineOn (ending false) 0 = true
    ∧ ((answerOf loadRequest (rspPkt opRDATA 0 1) (answeredState loadRequest (rspPkt opRDATA 0 1) loadTile)).isSome = true
      ∧ (answerOf storeRequest (rspPkt opACK 0 0) (answeredState storeRequest (rspPkt opACK 0 0) (storeTile 1 0))).isSome = true
      ∧ (answerOf loadRequest (rspPkt opERR 8 0) (answeredState loadRequest (rspPkt opERR 8 0) loadTile)).isSome = true
      ∧ (answerOf preRequest (rspPkt opDECLINE 0 0) (answeredState preRequest (rspPkt opDECLINE 0 0) {})).isSome = true)
    ∧ (memoryUp (booting 4) = true ∧ calibrationDue (windowState 512 128) 7 = true
      ∧ forcedDue { booting 4 with time := 1250000 } 7 = true
      ∧ scrubDue { withRegs [(regAddr .memScrub, 1), (regAddr .brcBootStatus, 4), (regAddr .memPenMap 7, 0)] with now := 256 } 511 = true
      ∧ portSaturated { booting 4 with fullSince := [(31, some 0)], now := 4096 } 31 = true)
    ∧ (releaseDue 1023 (hurdleState 0 0 { trel := some 768, relAt := 768 }) = true
      ∧ resendDue 1023 { hurdleState 1 0 { resend := some 4096 } with now := 4096 } = true
      ∧ tsyncLostDue { withRegs [(regAddr .synTimeStatus, 2)] with now := 2500000 } = true
      ∧ timeExchangeDue (exchanging timeReqPkt { joined := true } |>.setReg (regAddr .hfiNodeId) (BitVec.ofNat 64 (3 + 2 ^ 16))) = true)
    ∧ ((inWindow (windowState 512 0) 7 && !isOpen (windowState 512 0) 7) = true
      ∧ (isOpen (windowState 1792 128) 7 && !inWindow (windowState 1792 128) 7) = true)
    ∧ (holtimSaturated { portState { stall := [(7, some 0)] } with now := 4096 } 15 1 = true
      ∧ (expired { portState { reqs := [portReq (some 0)] } with now := 1250 } 15 65535).isSome = true)
    ∧ ((overdueHandshake { hostNode with hec := { handshakes := [replied] }, now := ticksPerSecond } 0).isSome = true
      ∧ idleSession 15 (hostNode (some someSession)) = true ∧ crookOn hostNode 0 = true)
    ∧ stallDue { launchNode [] with now := chunkTmo (launchNode []) } = true
    ∧ (crookResetDue { ({} : State) with hec := { resetAt := some 0 } } = true
      ∧ watchdogDue (withRegs [(regAddr .brcWdog, 1)]) = true
      ∧ holdOver { brcNode { hold := some [] } with now := 125000 } = true)
    ∧ ((∀ p, p < 6 → phaseEnds (booting p 0 (phaseLimit p)) p = true) ∧ phaseOverdue (booting 4 0 (phaseLimit 4 + 1)) = true)
    ∧ (hotJoinDue (withRegs [(regAddr .brcI3c, 1 * 2 ^ 8)]) = true ∧ i3cUp {} = true ∧ addressedI3c (addressed) = true)
    ∧ (akmWorks undertook = true ∧ fatalCounts (fatalAt 0 0 0) 2 = true ∧ holdExpired (fatalAt 3 5 5) = true ∧ tapWorks {} = true
      ∧ ({} : State).working = true) := by
  and_intros <;> decide +kernel

/-! ### The spec's worked examples

The expected values of these tests are the numbers of the worked example each names. -/

/-- One FP32 reduction on six nodes (chapter 2): T of six leaves. -/
theorem test_tree_of_six_leaves :
    (treeSum fmtFp32 [0x4B800000, 0x3F800000, 0x3F800000, 0x3F800000, 0x3F800000, 0x3F800000]).1 = 0x4B800002 := by decide +kernel

/-- FP8 E4M3, K = 3 (chapter 3): the accumulator's integer, and the output in FP32 by rounding mode. -/
theorem test_fp8_dot_product :
    (shortDot 3 3 false {} [0x3C, 0xFE, 0x01] [0x45, 0x30, 0x01]).1.val = -57442303
    ∧ [Rm.rne, .rtz, .rdn, .rup].map (fun rm =>
        (encodeCode 8 rm (shortOutput 18 { val := -57442303 } (exactOfInt 1 0)).1).1)
      = [0xC35B2000, 0xC35B1FFF, 0xC35B2000, 0xC35B1FFF] := by decide +kernel

/-- SLICES = 4 and SLICES = 6, K = 2 (chapter 3). -/
theorem test_fp64_by_slices :
    (leafF64 4 [0x4008000000000000, 0x3FF0000000001000] [0x3FF0000100000000, 0x4000000000000000]).1 = 0x40140000C0000000
    ∧ (leafF64 6 [0x4008000000000000, 0x3FF0000000001000] [0x3FF0000100000000, 0x4000000000000000]).1 = 0x40140000C0000800 := by
  decide +kernel

/-- SR from FP32 to BF16 (chapter 3). -/
theorem test_stochastic_rounding :
    [0x123456, 0xB7FFFF, 0xB80000, 0xC00000].map (fun r => (roundFloat fmtBf16 (.sr r) (decodeFloat fmtFp32 0x3F804800)).1)
      = [0x3F80, 0x3F80, 0x3F81, 0x3F81] := by decide +kernel

/-- VDTANH with y = 0.5 and dy = 3.0 (chapter 7). -/
theorem test_vdtanh : (elDtanh ⟨0xA, 0, .rne, 0x40400000, 0x3F000000, 0⟩).1 = 0x40100000 := by decide +kernel

/-- Softmax backward, row 0 (chapter 7): the sum over 128 leaves, then dy - s, then dx. -/
theorem test_softmax_backward :
    (treeSum fmtFp32 ([0x3F000000, 0xBF000000, 0x3F000000, 0x3D800000] ++ List.replicate 124 0)).1 = 0x3F100000
    ∧ (elSub ⟨0xA, 0, .rne, 0xC0000000, 0x3F100000, 0⟩).1 = 0xC0240000
    ∧ (elMul ⟨0xA, 0, .rne, 0x3E800000, 0xC0240000, 0⟩).1 = 0xBF240000
    ∧ (elMul ⟨0xA, 0, .rne, 0, 0xBF100000, 0⟩).1 = 0x80000000 := by decide +kernel

/-- One address in both modes (chapter 9). -/
theorem test_address_mapping :
    mapWide 0x1234567A00 = (368, 0x091A2B00) ∧ mapLocal 0x1234567A00 = (67, 0x0968AC00)
    ∧ [0, 1, 2, 3].map (fun k => (mapWide (0x1234567800 + 256 * k)).1) = [370, 371, 368, 369]
    ∧ ({} : State).epOf 0x1234567A00 = some 599 := by decide +kernel

/-- A write across the date line (chapter 8): the phases of the route, the way round row ring 3, and the way back. -/
theorem test_route_across_the_date_line :
    (ringStops (.row 3)).length = 26 ∧ posOn (.row 3) (.tile 20 3) = 21 ∧ posOn (.row 3) (.tile 2 3) = 3
    ∧ routeOf false (.tile 20 3) (.tile 2 5) = [(.row 3, .tile 2 3), (.col 2, .tile 2 5)]
    ∧ nextStop (.row 3) (.tile 20 3) (.tile 2 3) = (.tile 21 3, false)
    ∧ nextStop (.row 3) (.east 3) (.tile 2 3) = (.west 3, true) ∧ nextStop (.row 3) (.west 3) (.tile 2 3) = (.tile 0 3, false)
    ∧ nextStop (.col 2) (.tile 2 3) (.tile 2 5) = (.tile 2 4, false)
    ∧ routeOf true (.tile 2 5) (.tile 20 3) = [(.col 2, .tile 2 3), (.row 3, .tile 20 3)]
    ∧ nextStop (.row 3) (.tile 2 3) (.tile 20 3) = (.tile 1 3, false) := by decide +kernel

/-- Tiles 92 and 200 (chapter 1) and the folds they lie in. -/
theorem test_tile_places : foldOf 92 = 3 ∧ foldOf 200 = 5 := by decide

/-- A cross-node release (chapter 10): T_release of hurdle 7. -/
theorem test_release_tick : roundUp256 (1049908 + 2048) = 1052160 := by decide

/-- One crowd system against a late deadline (chapter 13): the descriptor, T, and the LATE records. -/
def crowdDesc : List Nat := [112 + 48 * 2 ^ 11 + 8 * 2 ^ 24 + 8 * 2 ^ 33 + 4 * 2 ^ 41 + 2 ^ 49, 0, 0, 0x00000423_1050E288]

def crowdRun : SolveRun := {
  sys := 62, start := 0, len := 6864, deadline := 2916, desc := crowdDesc, phases := solvePhases crowdDesc 40, bad := false,
  late := some (5, 41, 0), flags := 0, loc := 0, stateWrites := [], output := none, tally := 0, statusAt := 0 }

theorem test_crowd_system :
    solveTicks crowdDesc 40 = 6864
    ∧ solvePhases crowdDesc 40 = [(0, 1), (128, 2), (208, 3), (1744, 4), (2416, 5), (3760, 6), (4432, 7), (6736, 8)]
    ∧ (phaseAt (solvePhases crowdDesc 40) 2916, progressAt crowdRun 2916) = (5, 41, 0)
    ∧ (phaseAt (solvePhases crowdDesc 40) 4736, progressAt crowdRun 4736) = (7, 1, 2)
    ∧ statusWord crowdRun = 0x29501
    ∧ SolveIn.frac ⟨crowdDesc, [], [], []⟩ qMAS = 31 := by decide +kernel

/-- The same example's pivots and quotient (PIVMIN 65,536): the raw integers used, the first clamp and the first SAT. -/
def pivotIn : SolveIn := ⟨crowdDesc ++ [65536], [], [], []⟩

def atJoint70 (phase : Nat) : Work := { phase := phase, index := 70, q := [], qd := [], qdd := [], w := [], lam := [] }

theorem test_pivots_and_quotient :
    ((pivotIn.pivot qMAS (pivotIn.val qMAS 0)).run (atJoint70 5)).1 = 65536
    ∧ ((pivotIn.pivot qMAS (pivotIn.val qMAS 0)).run (atJoint70 5)).2.clamp = some (5, 70)
    ∧ ((pivotIn.pivot qMAS (pivotIn.val qMAS (-1000))).run (atJoint70 5)).1 = -65536
    ∧ ((pivotIn.pivot qMAS (pivotIn.val qMAS 70000)).run (atJoint70 5)).1 = 70000
    ∧ ((pivotIn.pivot qMAS (pivotIn.val qMAS 70000)).run (atJoint70 5)).2.clamp = none
    ∧ ((pivotIn.assign qACC ((pivotIn.val qFRC (2 ^ 46)).div (pivotIn.val qMAS 65536))).run (atJoint70 6)).1 = 2 ^ 47 - 1
    ∧ ((pivotIn.assign qACC ((pivotIn.val qFRC (2 ^ 46)).div (pivotIn.val qMAS 65536))).run (atJoint70 6)).2.sat = some (6, 70) := by
  decide +kernel

/-- A gated input write (chapter 15): the tally word of the last WRITE; cuts of the character shot (chapter 14): SLOT_SIZE. -/
theorem test_tally_word_and_slot_size :
    legalTally 0x40003600A0000001 = true ∧ bitsOf 0x40003600A0000001 29 17 = 110597 ∧ bitsOf 0x40003600A0000001 0 16 = 1
    ∧ tallyEp 110597 = 608 ∧ slotUnits 318018 = 318058 := by decide +kernel

end Sys2Proof.Tests
end

section
/-! SUPPORT. The generator instructions of the sequencer (R113): the step of the sequencer at a word it may take, what each of
AGSET, AGSTRIDE and AGADD makes of a generator, and O5 from them. -/

namespace Sys2Proof.Machine

/-! ### A sum in the low bits -/

theorem wrapNat_cast (n : Nat) (x : Int) : (wrapNat n x : Int) = x % (2 ^ n : Nat) :=
  Int.toNat_of_nonneg (Int.emod_nonneg x (Int.natCast_ne_zero.mpr (Nat.ne_of_gt (Nat.two_pow_pos n))))

theorem wrapNat_lt (n : Nat) (x : Int) : wrapNat n x < 2 ^ n :=
  Int.ofNat_lt.mp (wrapNat_cast n x ▸ Int.emod_lt_of_pos x (Int.natCast_pos.mpr (Nat.two_pow_pos n)))

/-! ### A step of the sequencer at a word it may take -/

section
variable {s : State} {t op : Nat}

theorem AtWord.opcode (h : AtWord s t op) : bitsOf (word0 s t) 56 8 = op := by
  obtain ⟨-, -, -, -, -, -, hop, -⟩ := h
  exact hop

/-- The gate of the command is open, and no double-bit error lies in what is fetched. -/
theorem AtWord.seqRow_eq (h : AtWord s t op) : seqRow op t s = .next (seqStep t s) := by
  obtain ⟨hrun, hon, hheld, hended, hfrozen, hregion, hop, hgood⟩ := h
  have hgate : (canFetch s t && inRegion s t (s.tile t).fetch && decide (nextOp s t = op)) = true := by
    simp [canFetch, hrun, hon, hheld, hended, hfrozen, hregion, hop]
  rw [seqRow, act_true hgate, seqRun, bytesMet_good hgood]

theorem AtWord.seqStep_one (h : AtWord s t op) (hw : wordsOf (word0 s t) = 1) :
    seqStep t s = seqInstruction t (s.tile t).fetch (word0 s t) 0 s := by
  obtain ⟨-, -, -, -, -, hregion, -, -⟩ := h
  have hw' : wordsOf (progWord s t (s.tile t).fetch) = 1 := hw
  simp [seqStep, hregion, hw', word0]

theorem AtWord.seqStep_two (h : AtWord s t op) (hw : wordsOf (word0 s t) = 2)
    (hext : inRegion s t ((s.tile t).fetch + 1) = true) :
    seqStep t s = seqInstruction t (s.tile t).fetch (word0 s t) (word1 s t) s := by
  obtain ⟨-, -, -, -, -, hregion, -, -⟩ := h
  have hw' : wordsOf (progWord s t (s.tile t).fetch) = 2 := hw
  simp [seqStep, hregion, hw', hext, word0, word1]

end

/-! ### The three forms (R106, R107) -/

section
variable {w ext t f : Nat} {s : State}

theorem wordsOf_agset (h : bitsOf w 56 8 = 0x04) : wordsOf w = 2 := by
  simp [wordsOf, hasExt, h]

theorem wordsOf_agstride (h : bitsOf w 56 8 = 0x05) : wordsOf w = 1 := by
  simp [wordsOf, hasExt, vFormat, h]

theorem wordsOf_agadd (h : bitsOf w 56 8 = 0x06) : wordsOf w = 1 := by
  simp [wordsOf, hasExt, vFormat, h]

theorem seqInstruction_agset (h : bitsOf w 56 8 = 0x04) (hz : bitsOf w 0 50 = 0)
    (hb : bitOf w 50 = true ∨ bitsOf ext 48 16 = 0) : seqInstruction t f w ext s = seqAgset t f w ext s := by
  have hlegal : legalSeq 0x04 w ext = true := by simpa [legalSeq, hz] using hb
  simp [seqInstruction, h, unitOf, vFormat, hlegal]

/-- The base of an LPA has 48 bits. -/
theorem seqInstruction_agset_refused (h : bitsOf w 56 8 = 0x04) (hg : bitOf w 50 = false) (hb : bitsOf ext 48 16 ≠ 0) :
    seqInstruction t f w ext s = raiseExc t excILLEGAL_OP f ((s.tile t).disp + 1) 0 s := by
  have hillegal : legalSeq 0x04 w ext = false := by simp [legalSeq, hg, hb]
  simp [seqInstruction, h, unitOf, vFormat, hillegal]

theorem seqInstruction_agstride (h : bitsOf w 56 8 = 0x05) (hz : bitsOf w 40 9 = 0) :
    seqInstruction t f w ext s = seqAgstride t f w s := by
  have hlegal : legalSeq 0x05 w ext = true := by simp [legalSeq, hz]
  simp [seqInstruction, h, unitOf, vFormat, hlegal]

theorem seqInstruction_agadd (h : bitsOf w 56 8 = 0x06) (hz : bitsOf w 40 11 = 0) :
    seqInstruction t f w ext s = seqAgadd t f w s := by
  have hlegal : legalSeq 0x06 w ext = true := by simp [legalSeq, hz]
  simp [seqInstruction, h, unitOf, vFormat, hlegal]

end

/-! ### What each makes of a generator -/

/-- A generator with the stride of one loop level replaced. -/
def Gen.withStride (a : Gen) (level v : Nat) : Gen :=
  match level with
  | 0 => { a with s0 := v }
  | 1 => { a with s1 := v }
  | 2 => { a with s2 := v }
  | _ => { a with s3 := v }

/-- The base of a generator moved by a signed amount: modulo 2^48 for an LPA, in the 40-bit offset of a global address. -/
def Gen.movedBase (a : Gen) (d : Int) : Nat :=
  if a.glb then a.base / 2 ^ 40 * 2 ^ 40 + wrapNat 40 ((a.base : Int) + d) else wrapNat 48 ((a.base : Int) + d)

theorem seqAgstride_eq (t f w : Nat) (s : State) :
    seqAgstride t f w s = seqGen t f 1 (bitsOf w 51 5) (·.withStride (bitsOf w 49 2) (bitsOf w 0 40)) s := rfl

theorem seqAgadd_eq (t f w : Nat) (s : State) :
    seqAgadd t f w s
      = seqGen t f 1 (bitsOf w 51 5) (fun a => { a with base := a.movedBase (signedOf 40 (bitsOf w 0 40)) }) s := rfl

theorem Gen.withStride_stride_self (a : Gen) (level v : Nat) :
    (a.withStride level v).stride level = signedOf 40 v := by
  unfold withStride
  split
  · rfl
  · rfl
  · rfl
  · next h0 h1 h2 => rw [stride, if_neg h0, if_neg h1, if_neg h2]

theorem Gen.withStride_stride_other (a : Gen) {level l : Nat} (v : Nat) (hlevel : level < 4) (hl : l < 4)
    (hne : l ≠ level) : (a.withStride level v).stride l = a.stride l := by
  match level with
  | 0 => simp [withStride, stride, hne]
  | 1 => simp [withStride, stride, hne]
  | 2 => simp [withStride, stride, hne]
  | 3 =>
    have hcases : l = 0 ∨ l = 1 ∨ l = 2 := by omega
    obtain rfl | rfl | rfl := hcases <;> rfl

@[simp] theorem Gen.withStride_base (a : Gen) (level v : Nat) : (a.withStride level v).base = a.base := by
  unfold withStride
  split <;> rfl

@[simp] theorem Gen.withStride_glb (a : Gen) (level v : Nat) : (a.withStride level v).glb = a.glb := by
  unfold withStride
  split <;> rfl

/-- An LPA is moved modulo 2^48. -/
theorem Gen.movedBase_local {a : Gen} (h : a.glb = false) (d : Int) :
    a.movedBase d < 2 ^ 48 ∧ ((a.movedBase d : Int) - a.base - d) % 2 ^ 48 = 0 := by
  have hb : a.movedBase d = wrapNat 48 (a.base + d) := by simp [movedBase, h]
  have hmod := wrapNat_cast 48 (a.base + d)
  rw [hb]
  exact ⟨wrapNat_lt 48 _, by omega⟩

/-- A global address keeps its node and window, and its offset is moved modulo 2^40. -/
theorem Gen.movedBase_global {a : Gen} (h : a.glb = true) (d : Int) :
    a.movedBase d / 2 ^ 40 = a.base / 2 ^ 40 ∧ ((a.movedBase d : Int) - a.base - d) % 2 ^ 40 = 0 := by
  have hb : a.movedBase d = a.base / 2 ^ 40 * 2 ^ 40 + wrapNat 40 (a.base + d) := by simp [movedBase, h]
  have hlt := wrapNat_lt 40 (a.base + d)
  have hmod := wrapNat_cast 40 (a.base + d)
  rw [hb]
  exact ⟨by omega, by omega⟩

/-! ### The commands -/

section
variable {s : State} {t : Nat}

theorem exec_agset (h : AtWord s t 0x04) (hext : inRegion s t ((s.tile t).fetch + 1) = true) :
    exec (.agset t) s = .next (seqInstruction t (s.tile t).fetch (word0 s t) (word1 s t) s) := by
  rw [← h.seqStep_two (wordsOf_agset h.opcode) hext]
  exact h.seqRow_eq

theorem exec_agstride (h : AtWord s t 0x05) (hz : bitsOf (word0 s t) 40 9 = 0) :
    exec (.agstride t) s = .next (seqAgstride t (s.tile t).fetch (word0 s t) s) := by
  rw [← seqInstruction_agstride h.opcode hz, ← h.seqStep_one (wordsOf_agstride h.opcode)]
  exact h.seqRow_eq

theorem exec_agadd (h : AtWord s t 0x06) (hz : bitsOf (word0 s t) 40 11 = 0) :
    exec (.agadd t) s = .next (seqAgadd t (s.tile t).fetch (word0 s t) s) := by
  rw [← seqInstruction_agadd h.opcode hz, ← h.seqStep_one (wordsOf_agadd h.opcode)]
  exact h.seqRow_eq

/-- A tile that is not the reset one reads back, whatever the form of the table of tiles. -/
theorem State.tile_setTile_self_of_ne {x : Tile} (h : x ≠ {}) : (s.setTile t x).tile t = x := by
  rw [State.tile, State.setTile_tiles, Table.set, if_neg h]
  exact Table.get_insert_self

theorem startTile_gens (s : State) (t : Nat) : ((startTile t s).tile t).gens = [] := by
  rw [startTile, State.modTile, State.tile_setTile_self_of_ne]
  intro h
  exact absurd (congrArg Tile.state h) RunState.noConfusion

end

/-- Settles O5: each instruction is one step of the sequencer that changes one generator. -/
theorem generatorInstructionsFollowTheirFields : Obligations.GeneratorInstructionsFollowTheirFields := by
  refine ⟨fun s t => ⟨?agset, ?refused, ?agstride, ?agadd⟩, fun s t g => ?start⟩
  case agset =>
    intro h hext hz hb
    rw [exec_agset h hext, seqInstruction_agset h.opcode hz hb]
    rfl
  case refused =>
    intro h hext hg hb
    rw [exec_agset h hext, seqInstruction_agset_refused h.opcode hg hb]
  case agstride =>
    intro h hz
    have hlevel : bitsOf (word0 s t) 49 2 < 4 := Nat.mod_lt _ (by decide)
    let old := Table.get {} (s.tile t).gens (bitsOf (word0 s t) 51 5)
    refine ⟨old.withStride (bitsOf (word0 s t) 49 2) (bitsOf (word0 s t) 0 40), ?_, old.withStride_stride_self _ _,
      fun l hl hne => old.withStride_stride_other _ hlevel hl hne, old.withStride_base _ _, old.withStride_glb _ _⟩
    rw [exec_agstride h hz, seqAgstride_eq]
    rfl
  case agadd =>
    intro h hz
    let old := Table.get {} (s.tile t).gens (bitsOf (word0 s t) 51 5)
    refine ⟨old.movedBase (signedOf 40 (bitsOf (word0 s t) 0 40)), ?_, fun hl => Gen.movedBase_local hl _,
      fun hg => Gen.movedBase_global hg _⟩
    rw [exec_agadd h hz, seqAgadd_eq]
    rfl
  case start =>
    rw [startTile_gens]
    rfl

end Sys2Proof.Machine
end

section
/-! SUPPORT. The shorter way round a ring (R177): the stops of a ring are distinct (R173), the links between two positions
counted in each direction, and O18 from them. -/

namespace Sys2Proof.Machine

/-! ### The stops of a ring -/

/-- The part of a column ring at tile (x, y): the tile, and on the outer columns the side stop of its row (R173). -/
def columnStops (x y : Nat) : List Stop :=
  .tile x y :: ((if x = 0 ∧ rowHasWest y then [.west y] else []) ++ (if x = 23 ∧ rowHasEast y then [.east y] else []))

/-- The stops of column `x` at memory ports of stack `s` (R174). -/
def memStops (x s : Nat) : List Stop := (memStopsOf (x % 6)).map (fun m => .mem (576 + 4 * s + m.1) m.2)

theorem ringStops_col (x : Nat) :
    ringStops (.col x) = memStops x (x / 6) ++ (List.range 24).flatMap (columnStops x) ++ memStops x (x / 6 + 4) := rfl

theorem row_of_mem_columnStops {x y : Nat} {a : Stop} (h : a ∈ columnStops x y) : a.row = some y := by
  simp only [columnStops, List.mem_cons, List.mem_append, List.mem_ite_nil_right, List.not_mem_nil, or_false] at h
  obtain rfl | ⟨-, rfl⟩ | ⟨-, rfl⟩ := h <;> rfl

theorem row_of_mem_memStops {x s : Nat} {a : Stop} (h : a ∈ memStops x s) : a.row = none := by
  obtain ⟨m, -, rfl⟩ := List.mem_map.1 h
  rfl

theorem columnStops_nodup (x y : Nat) : (columnStops x y).Nodup := by
  unfold columnStops
  split <;> split <;> simp

theorem ne_of_mem_columnStops {x y y' : Nat} (hne : y ≠ y') :
    ∀ a ∈ columnStops x y, ∀ b ∈ columnStops x y', a ≠ b := by
  rintro a ha _ hb rfl
  exact hne (Option.some.inj ((row_of_mem_columnStops ha).symm.trans (row_of_mem_columnStops hb)))

theorem tileColumn_nodup (x : Nat) : ((List.range 24).flatMap (columnStops x)).Nodup :=
  List.pairwise_flatMap.2 ⟨fun y _ => columnStops_nodup x y, List.nodup_range.imp ne_of_mem_columnStops⟩

theorem memStopsOf_nodup (c : Nat) : (memStopsOf c).Nodup := by
  unfold memStopsOf
  split <;> decide

theorem port_lt_of_mem_memStopsOf {c : Nat} : ∀ m ∈ memStopsOf c, m.1 < 4 := by
  unfold memStopsOf
  split <;> decide

theorem memStops_nodup (x s : Nat) : (memStops x s).Nodup := by
  refine List.pairwise_map.2 ((memStopsOf_nodup _).imp fun hne h => hne ?_)
  obtain ⟨hep, hk⟩ := Stop.mem.inj h
  exact Prod.ext (Nat.add_left_cancel hep) hk

theorem ne_of_mem_memStops {x s s' : Nat} (hne : s ≠ s') : ∀ a ∈ memStops x s, ∀ b ∈ memStops x s', a ≠ b := by
  intro a ha b hb h
  obtain ⟨m, hm, rfl⟩ := List.mem_map.1 ha
  obtain ⟨m', hm', rfl⟩ := List.mem_map.1 hb
  have hep := (Stop.mem.inj h).1
  have hport := port_lt_of_mem_memStopsOf m hm
  have hport' := port_lt_of_mem_memStopsOf m' hm'
  omega

/-- A memory stop lies on no row ring, so it is none of the stops between the ends of a column ring. -/
theorem ne_of_mem_memStops_of_mem_tileColumn {x s : Nat} :
    ∀ a ∈ memStops x s, ∀ b ∈ (List.range 24).flatMap (columnStops x), a ≠ b := by
  rintro a ha _ hb rfl
  obtain ⟨y, -, hy⟩ := List.mem_flatMap.1 hb
  exact Option.some_ne_none y ((row_of_mem_columnStops hy).symm.trans (row_of_mem_memStops ha))

theorem ringStops_row_nodup (y : Nat) : (ringStops (.row y)).Nodup := by
  have htiles : ((List.range 24).map (fun x => Stop.tile x y)).Nodup :=
    List.pairwise_map.2 (List.nodup_range.imp fun hne h => hne (Stop.tile.inj h).1)
  rw [ringStops]
  split <;> split <;> simp [List.nodup_append, htiles]

theorem ringStops_col_nodup (x : Nat) : (ringStops (.col x)).Nodup := by
  have hstacks : x / 6 ≠ x / 6 + 4 := by omega
  rw [ringStops_col]
  refine List.nodup_append.2 ⟨?lo, memStops_nodup x _, fun a ha b hb => ?hi⟩
  case lo => exact List.nodup_append.2 ⟨memStops_nodup x _, tileColumn_nodup x, ne_of_mem_memStops_of_mem_tileColumn⟩
  case hi =>
    obtain hlo | htile := List.mem_append.1 ha
    · exact ne_of_mem_memStops hstacks a hlo b hb
    · exact (ne_of_mem_memStops_of_mem_tileColumn b hb a htile).symm

/-- No stop lies twice on a ring. -/
theorem ringStops_nodup : (r : Ring) → (ringStops r).Nodup
  | .row y => ringStops_row_nodup y
  | .col x => ringStops_col_nodup x

theorem posOn_lt {r : Ring} {a : Stop} (ha : a ∈ ringStops r) : posOn r a < (ringStops r).length :=
  List.idxOf_lt_length_of_mem ha

theorem getElem_posOn {r : Ring} {a : Stop} (ha : a ∈ ringStops r) : (ringStops r)[posOn r a]'(posOn_lt ha) = a :=
  List.getElem_idxOf _

theorem posOn_ne {r : Ring} {a b : Stop} (ha : a ∈ ringStops r) (hb : b ∈ ringStops r) (hne : a ≠ b) :
    posOn r a ≠ posOn r b := by
  intro h
  refine hne ?_
  calc a = (ringStops r)[posOn r a]'(posOn_lt ha) := (getElem_posOn ha).symm
    _ = (ringStops r)[posOn r b]'(posOn_lt hb) := by simp only [h]
    _ = b := getElem_posOn hb

/-! ### Positions round a ring of `n` stops -/

/-- The links from position `i` to position `j` by the way of increasing position. -/
def linksUp (n i j : Nat) : Nat := (j + n - i) % n

/-- The position after `i` on the shorter way to `j`, the way of increasing position when both are equally long. -/
def nextPos (n i j : Nat) : Nat := if 2 * linksUp n i j ≤ n then (i + 1) % n else (i + n - 1) % n

section
variable {n i j : Nat}

theorem linksUp_of_le (hij : i ≤ j) (hj : j < n) : linksUp n i j = j - i := by
  rw [linksUp, show j + n - i = j - i + n by omega, Nat.add_mod_right, Nat.mod_eq_of_lt (by omega)]

theorem linksUp_of_lt (hji : j < i) (hi : i < n) : linksUp n i j = j + n - i := Nat.mod_eq_of_lt (by omega)

/-- The two ways round go over each link of the ring once. -/
theorem linksUp_add_linksUp (hi : i < n) (hj : j < n) (hne : i ≠ j) : linksUp n i j + linksUp n j i = n := by
  obtain hij | hji := Nat.lt_or_gt_of_ne hne
  · rw [linksUp_of_le (Nat.le_of_lt hij) hj, linksUp_of_lt hij hj]; omega
  · rw [linksUp_of_lt hji hi, linksUp_of_le (Nat.le_of_lt hji) hi]; omega

theorem linksUp_succ_left (hi : i < n) (hj : j < n) (hne : i ≠ j) : linksUp n ((i + 1) % n) j + 1 = linksUp n i j := by
  obtain hij | hji := Nat.lt_or_gt_of_ne hne
  · rw [Nat.mod_eq_of_lt (by omega), linksUp_of_le hij hj, linksUp_of_le (Nat.le_of_lt hij) hj]; omega
  · obtain hlast | hlt : i + 1 = n ∨ i + 1 < n := by omega
    · rw [hlast, Nat.mod_self, linksUp_of_le (Nat.zero_le j) hj, linksUp_of_lt hji hi]; omega
    · rw [Nat.mod_eq_of_lt hlt, linksUp_of_lt (by omega) hlt, linksUp_of_lt hji hi]; omega

theorem linksUp_pred_right (hi : i < n) (hj : j < n) (hne : i ≠ j) :
    linksUp n j ((i + n - 1) % n) + 1 = linksUp n j i := by
  obtain hij | hji := Nat.lt_or_gt_of_ne hne
  · obtain rfl | hpos := Nat.eq_zero_or_pos i
    · rw [Nat.mod_eq_of_lt (by omega), linksUp_of_le (by omega) (by omega), linksUp_of_lt hij hj]; omega
    · rw [show i + n - 1 = i - 1 + n by omega, Nat.add_mod_right, Nat.mod_eq_of_lt (by omega),
        linksUp_of_lt (by omega) hj, linksUp_of_lt hij hj]
      omega
  · rw [show i + n - 1 = i - 1 + n by omega, Nat.add_mod_right, Nat.mod_eq_of_lt (by omega),
      linksUp_of_le (by omega) (by omega), linksUp_of_le (Nat.le_of_lt hji) hi]
    omega

theorem linksUp_self (hi : i < n) : linksUp n i i = 0 := by
  rw [linksUp_of_le (Nat.le_refl i) hi, Nat.sub_self]

/-- The two ways together go over each link once, or there is no link to go. -/
theorem linksUp_eq_zero_or_add (hi : i < n) (hj : j < n) :
    linksUp n i j = 0 ∧ linksUp n j i = 0 ∨ linksUp n i j + linksUp n j i = n := by
  obtain rfl | hne := Decidable.em (i = j)
  · exact .inl ⟨linksUp_self hi, linksUp_self hi⟩
  · exact .inr (linksUp_add_linksUp hi hj hne)

theorem nextPos_lt (hi : i < n) : nextPos n i j < n := by
  unfold nextPos
  split <;> exact Nat.mod_lt _ (by omega)

theorem nextPos_of_tie (h : linksUp n i j = linksUp n j i) (hsum : linksUp n i j + linksUp n j i = n) :
    nextPos n i j = (i + 1) % n := if_pos (by omega)

/-- The next position is one link nearer, counted the shorter way. -/
theorem min_linksUp_nextPos (hi : i < n) (hj : j < n) (hne : i ≠ j) :
    min (linksUp n (nextPos n i j) j) (linksUp n j (nextPos n i j)) + 1 = min (linksUp n i j) (linksUp n j i) := by
  have hsum := linksUp_add_linksUp hi hj hne
  have hnew := linksUp_eq_zero_or_add (nextPos_lt (j := j) hi) hj
  by_cases hup : 2 * linksUp n i j ≤ n
  · have hstep : linksUp n (nextPos n i j) j + 1 = linksUp n i j := by
      rw [nextPos, if_pos hup, linksUp_succ_left hi hj hne]
    omega
  · have hstep : linksUp n j (nextPos n i j) + 1 = linksUp n j i := by
      rw [nextPos, if_neg hup, linksUp_pred_right hi hj hne]
    omega

end

/-! ### The next stop -/

section
variable {r : Ring} {a b : Stop}

theorem ringDistance_eq (r : Ring) (a b : Stop) :
    ringDistance r a b
      = min (linksUp (ringStops r).length (posOn r a) (posOn r b)) (linksUp (ringStops r).length (posOn r b) (posOn r a)) := rfl

theorem nextStop_fst (h : nextPos (ringStops r).length (posOn r a) (posOn r b) < (ringStops r).length) :
    (nextStop r a b).1 = (ringStops r)[nextPos (ringStops r).length (posOn r a) (posOn r b)] :=
  (List.getElem_eq_getD a).symm

theorem nextStop_mem (ha : a ∈ ringStops r) : (nextStop r a b).1 ∈ ringStops r := by
  rw [nextStop_fst (nextPos_lt (posOn_lt ha))]
  exact List.getElem_mem _

theorem posOn_nextStop (ha : a ∈ ringStops r) :
    posOn r (nextStop r a b).1 = nextPos (ringStops r).length (posOn r a) (posOn r b) := by
  rw [nextStop_fst (nextPos_lt (posOn_lt ha))]
  exact (ringStops_nodup r).idxOf_getElem _ _

end

/-- Settles O18: the stops of a ring are distinct, so the next stop is the one at `nextPos`, one link nearer. -/
theorem ringHopsTakeTheShorterWay : Obligations.RingHopsTakeTheShorterWay := by
  intro r a b ha hb hab
  have hi := posOn_lt ha
  have hj := posOn_lt hb
  have hne : posOn r a ≠ posOn r b := posOn_ne ha hb hab
  refine ⟨nextStop_mem ha, ?nearer, fun htie => ?tie⟩
  case nearer =>
    rw [ringDistance_eq, ringDistance_eq, posOn_nextStop ha]
    exact min_linksUp_nextPos hi hj hne
  case tie =>
    rw [ringDistance_eq] at htie
    have hsum := linksUp_add_linksUp hi hj hne
    rw [posOn_nextStop ha, nextPos_of_tie (by omega) hsum]

end Sys2Proof.Machine
end

section
/-! SUPPORT. Credits at their tally (R225): what one credit makes of a tally and of the table of tallies, what serving a CREDIT
does, and O23 from them. -/

namespace Sys2Proof.Machine

/-! ### A credit of a tally -/

section
variable {x : Tally} {c c' : Nat} {e e' : Bool}

@[simp] theorem Tally.credit_zero : x.credit 0 e = x := rfl

theorem Tally.credit_of_ne_zero (h : c ≠ 0) : x.credit c e = ⟨(x.count + c) % 2 ^ 32, x.err || e⟩ := if_neg h

theorem Tally.credit_count : (x.credit c e).count = if c = 0 then x.count else (x.count + c) % 2 ^ 32 := by
  split
  case isTrue h => rw [h, credit_zero]
  case isFalse h => rw [credit_of_ne_zero h]

theorem Tally.credit_err : (x.credit c e).err = (x.err || (decide (c ≠ 0) && e)) := by
  obtain rfl | h := Decidable.em (c = 0)
  · simp
  · simp [credit_of_ne_zero h, h]

/-- Two credits add up, and so do their error bits, whichever comes first. -/
theorem Tally.credit_comm : (x.credit c e).credit c' e' = (x.credit c' e').credit c e := by
  obtain rfl | h := Decidable.em (c = 0)
  · simp
  obtain rfl | h' := Decidable.em (c' = 0)
  · simp
  have hcount : ((x.count + c) % 2 ^ 32 + c') % 2 ^ 32 = ((x.count + c') % 2 ^ 32 + c) % 2 ^ 32 := by omega
  have herr : (x.err || e || e') = (x.err || e' || e) := Bool.or_right_comm ..
  simp only [credit_of_ne_zero h, credit_of_ne_zero h', hcount, herr]

end

section
variable {s : State} {i j c : Nat} {e : Bool}

theorem State.tally_applyCredit_self (h : Table.risesFrom 0 s.tallies = true) :
    (s.applyCredit i c e).tally i = (s.tally i).credit c e := Table.get_set_self h

theorem State.tally_applyCredit_other (h : Table.risesFrom 0 s.tallies = true) (hj : j ≠ i) :
    (s.applyCredit i c e).tally j = s.tally j := Table.get_set_other h hj

end

/-! ### Taking an arrival, and the marks of conflicts -/

section
variable {s : State} {a : Arrival} {n op i : Nat}

@[simp] theorem taken_tallies (n : Nat) (s : State) : (taken n s).tallies = s.tallies := by rw [taken_frame]

theorem tally_taken : (taken n s).tally i = s.tally i := by rw [State.tally, taken_tallies, State.tally]

theorem tallyOwnerOff_taken : (taken n s).tallyOwnerOff i = s.tallyOwnerOff i := by
  rw [taken_frame]
  rfl

theorem conflictCredit_taken : conflictCredit a (taken n s) = conflictCredit a s := by
  rw [taken_frame]
  rfl

@[simp] theorem conflictSettled_tallies (a : Arrival) (s : State) : (conflictSettled a s).tallies = s.tallies := by
  unfold conflictSettled
  split <;> rfl

theorem tally_conflictSettled : (conflictSettled a s).tally i = s.tally i := by
  rw [State.tally, conflictSettled_tallies, State.tally]

theorem conflictSettled_eq_self (h : conflictCredit a s = false) : conflictSettled a s = s := by
  simp [conflictSettled, h]

/-! ### Serving a CREDIT -/

/-- A request that its endpoint serves now is taken and served. -/
theorem Serves.serve_eq (h : Serves s n op a) (f : Arrival → State → State) : serve n op f s = f a (taken n s) := by
  obtain ⟨hat, hop, hcls, hwait, hon, hwf⟩ := h
  have hgo : ¬ (a.pkt.opcode ≠ op ∨ a.pkt.cls = clsRSP ∨ (addressOp op ∧ mustWait s n a)) := by
    rintro (hne | hrsp | ⟨haddr, hmust⟩)
    · exact hne hop
    · exact hcls hrsp
    · simp [hwait haddr] at hmust
  have hpen : ¬ (a.ep < 576 ∧ s.tileOn a.ep = false ∧ a.inPort = false) := fun ⟨htile, hoff, _⟩ => by
    simp [hon htile] at hoff
  simp only [serve, hat, if_neg hgo, if_neg hpen, hwf, Bool.true_eq_false, if_false]

/-- The node with the credit of a CREDIT applied, which carries the error bit also where its copy met a WRITE_CONFLICT. -/
def State.creditedBy (s : State) (a : Arrival) : State :=
  (conflictSettled a s).applyCredit a.pkt.tally a.pkt.credit (a.pkt.terr || conflictCredit a s)

theorem serveCredit_eq (hep : tallyEp a.pkt.tally = a.ep) (hlt : a.pkt.tally < 131072)
    (hon : s.tallyOwnerOff a.pkt.tally = false) : serveCredit a s = acknowledge a (s.creditedBy a) := by
  simp [serveCredit, hep, Nat.not_le.mpr hlt, hon, State.creditedBy]

theorem exec_credit (h : Serves s n opCREDIT a) (hep : tallyEp a.pkt.tally = a.ep) (hlt : a.pkt.tally < 131072)
    (hon : s.tallyOwnerOff a.pkt.tally = false) :
    exec (.credit n) s = .next (acknowledge a ((taken n s).creditedBy a)) := by
  have hserved : exec (.credit n) s = .next (serveCredit a (taken n s)) := congrArg _ (h.serve_eq serveCredit)
  rw [hserved, serveCredit_eq hep hlt (tallyOwnerOff_taken.trans hon)]

theorem State.tally_creditedBy_self (h : Table.risesFrom 0 s.tallies = true) :
    (s.creditedBy a).tally a.pkt.tally
      = (s.tally a.pkt.tally).credit a.pkt.credit (a.pkt.terr || conflictCredit a s) := by
  rw [creditedBy, tally_applyCredit_self (by simpa using h), tally_conflictSettled]

theorem State.tally_creditedBy_other (h : Table.risesFrom 0 s.tallies = true) (hi : i ≠ a.pkt.tally) :
    (s.creditedBy a).tally i = s.tally i := by
  rw [creditedBy, tally_applyCredit_other (by simpa using h) hi, tally_conflictSettled]

/-- Where no WRITE_CONFLICT was met, a credit changes nothing but tallies. -/
theorem State.creditedBy_frame (h : conflictCredit a s = false) :
    s.creditedBy a = { s with tallies := (s.creditedBy a).tallies } := by
  rw [creditedBy, conflictSettled_eq_self h]
  rfl

end

/-- Settles O23: a served CREDIT is one `Tally.credit` of its tally, and two of them commute. -/
theorem creditsAddToTheirTally : Obligations.CreditsAddToTheirTally := by
  refine ⟨fun s n a hserves hep hlt hon hrises => ?served, fun x c c' e e' => Tally.credit_comm⟩
  case served =>
    have hself : ((taken n s).creditedBy a).tally a.pkt.tally
        = (s.tally a.pkt.tally).credit a.pkt.credit (a.pkt.terr || conflictCredit a s) := by
      rw [State.tally_creditedBy_self (by simpa using hrises), tally_taken, conflictCredit_taken]
    refine ⟨(taken n s).creditedBy a, exec_credit hserves hep hlt hon, ?count, fun hzero => ?zero,
      fun hne hterr => ?terr, fun j hj => ?other, fun hfree => ⟨?err, ?frame⟩⟩
    case count => rw [hself, Tally.credit_count]
    case zero => rw [hself, hzero, Tally.credit_zero]
    case terr => simp [hself, Tally.credit_err, hne, hterr]
    case other => rw [State.tally_creditedBy_other (by simpa using hrises) hj, tally_taken]
    case err => rw [hself, Tally.credit_err, hfree, Bool.or_false]
    case frame => exact State.creditedBy_frame (conflictCredit_taken.trans hfree)

end Sys2Proof.Machine
end
